-- ==== Sys2Proof/Word.lean ====
section
/-!
DEFINITION. The widths of the machine: 48-bit register words (R6), bytes, and the position and time that are 48 bits
wide (R4, R88, R90).
-/
namespace Sys2Proof

/-- A register word, TPOS, TIME, a sequence number: 48 bits. -/
abbrev Word := BitVec 48

/-- A byte. -/
abbrev Byte := BitVec 8

/-- A 128-bit IPv6 address. -/
abbrev IPv6 := BitVec 128

end Sys2Proof
end

