-- ==== Sys2Proof/Syntax.lean ====
section
/-!
DEFINITION. The commands: one constructor of `Instr` per row of spec/opcode_table.json, with what its rule takes from
outside the block as its operands. A row of the command set (R299) names its accepted command by its handover number.
-/
namespace Sys2Proof

/-- A received RRT segment, its header cut into the fields of R267, with the port and source it came from. -/
structure Seg where
  port    : Nat
  src     : IPv6
  sport   : BitVec 16
  ver     : BitVec 4
  typ     : Byte
  first   : Bool
  last    : Bool
  ackNow  : Bool
  sack    : List (Word × Word)
  dstConn : BitVec 16
  srcConn : BitVec 16
  epoch   : BitVec 32
  seq     : Word
  ack     : Word
  credit  : BitVec 16
  payLen  : BitVec 16
  msgLen  : BitVec 32
  msgOff  : BitVec 32
  tsVal   : BitVec 32
  tsEcho  : BitVec 32
  payload : List Byte
  deriving DecidableEq, Repr

/-- How a tape motion that a command needs comes out. -/
inductive Motion where
  | arrived                              -- the transport did what was asked
  | notReached                           -- the position was not reached (R393)
  | reaction (slot kind : Nat)           -- a supervision reaction interrupted it (R390)
  deriving DecidableEq, Repr

/-- What the read element of one channel gives while a slot passes it (R111): its signal, as values from 64 channel bits before
the predicted first bit of the segment to 64 after its last, at whatever resolution. -/
structure TrackSignal where
  channel : Nat
  signal  : List Int
  deriving DecidableEq, Repr

/-- What the read elements give of an insole data set that has just been written; none: what was written, without a fault
(log 46). -/
abbrev ReadBack := Option (List TrackSignal)

/-- What the read-back of a zone commit gives in copies A and B, in the order in which parts are written (R168, R239); past the
end of a list, what was written. -/
structure ZoneEnv where
  copyA : List ReadBack
  copyB : List ReadBack
  deriving DecidableEq, Repr

/-- An insole data set that LOAD finds in copy A (0) or B (1) of the zone: its slot and, where no reads are given, the payload that
the read elements give without a fault; else what they give read by read, the first and those of ladder steps 4 and 5 (log 46). -/
structure InsoleFound where
  copy    : Nat
  slot    : Nat
  payload : List Byte
  reads   : List (List TrackSignal)
  deriving DecidableEq, Repr

/-- A data set that the recovery scan of R247 reads: where it lies, the header fields that the scan uses, whether it
decodes, the runs of records that have bytes in it (stream, first, last), the highest record of each stream that ends in it,
the chains whose first click begins in it (stream, manifest entry, RECORD), and the in-line segment found in it. -/
structure ScanSet where
  slot    : Nat
  wrap    : Nat
  typ     : Nat
  member  : Nat
  group   : Nat
  index   : Nat
  dsSeq   : Word
  generation : BitVec 32
  decodes : Bool
  runs    : List (BitVec 16 × Word × Word)
  ended   : List (BitVec 16 × Word)
  chains  : List (BitVec 16 × Byte × Word)
  segment : List Byte
  deriving DecidableEq, Repr

/-- What a self-calibration or full calibration finds (R493, R496): the values by register address, those of HFM registers
(module, address, value), the lateral signs and offsets (R489), and how many channels were calibrated. -/
structure CalFound where
  values   : List (Nat × Word)
  lateral  : List (Bool × BitVec 32)
  hfm      : List (Nat × Nat × BitVec 16)
  channels : Nat
  deriving DecidableEq, Repr

/-- What LOAD finds in the drive (R319): presence, format, the insole data sets of both copies in the order of their slots, the data sets of a scan, where the last heel copy of the highest generation lies (wrap and slot), calibration,
the pack offsets and the stripe check of R457. -/
structure LoadEnv where
  present  : Bool
  ztf1     : Bool
  setOk    : Bool
  parts    : List InsoleFound
  scan     : List ScanSet
  heel     : Option (Nat × Nat)
  cal      : Option CalFound
  pack     : BitVec 32 × BitVec 32
  zone     : ZoneEnv
  motion   : Motion
  deriving DecidableEq, Repr

/-- What a calibration run meets: the values found and the motion's outcome, and whether the store reads back. -/
structure CalEnv where
  found    : Option CalFound
  readBack : Bool
  motion   : Motion
  deriving DecidableEq, Repr

/-- What a loop test run meets (R396). -/
structure TestEnv where
  locked  : Bool
  samples : BitVec 32
  failure : Option (Nat × Nat)
  deriving DecidableEq, Repr

/-- What an attempt of the start-up sequence meets (R471, R472): lock, NOR and SFDP answers, DDR training per channel,
and whether SEC can make the boot record (R507). -/
structure StartEnv where
  pllLocks  : Bool
  norAnswer : Bool
  xspi      : Bool
  erase64k  : Bool
  headerOk  : Bool × Bool
  ddrTrains : Bool × Bool
  recordOk  : Bool
  deriving DecidableEq, Repr

/-- The straps at the release of PORST_N (R469, R550). -/
structure Straps where
  role     : Bool
  id       : BitVec 4
  sbMode   : Bool
  testMode : BitVec 2
  deriving DecidableEq, Repr

/-- What the servo element of one lateral input gives for a frame: stripe centres in 1/16 channel bit, counted as the frame
passes; each burst lists its stripes by their numbers 1 to 3, whichever passes first; a missing stripe is none (R63, R64). -/
structure ServoFrame where
  k    : List (Option Int)
  flag : Option Int
  p    : List (Option Int)
  m    : List (Option Int)
  deriving DecidableEq, Repr

/-- A rectified pulse of an eyelet input: its samples as places in 1/16 channel bit of TPOS from the prediction, with their
amplitudes (R75). -/
abbrev Pulse := List (Int × Nat)

/-- The pulses that one eyelet input shows for a window (R75). -/
abbrev Marks := List Pulse

/-- How a register access reaches the register file (R10). -/
inductive Path where
  | rrt | sideband | cobbler
  deriving DecidableEq, Repr

/-- Why MAC, IPv6 or UDP drops a frame (R259, R260, R263, R264, R266). -/
inductive DropCause where
  | fcs | fec | tooLong | notOurMac | vlan | version | extension | nextHeader | notOurIp | lengthMismatch
  | udpPort | checksum | hopLimit | otherIcmp | routerAdvert
  deriving DecidableEq, Repr

/-- One Andola flit (R446). -/
structure Flit where
  ftype  : BitVec 3
  vc     : BitVec 2
  dst    : BitVec 4
  src    : BitVec 4
  seq    : BitVec 16
  ackSeq : BitVec 16
  crVc   : BitVec 2
  crCnt  : BitVec 6
  payload : List Byte
  deriving DecidableEq, Repr

/-- The master's beacon for an eyelet boundary (R452). -/
structure Beacon where
  tposE : Word
  freq  : BitVec 32
  mode  : BitVec 3
  dir   : Bool
  fly   : Bool
  depOfs : BitVec 16
  deriving DecidableEq, Repr

/-- A member's data set as its master sends it (R454): the header values of R43 that the member needs, its slot, and whether it
is its group's last. -/
structure SentSet where
  band  : Nat
  width : Nat
  lane  : Nat
  wrap  : Nat
  slot  : Nat
  group : Nat
  index : Nat
  generation : Nat
  dsSeq : Word
  flushEnd : Bool
  last  : Bool
  deriving DecidableEq, Repr

/-- A click as a stripe master sends it to the member that codes it (R456): the master's number for it and what R187 to R195
fix about it. -/
structure SentClick where
  click    : Nat
  stream   : Nat
  chain    : Nat
  record   : Word
  reset    : Bool
  recStart : Bool
  cutFlush : Bool
  urgent   : Bool
  ends     : List Nat
  affinity : Nat
  deriving DecidableEq, Repr

/-- What the messages between the devices of a set say (R444, R454, R456, R457, R529). The spec gives them no layout
(log 21). -/
inductive LinkMsg where
  | dataSet (x : SentSet) (payload : List Byte)
  | click (c : SentClick) (input : List Byte)
  | verdict (typ : Nat) (dsSeq : Word) (passed : Bool)
  | displaced (dsSeq : Word) (slot : Nat)
  | superseded (typ : Nat) (dsSeq : Word)
  | coded (click : Nat) (raw : Bool) (bytes : List Byte)
  | placed (click : Nat)
  | want (wrap group index : Nat) (entry : List Byte)
  | readBack (wrap group index klass : Nat) (payload : List Byte)
  | entries (es : List (List Byte))
  | snapshot (id : Nat) (target : Word)
  | load
  | unload
  | streaming (moving : Bool)
  | sessionEnd (commit : Word)
  deriving DecidableEq, Repr

/-- What a member reports at link-up (R450), with its IDENTITY entry and its boot record and amendments (R514), each as the
entry's bytes from the fifth on. -/
structure LinkInfo where
  mode     : BitVec 2
  id       : BitVec 4
  role     : Bool
  ident    : Word
  fwDigest : List Byte
  latency  : BitVec 16
  idTaken  : Bool
  identity : List Byte
  records  : List (List Byte)
  deriving DecidableEq, Repr

/-- I3C common command codes of R525. -/
inductive Ccc where
  | setdasa (a : BitVec 7)
  | entdaa (a : BitVec 7)
  | rstdaa
  | get (what : Nat)
  | enec
  | disec
  | other
  deriving DecidableEq, Repr

/-- Where a trace arm comes from: a MAINT_TRACE command, or a write of TCE.TRACE[t] (R395, R403). -/
inductive TraceArm where
  | command (h : Nat)
  | register (t : Nat)
  deriving DecidableEq, Repr

/-- What goes wrong in a CMP engine: nothing, an uncorrectable error of its history SRAM or of the history slot (R202), or
a body that does not decode to its input (R200). -/
inductive EngineErr where
  | none | sram | historySlot | miscode
  deriving DecidableEq, Repr

/-- The commands of spec/opcode_table.json. -/
inductive Instr where
  | openStream (h : Nat)
  | closeStream (h : Nat)
  | writeRecord (h : Nat)
  | readRecord (h : Nat) (motion : Motion)
  | locate (h : Nat) (motion : Motion)
  | flush (h : Nat)
  | queryIndex (h : Nat)
  | readLog (h : Nat)
  | resume (h : Nat)
  | load (h : Nat) (env : LoadEnv)
  | unload (h : Nat) (zone : ZoneEnv) (motion : Motion)
  | snapshot (h : Nat)
  | calibrateStore (h : Nat) (readBack : Bool)
  | calibrateSelf (h : Nat) (env : CalEnv)
  | calibrateFull (h : Nat) (env : CalEnv)
  | calibrateInvalidate (h : Nat)
  | loopOpen (h : Nat)
  | loopClose (h : Nat)
  | loopTestRun (h : Nat) (env : TestEnv)
  | nvmRead (h : Nat)
  | nvmWrite (h : Nat) (readBack : Bool)
  | nvmPrefer (h : Nat)
  | nvmInvalidate (h : Nat)
  | nvmVerify (h : Nat)
  | maintEnd (h : Nat)
  | cobblerRestartCmd (h : Nat)
  | deviceRestartCmd (h : Nat) (env : StartEnv)
  | traceArm (a : TraceArm)
  | traceStop (h : Nat)
  | traceRead (h : Nat)
  | dispatchCommand
  | syn (seg : Seg)
  | ack (seg : Seg)
  | fin (seg : Seg)
  | rst (seg : Seg)
  | cmd (seg : Seg)
  | mgmtReadRequest (seg : Seg)
  | mgmtWriteRequest (seg : Seg)
  | segmentTransmit
  | lastAckClose (conn : Nat)
  | retransmissionTimeout (conn : Nat)
  | delayedAck (conn : Nat)
  | keepaliveTimeout (conn : Nat)
  | creditProbe (conn : Nat)
  | synAckTimeout (conn : Nat)
  | orphanExpiry (orphan : Nat)
  | neighborSolicitation (port : Nat) (target src : IPv6) (mac : Word) (hopLimit : Byte)
  | neighborAdvertisement (port : Nat) (target : IPv6) (mac : Word) (hopLimit : Byte)
  | mldQuery (port : Nat) (src : IPv6)
  | echoRequest (port : Nat) (src dst : IPv6) (body : List Byte)
  | pfcFrame (port : Nat) (quanta : List (Nat × BitVec 16))
  | pauseFrame (port : Nat)
  | pfcStorm (port : Nat) (prio : Nat)
  | linkUp (port : Nat)
  | linkDown (port : Nat)
  | dadTimeout (port : Nat) (global duplicate : Bool)
  | idleCut (stream : BitVec 16)
  | compressionJobStart (engine : Nat)
  | clickCoded (engine : Nat) (err : EngineErr)
  | decompressionJobStart (engine : Nat)
  | clickDecoded (engine : Nat) (err : EngineErr)
  | contextSpill (stream : BitVec 16)
  | contextRestore (stream : BitVec 16)
  | dataSetClose
  | c3Fold (accError : Bool)
  | fifoMark
  | dataSetStart (underrun : List Nat)
  | verifyWindow (reads : List TrackSignal)
  | c1CodewordDecoded (channel codeword : Nat)
  | c2Decode
  | verifyDecision
  | speedMatch (running : Nat)
  | holdEnd
  | sessionIdleTimeout
  | wrapTurn (zone : ZoneEnv)
  | indexCommitMerge
  | zoneCommit (zone : ZoneEnv)
  | reDecode
  | c3ErasureDecode
  | groupReread (reads : List (Nat × List TrackSignal))
  | eyeletWindowClose (lower upper : Marks)
  | lateralSample (input : Nat) (frame : Option ServoFrame)
  | bandWordDecoded (lower upper : Bool)
  | signatureSeen (endSig : Bool)
  | uncertainTimeout
  | snapshotFire
  | snapshotReadout
  | weltValue (samples : List (Nat × List Int))
  | hfmFaultPoll (responses : List (Nat × List (BitVec 40)))
  | hfmFrameSend (module : Nat) (command : BitVec 32) (response : BitVec 40)
  | enableGroupStep
  | fifoPointerMismatch (id : Nat)
  | ddrRefresh (double : Bool)
  | ddrZqCalibration
  | ddrRetrain (subchannel : Nat)
  | patrolScrub (corrected : List Nat) (uncorrectable : List Nat) (passDone : Bool)
  | poolQuery (owner : BitVec 3) (handle : BitVec 32)
  | poolAllocate (owner : BitVec 3) (handle : BitVec 32)
  | poolShare (owner : BitVec 3) (handle : BitVec 32)
  | poolRelease (owner : BitVec 3) (handle : BitVec 32)
  | dmaGo (channel : Nat)
  | dmaStop (channel bursts : Nat)
  | dmaClear (channel : Nat)
  | dmaChannelStart
  | dmaChannelDone
  | dmaHalted
  | loopSample (slot : Nat) (lost : Bool) (delay : BitVec 12)
  | profileGeneratorStep
  | appendResumeAfterStop
  | loopCtrlWrite (value mask : Word)
  | pwmPeriod (group : Nat)
  | currentSenseConversion (codes : List (Int × Int))
  | reelCommutation (reel : Nat)
  | alignEnd (reel : Nat)
  | eyeletTimeout
  | observerReacqAttempt (reel : Nat) (plausible : Bool)
  | bootstrapEnd
  | stepperHold
  | quadratureEdge (q : Nat) (a b : Bool)
  | quadratureIndex (q : Nat)
  | gateDriverFault (g : Nat)
  | gdEnReassert (g : Nat)
  | gdRestartCheck (g : Nat) (high : Bool)
  | cascadeLinkUp (port member : Nat) (info : LinkInfo)
  | cascadeJoin (member : Nat)
  | flitReceived (port : Nat) (flit : List Byte)
  | replayTimeout (port : Nat)
  | beaconReceived (beacon : Beacon)
  | beaconMiss
  | cascadeLoss (member : Nat) (ofMaster : Bool)
  | memberLeave (member : Nat)
  | fcInChange (level : BitVec 2)
  | porstAssert
  | porstRelease (straps : Straps) (env : StartEnv)
  | retryTimer (env : StartEnv)
  | retryNow (env : StartEnv)
  | retryHoldTimeout
  | setPref (slotB : Bool)
  | norReadPage (addr : BitVec 32)
  | norProgramPage (addr : BitVec 32)
  | norEraseBlock (addr : BitVec 32)
  | norReadSfdp (addr : BitVec 32) (page : List Byte)
  | norOperationDone (failed : Bool)
  | standbyRequest
  | standbyReq (active : Bool)
  | wakeN
  | wakeCartridge
  | wakeTimer
  | railWaitEnd (env : StartEnv)
  | brownOut
  | thermalSample (sensors : List Int) (env : StartEnv)
  | railSample (mv : List (BitVec 16)) (outFor1ms : List Bool)
  | hfmTempPoll (temps : List (Nat × Option (BitVec 10)))
  | cobblerKick
  | watchdogExpiry (ddrOk slotOk : Bool) (env : StartEnv)
  | sidebandRead (addr : BitVec 24) (pecOk lengthOk : Bool)
  | sidebandWrite (addr : BitVec 24) (value mask : Word) (pecOk lengthOk : Bool)
  | sidebandResult (pecOk : Bool)
  | registerWrite (path : Path) (addr : BitVec 24) (value mask : Word)
  | rcFieldRead (path : Path) (addr : BitVec 24)
  | cartridgeEjected
  | interlockChange (loader active : Bool)
  | gpioInputChange (ball : Nat) (level : Bool)
  | pinFunctionChange (ball : Nat) (value mask : Word)
  | pinWindowEnd (ball : Nat)
  | jtagInstruction (code : BitVec 6)
  | eyeletMarkCounted (interval : Nat)
  | pfcPauseEnd (port prio : Nat)
  | receivedFrameDropped (port : Nat) (cause : DropCause)
  | i3cCommand (ccc : Ccc)
  | cobblerRestartDone
  | brownOutRelease (env : StartEnv)
  | vaonRise
  deriving DecidableEq, Repr

end Sys2Proof
end

