-- ==== Sys2Proof/Decode.lean ====
section
/-!
DEFINITION. The word form of commands. No row of spec/opcode_table.json gives bits, so no word spells a command
(log 15).
-/
namespace Sys2Proof

/-- The command that a word spells by the table's bits: none, as no row has bits. -/
def decodeTableWord (_nbits _w : Nat) : Option Instr := none

end Sys2Proof
end

