-- ==== Sys2Proof/Machine/Bits.lean ====
section
/-!
DEFINITION. Bytes and fields: least significant byte first (R5), cutting and building fields, and the checksums that
structures on tape, in messages and in records carry (R43, R45, R205).
-/
namespace Sys2Proof.Machine

/-- `n` bytes of a number, least significant first (R5). -/
def leBytes : Nat → Nat → List Byte
  | 0, _ => []
  | n + 1, v => BitVec.ofNat 8 v :: leBytes n (v / 256)

/-- The number that bytes spell, least significant first (R5). -/
def ofLe : List Byte → Nat
  | [] => 0
  | b :: bs => b.toNat + 256 * ofLe bs

/-- `len` bytes from offset `off` as a number, least significant first. -/
def fieldAt (bs : List Byte) (off len : Nat) : Nat := ofLe ((bs.drop off).take len)

/-- The bytes with at least `n` of them, zeros added at the end. -/
def padTo (n : Nat) (bs : List Byte) : List Byte := bs ++ List.replicate (n - bs.length) 0

/-- Exactly `n` bytes: cut, or filled with zeros. -/
def fitTo (n : Nat) (bs : List Byte) : List Byte := padTo n (bs.take n)

/-- One bit of a number. -/
def bitAt (v i : Nat) : Bool := v / 2 ^ i % 2 == 1

/-- Bits [hi:lo] of a number. -/
def bitsAt (v hi lo : Nat) : Nat := v / 2 ^ lo % 2 ^ (hi - lo + 1)

/-- 1 or 0. -/
def b2n (b : Bool) : Nat := if b then 1 else 0

/-- One step of a reflected CRC: `poly` is the reflected polynomial. -/
def crcBit (w poly c : Nat) : Nat :=
  if c % 2 = 1 then (c / 2 ^^^ poly) % 2 ^ w else c / 2

/-- Eight steps. -/
def crcByte (w poly c : Nat) (b : Byte) : Nat :=
  (List.range 8).foldl (fun c _ => crcBit w poly c) (c ^^^ b.toNat)

/-- CRC-32C (R43): polynomial 0x1EDC6F41 reflected, initial value and final XOR all ones. -/
def crc32c (bs : List Byte) : Nat :=
  bs.foldl (crcByte 32 0x82F63B78) 0xFFFFFFFF ^^^ 0xFFFFFFFF

/-- Interpret a number of `w` bits as two's complement. -/
def signed (w v : Nat) : Int :=
  if v % 2 ^ w < 2 ^ (w - 1) then (v % 2 ^ w : Nat) else ((v % 2 ^ w : Nat) : Int) - (2 ^ w : Nat)

/-- The `w`-bit two's complement code of an integer. -/
def unsigned (w : Nat) (v : Int) : Nat := (v % (2 ^ w : Nat)).toNat

/-- Saturate an integer to [lo, hi]. -/
def satInt (lo hi v : Int) : Int := if v < lo then lo else if hi < v then hi else v

/-- Clamp a natural number to [lo, hi] (lo wins when the range is empty). -/
def clampNat (lo hi v : Nat) : Nat := if v < lo then lo else if hi < v then max lo hi else v

/-- Modular comparison over 2^48 (R91, R279): `a` lies before `b`, less than 2^47 behind it. -/
def before48 (a b : Word) : Bool := a ≠ b && (b - a).toNat < 2 ^ 47

/-- `a` lies at or before `b` (R91, R279). -/
def atOrBefore48 (a b : Word) : Bool := (b - a).toNat < 2 ^ 47

/-- Replace the element at index `i`. -/
def setAt {α : Type} : List α → Nat → α → List α
  | [], _, _ => []
  | _ :: xs, 0, y => y :: xs
  | x :: xs, i + 1, y => x :: setAt xs i y

/-- Change the element at index `i`. -/
def modAt {α : Type} (f : α → α) : List α → Nat → List α
  | [], _ => []
  | x :: xs, 0 => f x :: xs
  | x :: xs, i + 1 => x :: modAt f xs i

end Sys2Proof.Machine
end

