-- ==== Sys2Proof/Machine/RegMap.lean ====
section
/-!
DEFINITION. The register map (R579, R580): every register of every block with its fields, access codes (R8), reset
values and clamping ranges, as the register tables of the chapters give them. A field with no reset value ("—")
carries the value of log entry 3.
-/
namespace Sys2Proof.Machine

/-- The access codes of R8. -/
inductive Access where
  | ro | rw | w1c | rc | wo | cfg | mnt | lop
  deriving DecidableEq, Repr

/-- One field of a register: its name, its bits [hi:lo], its access code, its reset value and, where the register's
rule clamps it on its own, the range to which it is clamped. -/
structure FieldRow where
  name  : String
  hi    : Nat
  lo    : Nat
  acc   : Access
  reset : Nat
  range : Option (Nat × Nat)
  deriving DecidableEq, Repr

/-- One register or array of registers: `dims` lists (count, stride), outermost first. -/
structure RegRow where
  name   : String
  base   : Nat
  dims   : List (Nat × Nat)
  fields : List FieldRow
  deriving DecidableEq, Repr

/-- A field that its rule does not clamp. -/
def fld (name : String) (hi lo : Nat) (acc : Access) (reset : Nat) : FieldRow :=
  ⟨name, hi, lo, acc, reset, none⟩

/-- A field clamped to [min, max]. -/
def fldIn (name : String) (hi lo : Nat) (acc : Access) (reset min max : Nat) : FieldRow :=
  ⟨name, hi, lo, acc, reset, some (min, max)⟩

/-- Registers of block GLB. -/
def rowsGlb : List RegRow := [
  -- R3
  ⟨"GLB.IDENT", 0x000000, [], [fld "PART" 47 32 .ro 0x4860,
    fld "FAMILY" 31 28 .ro 0x1,
    fld "TEMP_GRADE" 27 24 .ro 0x0,
    fld "STEP_LETTER" 23 20 .ro 0x2,
    fld "STEP_DIGIT" 19 16 .ro 0x1,
    fld "FORMATS" 15 0 .ro 0x1]⟩,
  -- R26
  ⟨"GLB.STATE", 0x000001, [], [fld "STATE_CHANGES" 47 16 .ro 0x0,
    fld "MAINT_HELD" 14 14 .ro 0x0,
    fld "MAINT_CONN" 13 8 .ro 0x0,
    fld "PREV_STATE" 6 4 .ro 0x0,
    fld "STATE" 2 0 .ro 0x0]⟩,
  -- R497
  ⟨"GLB.BOOT", 0x000002, [], [fld "ATTEMPT" 47 40 .ro 0x0,
    fld "BACKOFF_S" 39 32 .ro 0x0,
    fld "RETRY_HELD" 31 31 .ro 0x0,
    fld "START_CAUSE" 30 28 .ro 0x0,
    fld "FAIL_A" 27 24 .ro 0x0,
    fld "FAIL_B" 23 20 .ro 0x0,
    fld "NOR_MODE" 9 8 .ro 0x0,
    fld "PREF" 4 4 .ro 0x0,
    fld "FALLBACK" 3 3 .ro 0x0,
    fld "RUNNING" 2 2 .ro 0x0,
    fld "SLOT" 0 0 .ro 0x0]⟩,
  -- R497
  ⟨"GLB.IMAGE", 0x000003, [], [fld "VERSION" 31 0 .ro 0x0]⟩,
  -- R499
  ⟨"GLB.BOOT_CTRL", 0x000004, [], [fld "SET_PREF" 2 2 .wo 0x0,
    fld "PREF_VAL" 1 1 .wo 0x0,
    fld "RETRY_NOW" 0 0 .wo 0x0]⟩,
  -- R499
  ⟨"GLB.STANDBY", 0x000005, [], [fld "REQ" 47 47 .wo 0x0,
    fld "RAIL_MS" 39 32 .cfg 0xA,
    fld "WAKE_S" 31 16 .cfg 0x0,
    fld "WAKE_CART" 1 1 .cfg 0x1,
    fld "WAKE_PIN" 0 0 .cfg 0x1]⟩,
  -- R500
  ⟨"GLB.NOR_CTRL", 0x000008, [], [fld "GO" 47 47 .wo 0x0,
    fld "DONE" 46 46 .rc 0x0,
    fld "ERR" 45 45 .ro 0x0,
    fld "OP" 44 42 .rw 0x0,
    fld "ADDR" 31 0 .rw 0x0]⟩,
  -- R536
  ⟨"GLB.FAULT", 0x000010, [], [fld "CAL_LOST" 8 8 .w1c 0x0,
    fld "RAIL" 7 7 .w1c 0x0,
    fld "THERMAL" 6 6 .w1c 0x0,
    fld "COBBLER" 5 5 .w1c 0x0,
    fld "MEMORY" 4 4 .w1c 0x0,
    fld "LOOP" 3 3 .w1c 0x0,
    fld "MOTOR" 2 2 .w1c 0x0,
    fld "HFM" 1 1 .w1c 0x0,
    fld "DEAD_LIMIT" 0 0 .w1c 0x0]⟩,
  -- R536
  ⟨"GLB.COBBLER", 0x000012, [], [fld "RESTARTS" 47 32 .ro 0x0,
    fld "MGMT_QUEUE" 28 24 .ro 0x0,
    fld "RESTARTING" 1 1 .ro 0x0,
    fld "KICK" 0 0 .wo 0x0]⟩,
  -- R536
  ⟨"GLB.THERMAL", 0x000013, [], [fldIn "TJ_WARN" 47 40 .cfg 0x64 60 110,
    fld "TJ_CRIT" 39 32 .cfg 0x6E,
    fld "HOT_SENSOR" 29 27 .ro 0x0,
    fld "TRIP_SEEN" 26 26 .w1c 0x0,
    fld "CRIT_SEEN" 25 25 .w1c 0x0,
    fld "WARN_SEEN" 24 24 .w1c 0x0,
    fld "TJ_NOW" 11 0 .ro 0x0]⟩,
  -- R537
  ⟨"GLB.RAIL", 0x000018, [(8, 1)], [fld "HIGH_SEEN" 17 17 .w1c 0x0,
    fld "LOW_SEEN" 16 16 .w1c 0x0,
    fld "MV" 15 0 .ro 0x0]⟩,
  -- R537
  ⟨"GLB.HFM_TEMP", 0x000020, [(8, 1)], [fld "VALID" 10 10 .ro 0x0,
    fld "TEMP" 9 0 .ro 0x0]⟩,
  -- R500
  ⟨"GLB.NOR_BUF", 0x000040, [(64, 1)], [fld "DATA" 31 0 .rw 0x0]⟩]

/-- Registers of block POS. -/
def rowsPos : List RegRow := [
  -- R87
  ⟨"POS.STATUS", 0x010000, [], [fld "CORRECTED" 26 26 .w1c 0x0,
    fld "UNCERTAIN_SEEN" 25 25 .w1c 0x0,
    fld "LOST_SEEN" 24 24 .w1c 0x0,
    fld "MISS_UPPER" 23 16 .ro 0x0,
    fld "MISS_LOWER" 15 8 .ro 0x0,
    fld "WRITE_GATE" 6 6 .ro 0x0,
    fld "DIR" 5 5 .ro 0x0,
    fld "ACTIVE_BAND" 4 4 .ro 0x0,
    fld "UNCERTAIN" 3 3 .ro 0x0,
    fld "MODE" 2 0 .ro 0x0]⟩,
  -- R88
  ⟨"POS.TPOS", 0x010001, [], [fld "TPOS" 47 0 .ro 0x0]⟩,
  -- R72
  ⟨"POS.PLL_CFG", 0x010002, [], [fld "ACC_FF" 16 16 .cfg 0x1,
    fldIn "DAMP" 15 8 .cfg 0x2D 32 96,
    fldIn "BW" 7 0 .cfg 0x10 4 82]⟩,
  -- R77
  ⟨"POS.BAND_SKEW", 0x010003, [], [fld "SKEW_VALID" 16 16 .ro 0x0,
    fld "SKEW" 15 0 .ro 0x0]⟩,
  -- R65
  ⟨"POS.LAT", 0x010004, [(2, 1)], [fld "WORD_BIT" 41 41 .ro 0x0,
    fld "VALID" 40 40 .ro 0x0,
    fld "FRAME" 39 24 .ro 0x0,
    fld "OFFSET" 23 0 .ro 0x0]⟩,
  -- R90
  ⟨"POS.TIME", 0x010006, [], [fld "TIME" 47 0 .ro 0x0]⟩,
  -- R89
  ⟨"POS.CNT_SPURIOUS", 0x010010, [(2, 1)], [fld "VALUE" 47 0 .ro 0x0]⟩,
  -- R89
  ⟨"POS.CNT_FLYWHEEL", 0x010012, [], [fld "VALUE" 47 0 .ro 0x0]⟩,
  -- R89
  ⟨"POS.CNT_SWITCH", 0x010013, [], [fld "VALUE" 47 0 .ro 0x0]⟩,
  -- R89
  ⟨"POS.CNT_UNCERTAIN", 0x010014, [], [fld "VALUE" 47 0 .ro 0x0]⟩,
  -- R89
  ⟨"POS.CNT_LOST", 0x010015, [], [fld "VALUE" 47 0 .ro 0x0]⟩,
  -- R89
  ⟨"POS.CNT_CORRECT", 0x010016, [], [fld "VALUE" 47 0 .ro 0x0]⟩,
  -- R89
  ⟨"POS.CNT_WORD_ERR", 0x010017, [], [fld "VALUE" 47 0 .ro 0x0]⟩,
  -- R89
  ⟨"POS.CNT_WORD_MISMATCH", 0x010018, [], [fld "VALUE" 47 0 .ro 0x0]⟩,
  -- R89
  ⟨"POS.CNT_LATE", 0x010019, [], [fld "VALUE" 47 0 .ro 0x0]⟩,
  -- R89
  ⟨"POS.CNT_ABORT", 0x01001A, [], [fld "VALUE" 47 0 .ro 0x0]⟩,
  -- R89
  ⟨"POS.CNT_PROVISIONAL", 0x01001B, [], [fld "VALUE" 47 0 .ro 0x0]⟩,
  -- R89
  ⟨"POS.CNT_SIGNATURE", 0x01001C, [], [fld "VALUE" 47 0 .ro 0x0]⟩]

/-- Registers of block WCH. -/
def rowsWch : List RegRow := [
  -- R107
  ⟨"WCH.CTRL", 0x020000, [], [fld "PRECOMP_EN" 8 8 .mnt 0x1,
    fldIn "SWING" 7 0 .cfg 0x32 0 100]⟩,
  -- R108
  ⟨"WCH.CH_EN", 0x020010, [(8, 1)], [fld "EN" 31 0 .cfg 0xFFFFFFFF]⟩,
  -- R109
  ⟨"WCH.GROUP_DLY", 0x020020, [(8, 1)], [fld "DLY" 7 0 .mnt 0x0]⟩,
  -- R131
  ⟨"WCH.CNT_UNDERRUN", 0x020030, [], [fld "VALUE" 47 0 .ro 0x0]⟩,
  -- R131
  ⟨"WCH.CNT_HFM_CRC", 0x020031, [], [fld "VALUE" 47 0 .ro 0x0]⟩,
  -- R131
  ⟨"WCH.CNT_HFM_FAULT", 0x020032, [], [fld "VALUE" 47 0 .ro 0x0]⟩,
  -- R137
  ⟨"WCH.HFM_TX", 0x020040, [], [fld "GO" 43 43 .wo 0x0,
    fld "MODULE" 42 40 .mnt 0x0,
    fld "RD" 39 39 .mnt 0x0,
    fld "ADDR" 31 24 .mnt 0x0,
    fld "DATA" 23 8 .mnt 0x0]⟩,
  -- R137
  ⟨"WCH.HFM_RX", 0x020041, [], [fld "DONE" 41 41 .rc 0x0,
    fld "CRC_ERR" 40 40 .ro 0x0,
    fld "FLAGS" 39 32 .ro 0x0,
    fld "ADDR" 31 24 .ro 0x0,
    fld "DATA" 23 8 .ro 0x0]⟩,
  -- R110
  ⟨"WCH.PRECOMP", 0x020100, [(256, 1)], [fld "FINE_DLY" 41 36 .mnt 0x0,
    fld "P3Q2" 35 30 .mnt 0x0,
    fld "P3Q1" 29 24 .mnt 0x0,
    fld "P2Q2" 23 18 .mnt 0x0,
    fld "P2Q1" 17 12 .mnt 0x0,
    fld "P1Q2" 11 6 .mnt 0x0,
    fld "P1Q1" 5 0 .mnt 0x0]⟩]

/-- Registers of block RCH. -/
def rowsRch : List RegRow := [
  -- R126
  ⟨"RCH.CTRL", 0x030000, [], [fld "MOD_LLR" 23 16 .cfg 0xC,
    fld "ADAPT_MU" 15 12 .mnt 0x4,
    fld "ADAPT_EN" 11 11 .mnt 0x1,
    fld "EQ_MAIN" 7 4 .mnt 0x4]⟩,
  -- R127
  ⟨"RCH.TARGET", 0x030001, [], [fld "G4" 39 32 .mnt 0xF6,
    fld "G3" 31 24 .mnt 0xEC,
    fld "G2" 23 16 .mnt 0x0,
    fld "G1" 15 8 .mnt 0x14,
    fld "G0" 7 0 .mnt 0xA]⟩,
  -- R128
  ⟨"RCH.DEFECT", 0x030002, [], [fld "MAX_PTR" 27 24 .mnt 0x8,
    fld "MARGIN" 23 16 .mnt 0x10,
    fld "CLIP_COUNT" 15 12 .mnt 0x4,
    fld "DROP_LEN" 11 4 .mnt 0x8,
    fld "DROP_TH" 3 0 .mnt 0x8]⟩,
  -- R129
  ⟨"RCH.RETAIN", 0x030003, [], [fld "PIN_VALID" 44 44 .ro 0x0,
    fld "PIN_SLOT" 43 24 .ro 0x0,
    fld "LATEST_SLOT" 23 4 .ro 0x0,
    fld "TEST_LOAD" 3 3 .mnt 0x0]⟩,
  -- R129
  ⟨"RCH.WELT", 0x030004, [], [fld "VALID" 41 41 .ro 0x0,
    fld "CONTRIB" 40 32 .ro 0x0,
    fld "EYELET_LO" 31 16 .ro 0x0,
    fld "MEAN" 15 0 .ro 0x0]⟩,
  -- R131
  ⟨"RCH.CNT_DEFECT", 0x030010, [], [fld "VALUE" 47 0 .ro 0x0]⟩,
  -- R131
  ⟨"RCH.CNT_SYNC_MISS", 0x030011, [], [fld "VALUE" 47 0 .ro 0x0]⟩,
  -- R131
  ⟨"RCH.CNT_TIMING_LOST", 0x030012, [], [fld "VALUE" 47 0 .ro 0x0]⟩,
  -- R131
  ⟨"RCH.CNT_MOD_INVALID", 0x030013, [], [fld "VALUE" 47 0 .ro 0x0]⟩,
  -- R131
  ⟨"RCH.CNT_CLIP", 0x030014, [], [fld "VALUE" 47 0 .ro 0x0]⟩,
  -- R131
  ⟨"RCH.CNT_PIN_REFUSED", 0x030015, [], [fld "VALUE" 47 0 .ro 0x0]⟩,
  -- R109
  ⟨"RCH.GROUP_DLY", 0x030020, [(8, 1)], [fld "DLY" 7 0 .mnt 0x0]⟩,
  -- R130
  ⟨"RCH.AFE", 0x030100, [(256, 1)], [fld "PHASE" 31 24 .mnt 0x0,
    fld "VGA_INIT" 23 16 .mnt 0x60,
    fld "CTLE_BOOST" 15 12 .mnt 0x6,
    fld "CTLE_ZERO" 11 8 .mnt 0x7]⟩,
  -- R130
  ⟨"RCH.LIVE", 0x030200, [(256, 1)], [fld "PHASE_NOW" 31 24 .ro 0x0,
    fld "VGA_NOW" 23 16 .ro 0x0,
    fld "SYNC_MISS_SEEN" 2 2 .w1c 0x0,
    fld "TIMING_LOST_SEEN" 1 1 .w1c 0x0,
    fld "DEFECT_SEEN" 0 0 .w1c 0x0]⟩,
  -- R130
  ⟨"RCH.EQ_TAP[0:3]", 0x031000, [(256, 16), (4, 1)], [fld "COEF" 11 0 .mnt 0x0]⟩,
  -- R130
  ⟨"RCH.EQ_TAP[4]", 0x031004, [(256, 16)], [fld "COEF" 11 0 .mnt 0x100]⟩,
  -- R130
  ⟨"RCH.EQ_TAP[5:9]", 0x031005, [(256, 16), (5, 1)], [fld "COEF" 11 0 .mnt 0x0]⟩]

/-- Registers of block ECC. -/
def rowsEcc : List RegRow := [
  -- R164
  ⟨"ECC.C1_CFG", 0x040000, [], [fldIn "NORM" 19 16 .mnt 0x6 4 8,
    fldIn "ITER_RETRY" 15 8 .mnt 0x32 16 100,
    fldIn "ITER_MAX" 4 0 .mnt 0xC 4 16]⟩,
  -- R165
  ⟨"ECC.C2_CFG", 0x040001, [], [fldIn "T_MAX" 3 0 .mnt 0x8 0 8]⟩,
  -- R165
  ⟨"ECC.LADDER", 0x040002, [], [fldIn "RETRY_CW" 39 32 .mnt 0x40 1 255,
    fldIn "OFFSET" 31 24 .mnt 0x32 0 150,
    fldIn "REREADS" 19 16 .mnt 0x3 0 8,
    fld "STEP_EN" 5 0 .mnt 0x3F]⟩,
  -- R166
  ⟨"ECC.STATUS", 0x040003, [], [fld "ACC_ERR" 34 34 .w1c 0x0,
    fld "ACC_OPEN" 33 33 .ro 0x0,
    fld "LADDER_BUSY" 32 32 .ro 0x0,
    fld "LADDER_STEP" 31 29 .ro 0x0,
    fld "ACC_FOLDED" 21 16 .ro 0x0,
    fld "ACC_GROUP" 13 0 .ro 0x0]⟩,
  -- R166
  ⟨"ECC.LAST_FAIL", 0x040004, [], [fld "CLASS" 42 40 .ro 0x0,
    fld "INDEX" 39 34 .ro 0x0,
    fld "GROUP" 33 20 .ro 0x0,
    fld "SLOT" 19 0 .ro 0x0]⟩,
  -- R167
  ⟨"ECC.CNT_C1_CW", 0x040010, [], [fld "VALUE" 47 0 .ro 0x0]⟩,
  -- R167
  ⟨"ECC.CNT_C1_ITER", 0x040011, [], [fld "VALUE" 47 0 .ro 0x0]⟩,
  -- R167
  ⟨"ECC.CNT_C1_FAIL", 0x040012, [], [fld "VALUE" 47 0 .ro 0x0]⟩,
  -- R167
  ⟨"ECC.CNT_C2_SYM", 0x040013, [], [fld "VALUE" 47 0 .ro 0x0]⟩,
  -- R167
  ⟨"ECC.CNT_C2_FAIL", 0x040014, [], [fld "VALUE" 47 0 .ro 0x0]⟩,
  -- R167
  ⟨"ECC.CNT_C3_DECODE", 0x040015, [], [fld "VALUE" 47 0 .ro 0x0]⟩,
  -- R167
  ⟨"ECC.CNT_LADDER", 0x040016, [], [fld "VALUE" 47 0 .ro 0x0]⟩,
  -- R167
  ⟨"ECC.CNT_UNRECOVERED", 0x040017, [], [fld "VALUE" 47 0 .ro 0x0]⟩,
  -- R167
  ⟨"ECC.CNT_MISCORRECT", 0x040018, [], [fld "VALUE" 47 0 .ro 0x0]⟩,
  -- R167
  ⟨"ECC.CNT_ACC_ERR", 0x040019, [], [fld "VALUE" 47 0 .ro 0x0]⟩]

/-- Registers of block VFY. -/
def rowsVfy : List RegRow := [
  -- R183
  ⟨"VFY.CFG", 0x050000, [], [fld "SYNC_MIN" 47 40 .cfg 0xF0,
    fldIn "DEAD_RUN" 35 32 .cfg 0x4 2 15,
    fldIn "DEAD_MAX" 31 28 .cfg 0x4 0 8,
    fldIn "BAD_MAX" 27 24 .cfg 0x6 1 12,
    fldIn "MARGIN_MAX" 23 19 .cfg 0xA 1 16,
    fldIn "WEAK_FLIP" 15 8 .cfg 0x60 8 255,
    fldIn "WEAK_ITER" 4 0 .cfg 0x6 1 16]⟩,
  -- R184
  ⟨"VFY.STATUS", 0x050001, [], [fld "DEAD_LIMIT_SEEN" 16 16 .w1c 0x0,
    fld "PENDING" 11 8 .ro 0x0,
    fld "DEAD_COUNT" 7 0 .ro 0x0]⟩,
  -- R184
  ⟨"VFY.LAST", 0x050002, [], [fld "WRITE_PROV" 47 47 .ro 0x0,
    fld "READ_PROV" 46 46 .ro 0x0,
    fld "REASON" 45 42 .ro 0x0,
    fld "COPY" 41 38 .ro 0x0,
    fld "E_MAX" 35 28 .ro 0x0,
    fld "EW_MAX" 27 20 .ro 0x0,
    fld "SLOT" 19 0 .ro 0x0]⟩,
  -- R185
  ⟨"VFY.DEAD", 0x050010, [(8, 1)], [fld "DEAD" 31 0 .ro 0x0]⟩,
  -- R186
  ⟨"VFY.CNT_DS", 0x050020, [], [fld "VALUE" 47 0 .ro 0x0]⟩,
  -- R186
  ⟨"VFY.CNT_FAIL", 0x050021, [], [fld "VALUE" 47 0 .ro 0x0]⟩,
  -- R186
  ⟨"VFY.CNT_REWRITE", 0x050022, [], [fld "VALUE" 47 0 .ro 0x0]⟩,
  -- R186
  ⟨"VFY.CNT_SUPERSEDED", 0x050023, [], [fld "VALUE" 47 0 .ro 0x0]⟩,
  -- R186
  ⟨"VFY.CNT_WEAK_CW", 0x050024, [], [fld "VALUE" 47 0 .ro 0x0]⟩,
  -- R186
  ⟨"VFY.CNT_BAD_CW", 0x050025, [], [fld "VALUE" 47 0 .ro 0x0]⟩,
  -- R186
  ⟨"VFY.CNT_DEAD", 0x050026, [], [fld "VALUE" 47 0 .ro 0x0]⟩,
  -- R186
  ⟨"VFY.CNT_PROV_FAIL", 0x050027, [], [fld "VALUE" 47 0 .ro 0x0]⟩]

/-- Registers of block CMP. -/
def rowsCmp : List RegRow := [
  -- R210
  ⟨"CMP.CFG", 0x060000, [], [fldIn "RATIO_MAX" 39 28 .cfg 0x40 8 4095,
    fld "CHAIN_CLICKS" 27 20 .cfg 0x10,
    fld "IDLE_CUT" 19 12 .cfg 0xA,
    fld "LEVEL" 9 8 .cfg 0x2,
    fld "CHECK_EN" 0 0 .mnt 0x1]⟩,
  -- R211
  ⟨"CMP.STATUS", 0x060001, [], [fld "GUARD_SEEN" 33 33 .w1c 0x0,
    fld "CHECK_SEEN" 32 32 .w1c 0x0,
    fld "ENG_OUT" 31 16 .ro 0x0,
    fld "ENG_BUSY" 15 0 .ro 0x0]⟩,
  -- R212
  ⟨"CMP.ENGINE", 0x060010, [(16, 1)], [fld "MODE" 47 47 .ro 0x0,
    fld "BOUND" 46 46 .ro 0x0,
    fld "STREAM" 39 24 .ro 0x0,
    fld "CHAIN_POS" 23 16 .ro 0x0]⟩,
  -- R213
  ⟨"CMP.CNT_IN_BYTES", 0x060020, [], [fld "VALUE" 47 0 .ro 0x0]⟩,
  -- R213
  ⟨"CMP.CNT_OUT_BYTES", 0x060021, [], [fld "VALUE" 47 0 .ro 0x0]⟩,
  -- R213
  ⟨"CMP.CNT_CLICKS", 0x060022, [], [fld "VALUE" 47 0 .ro 0x0]⟩,
  -- R213
  ⟨"CMP.CNT_RAW", 0x060023, [], [fld "VALUE" 47 0 .ro 0x0]⟩,
  -- R213
  ⟨"CMP.CNT_RECODE", 0x060024, [], [fld "VALUE" 47 0 .ro 0x0]⟩,
  -- R213
  ⟨"CMP.CNT_CHECK_FAIL", 0x060025, [], [fld "VALUE" 47 0 .ro 0x0]⟩,
  -- R213
  ⟨"CMP.CNT_DEC_BYTES", 0x060026, [], [fld "VALUE" 47 0 .ro 0x0]⟩,
  -- R213
  ⟨"CMP.CNT_CRC_FAIL", 0x060027, [], [fld "VALUE" 47 0 .ro 0x0]⟩,
  -- R213
  ⟨"CMP.CNT_GUARD", 0x060028, [], [fld "VALUE" 47 0 .ro 0x0]⟩,
  -- R213
  ⟨"CMP.CNT_RATIO", 0x060029, [], [fld "VALUE" 47 0 .ro 0x0]⟩,
  -- R213
  ⟨"CMP.CNT_HIST_LOAD", 0x06002A, [], [fld "VALUE" 47 0 .ro 0x0]⟩,
  -- R213
  ⟨"CMP.CNT_SRAM_ERR", 0x06002B, [], [fld "VALUE" 47 0 .ro 0x0]⟩,
  -- R213
  ⟨"CMP.CNT_JOB_WAIT", 0x06002C, [], [fld "VALUE" 47 0 .ro 0x0]⟩]

/-- Registers of block PLC. -/
def rowsPlc : List RegRow := [
  -- R253
  ⟨"PLC.CFG", 0x070000, [], [fldIn "OPEN_MAX" 47 36 .cfg 0x400 256 4095,
    fldIn "RESUME_DS" 35 28 .cfg 0x20 4 255,
    fld "SESSION_IDLE" 27 20 .cfg 0x3C,
    fld "AFF_SKEW" 19 12 .cfg 0x10,
    fldIn "COMMIT_LAG" 11 8 .cfg 0x4 1 8,
    fld "EARLY_WARN" 7 0 .cfg 0xA]⟩,
  -- R253
  ⟨"PLC.SPEED_CFG", 0x070001, [], [fld "BL_HI" 39 32 .cfg 0x40,
    fld "BL_LO" 31 24 .cfg 0x8,
    fldIn "WINDOW" 23 16 .cfg 0xA 1 255,
    fldIn "V_MAX" 15 8 .cfg 0x64 20 100,
    fld "V_MIN" 7 0 .cfg 0x14]⟩,
  -- R254
  ⟨"PLC.STATUS", 0x070002, [], [fld "SPEED_TGT" 47 40 .ro 0x0,
    fld "UNMERGED" 39 36 .ro 0x0,
    fld "HOLD" 35 35 .ro 0x0,
    fld "SESSION" 34 34 .ro 0x0,
    fld "SCAN" 33 33 .ro 0x0,
    fld "EW_SEEN" 32 32 .w1c 0x0,
    fld "OPEN" 28 16 .ro 0x0,
    fld "CTX_USED" 8 0 .ro 0x0]⟩,
  -- R254
  ⟨"PLC.SESSION", 0x070003, [], [fld "WRAP" 39 32 .ro 0x0,
    fld "GENERATION" 31 0 .ro 0x0]⟩,
  -- R254
  ⟨"PLC.GEN_CEIL", 0x070004, [], [fld "GEN_CEIL" 31 0 .ro 0x0]⟩,
  -- R254
  ⟨"PLC.CAPACITY", 0x070005, [], [fld "REMAIN_DS" 27 0 .ro 0x0]⟩,
  -- R255
  ⟨"PLC.CNT_SPILL", 0x070010, [], [fld "VALUE" 47 0 .ro 0x0]⟩,
  -- R255
  ⟨"PLC.CNT_RESTORE", 0x070011, [], [fld "VALUE" 47 0 .ro 0x0]⟩,
  -- R255
  ⟨"PLC.CNT_CLICKS", 0x070012, [], [fld "VALUE" 47 0 .ro 0x0]⟩,
  -- R255
  ⟨"PLC.CNT_REPLACED", 0x070013, [], [fld "VALUE" 47 0 .ro 0x0]⟩,
  -- R255
  ⟨"PLC.CNT_HOLD", 0x070014, [], [fld "VALUE" 47 0 .ro 0x0]⟩,
  -- R255
  ⟨"PLC.CNT_SPEED", 0x070015, [], [fld "VALUE" 47 0 .ro 0x0]⟩,
  -- R255
  ⟨"PLC.CNT_COMMIT", 0x070016, [], [fld "VALUE" 47 0 .ro 0x0]⟩,
  -- R255
  ⟨"PLC.CNT_ZONE", 0x070017, [], [fld "VALUE" 47 0 .ro 0x0]⟩,
  -- R255
  ⟨"PLC.CNT_SCAN", 0x070018, [], [fld "VALUE" 47 0 .ro 0x0]⟩,
  -- R255
  ⟨"PLC.CNT_RESERVE", 0x070019, [], [fld "VALUE" 47 0 .ro 0x0]⟩]

/-- Registers of block HPT. -/
def rowsHpt : List RegRow := [
  -- R292
  ⟨"HPT.PORT_CFG", 0x080000, [], [fldIn "MTU" 39 26 .cfg 0x23EA 1280 9194,
    fld "VID" 23 12 .cfg 0x0,
    fld "VLAN_EN" 11 11 .cfg 0x0,
    fld "LT_EN" 10 10 .cfg 0x1,
    fld "AN_EN" 9 9 .cfg 0x1,
    fld "PORT_EN" 7 4 .cfg 0xF,
    fld "MODE" 1 0 .cfg 0x0]⟩,
  -- R292
  ⟨"HPT.RRT_CFG", 0x080001, [], [fld "UDP_PORT" 47 32 .cfg 0xC2C4,
    fldIn "CREDIT_BASE" 31 22 .cfg 0x100 16 1023,
    fldIn "CREDIT_EW1" 21 16 .cfg 0x10 2 63,
    fldIn "RETRY_MAX" 15 12 .cfg 0xC 4 15,
    fld "ACK_DELAY" 7 0 .cfg 0x14]⟩,
  -- R293
  ⟨"HPT.TMR_CFG", 0x080002, [], [fldIn "RTO_MIN" 39 28 .cfg 0xC8 50 4095,
    fldIn "RTO_MAX" 27 20 .cfg 0x64 10 255,
    fldIn "KEEPALIVE_S" 19 12 .cfg 0xA 1 255,
    fld "ORPHAN_S" 11 0 .cfg 0x3C]⟩,
  -- R293
  ⟨"HPT.CLASS_MAP", 0x080003, [], [fld "PCP_CTRL" 17 15 .cfg 0x6,
    fld "PCP_URGENT" 14 12 .cfg 0x5,
    fld "PCP_C0" 11 9 .cfg 0x4,
    fld "PCP_C1" 8 6 .cfg 0x3,
    fld "PCP_C2" 5 3 .cfg 0x2,
    fld "PCP_C3" 2 0 .cfg 0x1]⟩,
  -- R293
  ⟨"HPT.PFC_CFG", 0x080004, [], [fldIn "XOFF_KIB" 23 16 .cfg 0x60 16 120,
    fld "XON_KIB" 15 8 .cfg 0x40,
    fld "PFC_EN" 7 0 .cfg 0x0]⟩,
  -- R294
  ⟨"HPT.MAC_ADDR", 0x080010, [(4, 1)], [fld "ADDR" 47 0 .cfg 0x0]⟩,
  -- R295
  ⟨"HPT.IP_ADDR w0", 0x080020, [(4, 4)], [fld "A_LO" 47 0 .cfg 0x0]⟩,
  -- R295
  ⟨"HPT.IP_ADDR w1", 0x080021, [(4, 4)], [fld "A_MID" 47 0 .cfg 0x0]⟩,
  -- R295
  ⟨"HPT.IP_ADDR w2", 0x080022, [(4, 4)], [fld "EN" 40 40 .cfg 0x0,
    fld "PLEN" 39 32 .cfg 0x40,
    fld "A_HI" 31 0 .cfg 0x0]⟩,
  -- R295
  ⟨"HPT.ROUTER w0", 0x080030, [], [fld "A_LO" 47 0 .cfg 0x0]⟩,
  -- R295
  ⟨"HPT.ROUTER w1", 0x080031, [], [fld "A_MID" 47 0 .cfg 0x0]⟩,
  -- R295
  ⟨"HPT.ROUTER w2", 0x080032, [], [fld "EN" 40 40 .cfg 0x0,
    fld "PLEN" 39 32 .cfg 0x40,
    fld "A_HI" 31 0 .cfg 0x0]⟩,
  -- R296
  ⟨"HPT.PORT_STATUS", 0x080040, [(4, 1)], [fld "PFC_STORM_SEEN" 8 8 .w1c 0x0,
    fld "DAD_FAIL_SEEN" 7 7 .w1c 0x0,
    fld "FEC_UNCORR_SEEN" 6 6 .w1c 0x0,
    fld "LINK_DOWN_SEEN" 5 5 .w1c 0x0,
    fld "PFC_XOFF" 4 4 .ro 0x0,
    fld "PFC_PAUSED" 3 3 .ro 0x0,
    fld "ADDR_OK" 2 2 .ro 0x0,
    fld "AN_DONE" 1 1 .ro 0x0,
    fld "LINK_UP" 0 0 .ro 0x0]⟩,
  -- R296
  ⟨"HPT.CONN", 0x080100, [(64, 1)], [fld "STATE" 47 45 .ro 0x0,
    fld "PORT" 44 43 .ro 0x0,
    fld "HOST_CONN" 42 27 .ro 0x0,
    fld "PEER_CREDIT" 26 11 .ro 0x0,
    fld "IN_FLIGHT" 10 0 .ro 0x0]⟩,
  -- R297
  ⟨"HPT.CNT_RX_SEG", 0x080200, [], [fld "VALUE" 47 0 .ro 0x0]⟩,
  -- R297
  ⟨"HPT.CNT_TX_SEG", 0x080201, [], [fld "VALUE" 47 0 .ro 0x0]⟩,
  -- R297
  ⟨"HPT.CNT_RETX", 0x080202, [], [fld "VALUE" 47 0 .ro 0x0]⟩,
  -- R297
  ⟨"HPT.CNT_RTO", 0x080203, [], [fld "VALUE" 47 0 .ro 0x0]⟩,
  -- R297
  ⟨"HPT.CNT_DROP_WINDOW", 0x080204, [], [fld "VALUE" 47 0 .ro 0x0]⟩,
  -- R297
  ⟨"HPT.CNT_DROP_NOBUF", 0x080205, [], [fld "VALUE" 47 0 .ro 0x0]⟩,
  -- R297
  ⟨"HPT.CNT_DROP_FRAME", 0x080206, [], [fld "VALUE" 47 0 .ro 0x0]⟩,
  -- R297
  ⟨"HPT.CNT_RESET", 0x080207, [], [fld "VALUE" 47 0 .ro 0x0]⟩,
  -- R297
  ⟨"HPT.CNT_REFUSED", 0x080208, [], [fld "VALUE" 47 0 .ro 0x0]⟩,
  -- R297
  ⟨"HPT.CNT_ORPHAN", 0x080209, [], [fld "VALUE" 47 0 .ro 0x0]⟩,
  -- R297
  ⟨"HPT.CNT_FEC_CORR", 0x08020A, [], [fld "VALUE" 47 0 .ro 0x0]⟩,
  -- R297
  ⟨"HPT.CNT_FEC_UNCORR", 0x08020B, [], [fld "VALUE" 47 0 .ro 0x0]⟩]

/-- Registers of block CQM. -/
def rowsCqm : List RegRow := [
  -- R329
  ⟨"CQM.CFG", 0x090000, [], [fldIn "READ_DEPTH" 23 16 .cfg 0x10 1 64,
    fldIn "QUANTUM_KIB" 15 0 .cfg 0x40 4 4096]⟩,
  -- R329
  ⟨"CQM.WEIGHT", 0x090001, [], [fldIn "W3" 31 24 .cfg 0x1 1 255,
    fldIn "W2" 23 16 .cfg 0x2 1 255,
    fldIn "W1" 15 8 .cfg 0x4 1 255,
    fldIn "W0" 7 0 .cfg 0x8 1 255]⟩,
  -- R330
  ⟨"CQM.STATUS", 0x090002, [], [fld "OUTSTANDING" 45 32 .ro 0x0,
    fld "FROZEN" 31 24 .ro 0x0,
    fld "ORPHANS" 23 16 .ro 0x0,
    fld "READS" 6 0 .ro 0x0]⟩,
  -- R330
  ⟨"CQM.LOG", 0x090003, [], [fld "LAST_SEQ" 47 0 .ro 0x0]⟩,
  -- R331
  ⟨"CQM.CNT_ACCEPTED", 0x090010, [], [fld "VALUE" 47 0 .ro 0x0]⟩,
  -- R331
  ⟨"CQM.CNT_REFUSED", 0x090011, [], [fld "VALUE" 47 0 .ro 0x0]⟩,
  -- R331
  ⟨"CQM.CNT_QUEUE_FULL", 0x090012, [], [fld "VALUE" 47 0 .ro 0x0]⟩,
  -- R331
  ⟨"CQM.CNT_FREEZE", 0x090013, [], [fld "VALUE" 47 0 .ro 0x0]⟩,
  -- R331
  ⟨"CQM.CNT_DISCARDED", 0x090014, [], [fld "VALUE" 47 0 .ro 0x0]⟩,
  -- R331
  ⟨"CQM.CNT_URGENT", 0x090015, [], [fld "VALUE" 47 0 .ro 0x0]⟩,
  -- R331
  ⟨"CQM.CNT_BUSY", 0x090016, [], [fld "VALUE" 47 0 .ro 0x0]⟩,
  -- R331
  ⟨"CQM.CNT_LOG_LOST", 0x090017, [], [fld "VALUE" 47 0 .ro 0x0]⟩,
  -- R330
  ⟨"CQM.CONN", 0x090100, [(64, 1)], [fld "FROZEN" 33 33 .ro 0x0,
    fld "OUTSTANDING" 32 22 .ro 0x0,
    fld "HELD" 21 11 .ro 0x0,
    fld "CREDIT_CUT" 10 0 .ro 0x0]⟩]

/-- Registers of block BPM. -/
def rowsBpm : List RegRow := [
  -- R364
  ⟨"BPM.POOL_CFG[0]", 0x0A0000, [], [fld "EW3" 47 40 .cfg 0xF0,
    fld "EW2" 39 32 .cfg 0xE0,
    fld "EW1" 31 24 .cfg 0xC0,
    fldIn "HYST" 23 17 .cfg 0x8 1 64,
    fldIn "COUNT" 16 0 .cfg 0x4000 1024 131071]⟩,
  -- R364
  ⟨"BPM.POOL_CFG[1]", 0x0A0001, [], [fld "EW3" 47 40 .cfg 0xF0,
    fld "EW2" 39 32 .cfg 0xE0,
    fld "EW1" 31 24 .cfg 0xC0,
    fldIn "HYST" 23 17 .cfg 0x8 1 64,
    fldIn "COUNT" 16 0 .cfg 0x1000 64 131071]⟩,
  -- R364
  ⟨"BPM.POOL_CFG[2]", 0x0A0002, [], [fld "EW3" 47 40 .cfg 0xF0,
    fld "EW2" 39 32 .cfg 0xE0,
    fld "EW1" 31 24 .cfg 0xC0,
    fldIn "HYST" 23 17 .cfg 0x8 1 64,
    fldIn "COUNT" 16 0 .cfg 0x10 8 131071]⟩,
  -- R364
  ⟨"BPM.POOL_CFG[3]", 0x0A0003, [], [fld "EW3" 47 40 .cfg 0xF0,
    fld "EW2" 39 32 .cfg 0xE0,
    fld "EW1" 31 24 .cfg 0xC0,
    fldIn "HYST" 23 17 .cfg 0x8 1 64,
    fldIn "COUNT" 16 0 .cfg 0x200 128 131071]⟩,
  -- R364
  ⟨"BPM.POOL_CFG[4]", 0x0A0004, [], [fld "EW3" 47 40 .cfg 0xF0,
    fld "EW2" 39 32 .cfg 0xE0,
    fld "EW1" 31 24 .cfg 0xC0,
    fldIn "HYST" 23 17 .cfg 0x8 1 64,
    fldIn "COUNT" 16 0 .cfg 0x2000 256 131071]⟩,
  -- R364
  ⟨"BPM.POOL_STATUS", 0x0A0008, [(5, 1)], [fld "EMPTY_SEEN" 39 39 .w1c 0x0,
    fld "LEVEL" 35 34 .ro 0x0,
    fld "PEAK" 33 17 .rc 0x0,
    fld "IN_USE" 16 0 .ro 0x0]⟩,
  -- R364
  ⟨"BPM.POOL_BASE[0]", 0x0A0010, [], [fld "BASE" 39 0 .ro 0x272000000]⟩,
  -- R364
  ⟨"BPM.POOL_BASE[1]", 0x0A0011, [], [fld "BASE" 39 0 .ro 0x72000000]⟩,
  -- R364
  ⟨"BPM.POOL_BASE[2]", 0x0A0012, [], [fld "BASE" 39 0 .ro 0x70000000]⟩,
  -- R364
  ⟨"BPM.POOL_BASE[3]", 0x0A0013, [], [fld "BASE" 39 0 .ro 0x30000000]⟩,
  -- R364
  ⟨"BPM.POOL_BASE[4]", 0x0A0014, [], [fld "BASE" 39 0 .ro 0x10000000]⟩,
  -- R365
  ⟨"BPM.FW_OP", 0x0A0020, [], [fld "OP" 44 43 .wo 0x0,
    fld "OWNER" 42 40 .wo 0x0,
    fld "HANDLE" 31 0 .wo 0x0]⟩,
  -- R365
  ⟨"BPM.FW_RESULT", 0x0A0021, [], [fld "DONE" 47 47 .rc 0x0,
    fld "EMPTY" 46 46 .ro 0x0,
    fld "OWNERS" 39 32 .ro 0x0,
    fld "HANDLE" 31 0 .ro 0x0]⟩,
  -- R368
  ⟨"BPM.CNT_EMPTY", 0x0A0030, [(5, 1)], [fld "VALUE" 47 0 .ro 0x0]⟩,
  -- R368
  ⟨"BPM.CNT_RACE", 0x0A0038, [(5, 1)], [fld "VALUE" 47 0 .ro 0x0]⟩,
  -- R368
  ⟨"BPM.CNT_SHARE_REFUSED", 0x0A0040, [], [fld "VALUE" 47 0 .ro 0x0]⟩]

/-- Registers of block MEM. -/
def rowsMem : List RegRow := [
  -- R363
  ⟨"MEM.CFG", 0x0B0000, [], [fld "SCRUB_H" 23 16 .cfg 0x18,
    fld "DENSITY" 5 4 .cfg 0x0,
    fld "RANKS" 3 3 .cfg 0x0,
    fld "WIDTH" 2 2 .cfg 0x0]⟩,
  -- R363
  ⟨"MEM.STATUS", 0x0B0001, [], [fld "UE_SEEN" 25 25 .w1c 0x0,
    fld "CE_SEEN" 24 24 .w1c 0x0,
    fld "SIZE_GIB" 23 16 .ro 0x0,
    fld "REFRESH_2X" 3 3 .ro 0x0,
    fld "CH1_READY" 1 1 .ro 0x0,
    fld "CH0_READY" 0 0 .ro 0x0]⟩,
  -- R363
  ⟨"MEM.UE_ADDR", 0x0B0002, [], [fld "ADDR" 39 0 .ro 0x0]⟩,
  -- R368
  ⟨"MEM.CNT_CE", 0x0B0010, [], [fld "VALUE" 47 0 .ro 0x0]⟩,
  -- R368
  ⟨"MEM.CNT_UE", 0x0B0011, [], [fld "VALUE" 47 0 .ro 0x0]⟩,
  -- R368
  ⟨"MEM.CNT_SCRUB", 0x0B0012, [], [fld "VALUE" 47 0 .ro 0x0]⟩,
  -- R368
  ⟨"MEM.CNT_RETRAIN", 0x0B0013, [], [fld "VALUE" 47 0 .ro 0x0]⟩]

/-- Registers of block DMA. -/
def rowsDma : List RegRow := [
  -- R367
  ⟨"DMA.STATUS", 0x0C0000, [], [fld "HALT_SEEN" 16 16 .w1c 0x0,
    fld "HALTED" 15 8 .ro 0x0,
    fld "BUSY" 3 3 .ro 0x0,
    fld "CURRENT" 2 0 .ro 0x0]⟩,
  -- R367
  ⟨"DMA.CH w0", 0x0C0010, [(8, 8)], [fld "SRC_SPACE" 47 45 .rw 0x0,
    fld "SRC_ADDR" 39 0 .rw 0x0]⟩,
  -- R367
  ⟨"DMA.CH w1", 0x0C0011, [(8, 8)], [fld "DST_SPACE" 47 45 .rw 0x0,
    fld "DST_ADDR" 39 0 .rw 0x0]⟩,
  -- R367
  ⟨"DMA.CH w2", 0x0C0012, [(8, 8)], [fld "Y_M1" 31 16 .rw 0x0,
    fld "X_M1" 15 0 .rw 0x0]⟩,
  -- R367
  ⟨"DMA.CH w3", 0x0C0013, [(8, 8)], [fld "DST_STRIDE" 47 24 .rw 0x0,
    fld "SRC_STRIDE" 23 0 .rw 0x0]⟩,
  -- R367
  ⟨"DMA.CH w4", 0x0C0014, [(8, 8)], [fld "TAG" 15 8 .rw 0x0,
    fld "CRC_EN" 4 4 .rw 0x0,
    fld "CLEAR" 2 2 .wo 0x0,
    fld "STOP" 1 1 .wo 0x0,
    fld "GO" 0 0 .wo 0x0]⟩,
  -- R367
  ⟨"DMA.CH w5", 0x0C0015, [(8, 8)], [fld "BYTES_DONE" 47 8 .ro 0x0,
    fld "ERR_KIND" 7 4 .ro 0x0,
    fld "ERR_DIR" 3 3 .ro 0x0,
    fld "STATE" 2 0 .ro 0x0]⟩,
  -- R367
  ⟨"DMA.CH w6", 0x0C0016, [(8, 8)], [fld "ERR_SPACE" 42 40 .ro 0x0,
    fld "ERR_ADDR" 39 0 .ro 0x0]⟩,
  -- R367
  ⟨"DMA.CH w7", 0x0C0017, [(8, 8)], [fld "CRC" 31 0 .ro 0x0]⟩,
  -- R368
  ⟨"DMA.CNT_BYTES", 0x0C0050, [], [fld "VALUE" 47 0 .ro 0x0]⟩,
  -- R368
  ⟨"DMA.CNT_HALT", 0x0C0051, [], [fld "VALUE" 47 0 .ro 0x0]⟩]

/-- Registers of block FIF. -/
def rowsFif : List RegRow := [
  -- R366
  ⟨"FIF.STATUS", 0x0D0000, [], [fld "FAULT_SEEN" 16 16 .w1c 0x0,
    fld "LAST_ID" 11 0 .ro 0x0]⟩,
  -- R366
  ⟨"FIF.WE_WM", 0x0D0001, [], [fld "HI" 35 24 .cfg 0xE00,
    fld "LO" 23 12 .cfg 0x400,
    fld "HYST" 11 0 .cfg 0x80]⟩,
  -- R368
  ⟨"FIF.CNT_FAULT", 0x0D0010, [], [fld "VALUE" 47 0 .ro 0x0]⟩,
  -- R368
  ⟨"FIF.CNT_FC_HI", 0x0D0011, [], [fld "VALUE" 47 0 .ro 0x0]⟩]

/-- Registers of block TCE. -/
def rowsTce : List RegRow := [
  -- R398
  ⟨"TCE.STATUS", 0x0E0000, [], [fld "FAULT_SEEN" 31 31 .w1c 0x0,
    fld "REACTION" 30 28 .ro 0x0,
    fld "FAULT_KIND" 27 24 .ro 0x0,
    fld "FAULT_SLOT" 23 21 .ro 0x0,
    fld "STOPS" 9 8 .ro 0x0,
    fld "FLAGS_ANY" 7 0 .ro 0x0]⟩,
  -- R398
  ⟨"TCE.LOOP_CTRL", 0x0E0001, [], [fld "OPEN_SRC" 15 8 .rw 0x0,
    fld "CLOSED" 7 0 .mnt 0x0]⟩,
  -- R399
  ⟨"TCE.PG_LIM", 0x0E0002, [], [fldIn "JMAX" 31 24 .cfg 0x28 10 100,
    fldIn "AMAX" 23 16 .cfg 0x28 10 80,
    fldIn "VMAX" 15 8 .cfg 0x64 20 100,
    fldIn "LOC_TOL" 7 0 .cfg 0x40 1 255]⟩,
  -- R399
  ⟨"TCE.PG_STATE", 0x0E0003, [], [fld "V_CMD" 47 32 .ro 0x0,
    fld "A_CMD" 31 16 .ro 0x0,
    fld "V_TGT" 15 8 .ro 0x0,
    fld "DIR_TGT" 7 7 .ro 0x0,
    fld "WRITE_OK" 6 6 .ro 0x0,
    fld "WRITE_LIM" 5 5 .ro 0x0,
    fld "MODE" 2 0 .ro 0x0]⟩,
  -- R400
  ⟨"TCE.SUP_CFG", 0x0E0004, [], [fld "VEL_TOL" 47 40 .cfg 0xA,
    fld "LAT_TOL" 39 32 .cfg 0xF,
    fld "CRS_TOL" 31 24 .cfg 0x14,
    fld "I_TOL" 23 16 .cfg 0x20,
    fld "RAD_TOL" 15 8 .cfg 0xD,
    fldIn "INV_MAX" 7 0 .cfg 0x10 1 255]⟩,
  -- R400
  ⟨"TCE.SUP_N", 0x0E0005, [], [fldIn "VEL_N" 47 38 .cfg 0xC8 1 1023,
    fldIn "TEN_N" 37 28 .cfg 0x64 1 1023,
    fldIn "RAD_N" 27 18 .cfg 0x3E8 1 1023,
    fldIn "CRS_N" 17 8 .cfg 0x190 1 1023,
    fldIn "I_N" 7 0 .cfg 0x28 1 255]⟩,
  -- R401
  ⟨"TCE.TEN_CFG", 0x0E0006, [], [fld "THK" 47 32 .cfg 0x10CC,
    fld "TEN_HI" 31 24 .cfg 0x5A,
    fld "TEN_LO" 23 16 .cfg 0x14,
    fld "TEN_REF" 15 0 .cfg 0x3E8]⟩,
  -- R401
  ⟨"TCE.LAT_CFG", 0x0E0007, [], [fld "B3" 47 40 .cfg 0x43,
    fld "B2" 39 32 .cfg 0x2D,
    fld "B1" 31 24 .cfg 0x1E,
    fldIn "LAT_N" 23 20 .cfg 0x8 1 15,
    fld "WELT_EN" 19 19 .cfg 0x1,
    fld "VC_UM" 15 0 .cfg 0x1400]⟩,
  -- R402
  ⟨"TCE.REEL", 0x0E0008, [(2, 1)], [fld "R_HUB" 47 32 .cfg 0x898,
    fld "J" 31 16 .cfg 0x5DC,
    fld "KT" 15 0 .cfg 0x320]⟩,
  -- R402
  ⟨"TCE.WELT_CAL", 0x0E000A, [], [fld "WELT_GAIN" 47 40 .mnt 0x10,
    fld "WELT_LIM" 39 32 .mnt 0x14,
    fld "K_W" 31 16 .mnt 0xC80,
    fld "W0" 15 0 .mnt 0x0]⟩,
  -- R402
  ⟨"TCE.PACK", 0x0E000B, [(2, 1)], [fld "R_MODEL" 47 32 .ro 0x0,
    fld "L_OFS" 31 0 .ro 0x0]⟩,
  -- R405
  ⟨"TCE.CNT_SAMPLE", 0x0E0020, [(8, 1)], [fld "VALUE" 47 0 .ro 0x0]⟩,
  -- R405
  ⟨"TCE.CNT_INVALID", 0x0E0028, [(8, 1)], [fld "VALUE" 47 0 .ro 0x0]⟩,
  -- R405
  ⟨"TCE.CNT_FAULT", 0x0E0030, [], [fld "VALUE" 47 0 .ro 0x0]⟩,
  -- R405
  ⟨"TCE.CNT_STOP", 0x0E0031, [], [fld "VALUE" 47 0 .ro 0x0]⟩,
  -- R405
  ⟨"TCE.CNT_PG_TARGET", 0x0E0032, [], [fld "VALUE" 47 0 .ro 0x0]⟩,
  -- R403
  ⟨"TCE.TRACE w0", 0x0E0040, [(4, 4)], [fld "ARM" 36 36 .wo 0x0,
    fld "DECIM" 35 28 .mnt 0x1,
    fld "POST" 27 16 .mnt 0x400,
    fld "FLAG_MASK" 15 8 .mnt 0x0,
    fld "TRIG" 7 5 .mnt 0x0,
    fld "SOURCE" 3 0 .mnt 0x0]⟩,
  -- R403
  ⟨"TCE.TRACE w1", 0x0E0041, [(4, 4)], [fld "TARGET" 47 0 .mnt 0x0]⟩,
  -- R403
  ⟨"TCE.TRACE w2", 0x0E0042, [(4, 4)], [fld "TRIG_REC" 43 32 .ro 0xFFF,
    fld "RECORDS" 31 20 .ro 0x0,
    fld "STATE" 1 0 .ro 0x0]⟩,
  -- R404
  ⟨"TCE.SLOT w0", 0x0E0100, [(8, 64)], [fld "FF_EN" 1 1 .lop 0x1,
    fld "FORM" 0 0 .lop 0x0]⟩,
  -- R404
  ⟨"TCE.SLOT w1", 0x0E0101, [(8, 64)], [fld "OUT_MAX" 47 0 .lop 0x7FFFFFFFFFFF]⟩,
  -- R404
  ⟨"TCE.SLOT w2", 0x0E0102, [(8, 64)], [fld "OUT_MIN" 47 0 .lop 0x800000000000]⟩,
  -- R404
  ⟨"TCE.SLOT w3", 0x0E0103, [(8, 64)], [fld "OPEN_OUT" 47 0 .rw 0x0]⟩,
  -- R404
  ⟨"TCE.SLOT w4", 0x0E0104, [(8, 64)], [fld "FLAGS" 7 0 .w1c 0x0]⟩,
  -- R404
  ⟨"TCE.SLOT w5", 0x0E0105, [(8, 64)], [fld "LAST_OUT" 47 0 .ro 0x0]⟩,
  -- R404
  ⟨"TCE.SLOT w6", 0x0E0106, [(8, 64)], [fld "LAST_ERR" 47 0 .ro 0x0]⟩,
  -- R404
  ⟨"TCE.SLOT w7", 0x0E0107, [(8, 64)], [fld "D_MAX" 23 12 .rc 0x0,
    fld "D_LAST" 11 0 .ro 0x0]⟩,
  -- R404
  ⟨"TCE.SLOT.COEF bank 0", 0x0E0108, [(8, 64), (7, 1)], [fld "COEF" 47 0 .lop 0x0]⟩,
  -- R404
  ⟨"TCE.SLOT[0].COEF banks 1 to 3", 0x0E0110, [(3, 8), (7, 1)], [fld "COEF" 47 0 .lop 0x0]⟩]

/-- Registers of block MDR. -/
def rowsMdr : List RegRow := [
  -- R433
  ⟨"MDR.STATUS", 0x0F0000, [], [fld "BRAKE" 15 15 .ro 0x0,
    fld "MOTOR_FAULT_SEEN" 14 14 .w1c 0x0,
    fld "OC_SEEN" 13 13 .w1c 0x0,
    fld "SUM_ERR_SEEN" 12 12 .w1c 0x0,
    fld "QERR" 11 10 .w1c 0x0,
    fld "GD_FAULT" 7 4 .ro 0x0,
    fld "GD_EN" 3 0 .ro 0x0]⟩,
  -- R434
  ⟨"MDR.PWM_CFG", 0x0F0002, [(4, 1)], [fld "POL" 39 39 .cfg 0x0,
    fldIn "MIN_PULSE" 38 28 .cfg 0x64 20 2000,
    fldIn "DEAD" 27 18 .cfg 0xC8 0 1000,
    fld "OC_LIM" 17 8 .cfg 0x380,
    fldIn "OC_N" 7 4 .cfg 0x4 1 15,
    fldIn "SUM_TOL" 3 0 .cfg 0x4 1 15]⟩,
  -- R434
  ⟨"MDR.SUPPLY", 0x0F0006, [], [fld "VM_FS" 47 40 .cfg 0x50,
    fld "VM_MIN" 31 24 .cfg 0x50,
    fld "VM_MAX" 23 16 .cfg 0x78,
    fld "VM_NOW" 15 0 .ro 0x0]⟩,
  -- R435
  ⟨"MDR.MOTOR", 0x0F0008, [(2, 1)], [fldIn "POLES" 47 44 .cfg 0x4 1 15,
    fld "RS" 43 32 .cfg 0x1F4,
    fld "LS" 31 16 .cfg 0x1770,
    fld "KE" 15 0 .cfg 0x320]⟩,
  -- R435
  ⟨"MDR.OBS_CFG", 0x0F000A, [], [fld "PLAUS_TOL" 47 40 .cfg 0x33,
    fldIn "PLAUS_N" 39 32 .cfg 0x40 8 255,
    fldIn "OBS_VMIN" 31 24 .cfg 0x1E 10 50,
    fld "OBS_BW" 23 16 .cfg 0x32,
    fld "V_ALIGN" 15 8 .cfg 0x10,
    fldIn "T_ALIGN" 7 0 .cfg 0xC8 10 255]⟩,
  -- R436
  ⟨"MDR.REEL", 0x0F000B, [(2, 1)], [fld "MODE" 34 32 .ro 0x0,
    fld "SPEED" 31 16 .ro 0x0,
    fld "ANGLE" 15 0 .ro 0x0]⟩,
  -- R436
  ⟨"MDR.ST_CFG", 0x0F000D, [], [fld "ST_UM" 47 32 .cfg 0xA00,
    fld "ST_AMP" 31 24 .cfg 0x60,
    fld "ST_HOLD" 23 16 .cfg 0x30,
    fld "ST_SLEW" 15 0 .cfg 0x40]⟩,
  -- R437
  ⟨"MDR.QE_CFG[0]", 0x0F0010, [], [fld "EN" 7 7 .cfg 0x1,
    fld "QFILT" 3 0 .cfg 0x3]⟩,
  -- R437
  ⟨"MDR.QE_CFG[1]", 0x0F0011, [], [fld "EN" 7 7 .cfg 0x0,
    fld "QFILT" 3 0 .cfg 0x3]⟩,
  -- R437
  ⟨"MDR.QE_COUNT", 0x0F0012, [(2, 1)], [fld "COUNT" 47 0 .ro 0x0]⟩,
  -- R438
  ⟨"MDR.CS", 0x0F0020, [(10, 1)], [fld "RANGE" 20 20 .ro 0x0,
    fld "VALUE" 16 0 .ro 0x0]⟩,
  -- R438
  ⟨"MDR.CS_CAL", 0x0F0030, [(10, 1)], [fld "GAIN8" 31 16 .mnt 0x8000,
    fld "OFS8" 15 8 .mnt 0x0,
    fld "OFS1" 7 0 .mnt 0x0]⟩,
  -- R439
  ⟨"MDR.CNT_RANGE_SWITCH", 0x0F0040, [], [fld "VALUE" 47 0 .ro 0x0]⟩,
  -- R439
  ⟨"MDR.CNT_SUPPRESS", 0x0F0041, [], [fld "VALUE" 47 0 .ro 0x0]⟩,
  -- R439
  ⟨"MDR.CNT_OC", 0x0F0042, [], [fld "VALUE" 47 0 .ro 0x0]⟩,
  -- R439
  ⟨"MDR.CNT_GD_FAULT", 0x0F0043, [], [fld "VALUE" 47 0 .ro 0x0]⟩,
  -- R439
  ⟨"MDR.CNT_QERR", 0x0F0044, [(2, 1)], [fld "VALUE" 47 0 .ro 0x0]⟩,
  -- R439
  ⟨"MDR.CNT_IDX_CORR", 0x0F0046, [], [fld "VALUE" 47 0 .ro 0x0]⟩,
  -- R439
  ⟨"MDR.CNT_OBS_LOSS", 0x0F0047, [], [fld "VALUE" 47 0 .ro 0x0]⟩,
  -- R439
  ⟨"MDR.CNT_OBS_REACQ", 0x0F0048, [], [fld "VALUE" 47 0 .ro 0x0]⟩,
  -- R439
  ⟨"MDR.CNT_RESTART", 0x0F0049, [], [fld "VALUE" 47 0 .ro 0x0]⟩,
  -- R439
  ⟨"MDR.CNT_VLIM", 0x0F004A, [], [fld "VALUE" 47 0 .ro 0x0]⟩,
  -- R439
  ⟨"MDR.CNT_SUM_ERR", 0x0F004B, [], [fld "VALUE" 47 0 .ro 0x0]⟩]

/-- Registers of block CAS. -/
def rowsCas : List RegRow := [
  -- R465
  ⟨"CAS.CFG", 0x100000, [], [fldIn "LOSS_US" 15 8 .cfg 0xA 2 255,
    fld "RING" 2 2 .cfg 0x0,
    fld "MODE" 1 0 .cfg 0x0]⟩,
  -- R465
  ⟨"CAS.STATUS", 0x100001, [], [fld "PRESENT" 47 32 .ro 0x0,
    fld "ID" 31 28 .ro 0x0,
    fld "ROLE" 27 27 .ro 0x0,
    fld "PORT1_UP" 26 26 .ro 0x0,
    fld "PORT0_UP" 25 25 .ro 0x0,
    fld "FC_IN" 24 23 .ro 0x0,
    fld "LOSS_SEEN" 22 22 .w1c 0x0,
    fld "JOIN_SEEN" 21 21 .w1c 0x0,
    fld "WIDTH" 20 18 .ro 0x0]⟩,
  -- R466
  ⟨"CAS.MEMBER", 0x100010, [(16, 1)], [fld "LEAVE" 47 47 .wo 0x0,
    fld "STATE" 46 44 .ro 0x0,
    fld "LAT" 31 16 .ro 0x0]⟩,
  -- R467
  ⟨"CAS.CNT_NAK", 0x100020, [], [fld "VALUE" 47 0 .ro 0x0]⟩,
  -- R467
  ⟨"CAS.CNT_REWIND", 0x100021, [], [fld "VALUE" 47 0 .ro 0x0]⟩,
  -- R467
  ⟨"CAS.CNT_PORT_DOWN", 0x100022, [], [fld "VALUE" 47 0 .ro 0x0]⟩,
  -- R467
  ⟨"CAS.CNT_BEACON_MISS", 0x100023, [], [fld "VALUE" 47 0 .ro 0x0]⟩,
  -- R467
  ⟨"CAS.CNT_JOIN", 0x100024, [], [fld "VALUE" 47 0 .ro 0x0]⟩,
  -- R467
  ⟨"CAS.CNT_LEAVE", 0x100025, [], [fld "VALUE" 47 0 .ro 0x0]⟩,
  -- R467
  ⟨"CAS.CNT_LOSS", 0x100026, [], [fld "VALUE" 47 0 .ro 0x0]⟩,
  -- R467
  ⟨"CAS.CNT_FC_PAUSE", 0x100027, [], [fld "VALUE" 47 0 .ro 0x0]⟩]

/-- Registers of block SEC. -/
def rowsSec : List RegRow := [
  -- R516
  ⟨"SEC.STATUS", 0x110000, [], [fld "AMEND" 47 32 .ro 0x0,
    fld "BOOT_COUNT" 31 0 .ro 0x0]⟩,
  -- R516
  ⟨"SEC.FLAGS", 0x110001, [], [fld "NEWEST" 12 4 .ro 0x0,
    fld "RECORD_OK" 2 2 .ro 0x0,
    fld "RESTORED" 1 1 .ro 0x0,
    fld "SATURATED" 0 0 .ro 0x0]⟩,
  -- R516
  ⟨"SEC.WIN_SEL", 0x110002, [], [fld "SEL" 9 0 .rw 0x0]⟩,
  -- R516
  ⟨"SEC.WIN", 0x110100, [(86, 1)], [fld "DATA" 47 0 .ro 0x0]⟩]

/-- Registers of block CNT. -/
def rowsCnt : List RegRow := [
  -- R538
  ⟨"CNT.STATUS", 0x120000, [], [fld "BANKS" 7 6 .ro 0x0,
    fld "READOUTS" 4 0 .ro 0x0]⟩,
  -- R538
  ⟨"CNT.SNAP_SEL", 0x120001, [], [fld "ARMED" 19 17 .ro 0x0,
    fld "FOUND" 16 16 .ro 0x0,
    fld "SNAP_ID" 15 0 .rw 0x0]⟩,
  -- R539
  ⟨"CNT.CNT_WDOG", 0x120010, [], [fld "VALUE" 47 0 .ro 0x0]⟩,
  -- R539
  ⟨"CNT.CNT_SB_ERR", 0x120011, [], [fld "VALUE" 47 0 .ro 0x0]⟩,
  -- R539
  ⟨"CNT.CNT_SNAP", 0x120012, [], [fld "VALUE" 47 0 .ro 0x0]⟩,
  -- R539
  ⟨"CNT.CNT_SNAP_MISSED", 0x120013, [], [fld "VALUE" 47 0 .ro 0x0]⟩,
  -- R539
  ⟨"CNT.CNT_THERMAL", 0x120014, [], [fld "VALUE" 47 0 .ro 0x0]⟩,
  -- R528
  ⟨"CNT.CH", 0x121000, [(256, 16), (12, 1)], [fld "VALUE" 47 0 .ro 0x0]⟩,
  -- R538
  ⟨"CNT.SNAP_WIN", 0x124000, [(5768, 1)], [fld "DATA" 47 0 .ro 0x0]⟩]

/-- Registers of block PIN. -/
def rowsPin : List RegRow := [
  -- R576
  ⟨"PIN.GPIO_CFG", 0x130000, [(15, 1)], [fld "OUT" 12 12 .rw 0x0,
    fld "OD" 11 11 .mnt 0x0,
    fld "DRIVE" 10 10 .mnt 0x0,
    fldIn "PULL" 9 8 .mnt 0x1 0 2,
    fld "POL" 7 7 .mnt 0x0,
    fld "ROLE" 3 0 .mnt 0x0]⟩,
  -- R576
  ⟨"PIN.GPIO_CFG[15]", 0x13000F, [], [fld "OUT" 12 12 .rw 0x0,
    fld "OD" 11 11 .mnt 0x0,
    fld "DRIVE" 10 10 .mnt 0x0,
    fldIn "PULL" 9 8 .mnt 0x1 0 2,
    fld "POL" 7 7 .mnt 0x0,
    fld "ROLE" 3 0 .mnt 0x7]⟩,
  -- R577
  ⟨"PIN.GPIO_IN", 0x130010, [], [fld "CHANGED" 31 16 .w1c 0x0,
    fld "IN" 15 0 .ro 0x0]⟩,
  -- R577
  ⟨"PIN.TRACE", 0x130011, [], [fld "BUF" 2 1 .mnt 0x0,
    fld "EN" 0 0 .mnt 0x0]⟩,
  -- R578
  ⟨"PIN.STATUS", 0x130012, [], [fld "TRC_HIZ" 24 24 .ro 0x0,
    fld "TEST_MODE" 23 22 .ro 0x0,
    fld "SB_MODE" 21 21 .ro 0x0,
    fld "CASC_ROLE" 20 20 .ro 0x0,
    fld "CASC_ID" 19 16 .ro 0x0,
    fld "HIZ" 15 0 .ro 0x0]⟩]

/-- Registers of block CAL. -/
def rowsCal : List RegRow := [
  -- R501
  ⟨"CAL.STATUS", 0x140000, [], [fld "SELF_RUN" 41 41 .ro 0x0,
    fld "STORING" 40 40 .ro 0x0,
    fld "VALID" 39 39 .ro 0x0,
    fld "LOST" 38 38 .w1c 0x0,
    fld "SOURCE" 34 32 .ro 0x0,
    fld "SEQ" 31 0 .ro 0x0]⟩,
  -- R501
  ⟨"CAL.STORED", 0x140001, [], [fld "BOOT_COUNT" 31 0 .ro 0x0]⟩]

/-- The whole register map. -/
def regMap : List RegRow :=
  rowsGlb ++ rowsPos ++ rowsWch ++ rowsRch ++ rowsEcc ++
  rowsVfy ++ rowsCmp ++ rowsPlc ++ rowsHpt ++ rowsCqm ++
  rowsBpm ++ rowsMem ++ rowsDma ++ rowsFif ++ rowsTce ++
  rowsMdr ++ rowsCas ++ rowsSec ++ rowsCnt ++ rowsPin ++
  rowsCal

/-- Whether offset `o` lies at some index of the array dimensions. -/
def dimsHit : List (Nat × Nat) → Nat → Bool
  | [], o => o == 0
  | (count, stride) :: rest, o =>
    match rest with
    | [] => o % stride == 0 && o / stride < count
    | _ => o / stride < count && dimsHit rest (o % stride)

/-- Whether a row holds the address. -/
def RegRow.hit (r : RegRow) (a : Nat) : Bool :=
  r.base ≤ a && dimsHit r.dims (a - r.base)

/-- The row that holds an address; none where the address holds no register (R7). -/
def rowOf (a : Nat) : Option RegRow := regMap.find? (fun r => r.hit a)

/-- The value that a list of fields has at reset. -/
def resetOfFields : List FieldRow → Word
  | [] => 0
  | f :: fs => (BitVec.ofNat 48 f.reset <<< f.lo) ||| resetOfFields fs

/-- The reset value of the register at an address; 0 where there is none (R7). -/
def resetWord (a : Nat) : Word :=
  match rowOf a with
  | some r => resetOfFields r.fields
  | none => 0

/-- The mask of a field's bits. -/
def FieldRow.mask (f : FieldRow) : Word := ((1#48 <<< (f.hi - f.lo + 1)) - 1#48) <<< f.lo

end Sys2Proof.Machine
end

