-- ==== Sys2Proof/Machine/Fields.lean ====
section
/-!
DEFINITION. Names for the fields and counters of the register map: one constant per field, as the register tables name
it (R580). An array's constant stands at its element 0; `Fld.ix` moves it.
-/
namespace Sys2Proof.Machine

/-- Where a field lies: its register's address, its lowest bit and its width. -/
structure Fld where
  addr  : Nat
  lo    : Nat
  width : Nat
  deriving DecidableEq, Repr

/-- The same field of the register `k` addresses further on (an array element or a word). -/
def Fld.ix (f : Fld) (k : Nat) : Fld := ⟨f.addr + k, f.lo, f.width⟩

namespace F

def glbIdentPart : Fld := ⟨0x000000, 32, 16⟩
def glbIdentFamily : Fld := ⟨0x000000, 28, 4⟩
def glbIdentTempGrade : Fld := ⟨0x000000, 24, 4⟩
def glbIdentStepLetter : Fld := ⟨0x000000, 20, 4⟩
def glbIdentStepDigit : Fld := ⟨0x000000, 16, 4⟩
def glbIdentFormats : Fld := ⟨0x000000, 0, 16⟩
def glbStateStateChanges : Fld := ⟨0x000001, 16, 32⟩
def glbStateMaintHeld : Fld := ⟨0x000001, 14, 1⟩
def glbStateMaintConn : Fld := ⟨0x000001, 8, 6⟩
def glbStatePrevState : Fld := ⟨0x000001, 4, 3⟩
def glbStateState : Fld := ⟨0x000001, 0, 3⟩
def glbBootAttempt : Fld := ⟨0x000002, 40, 8⟩
def glbBootBackoffS : Fld := ⟨0x000002, 32, 8⟩
def glbBootRetryHeld : Fld := ⟨0x000002, 31, 1⟩
def glbBootStartCause : Fld := ⟨0x000002, 28, 3⟩
def glbBootFailA : Fld := ⟨0x000002, 24, 4⟩
def glbBootFailB : Fld := ⟨0x000002, 20, 4⟩
def glbBootNorMode : Fld := ⟨0x000002, 8, 2⟩
def glbBootPref : Fld := ⟨0x000002, 4, 1⟩
def glbBootFallback : Fld := ⟨0x000002, 3, 1⟩
def glbBootRunning : Fld := ⟨0x000002, 2, 1⟩
def glbBootSlot : Fld := ⟨0x000002, 0, 1⟩
def glbImageVersion : Fld := ⟨0x000003, 0, 32⟩
def glbBootCtrlSetPref : Fld := ⟨0x000004, 2, 1⟩
def glbBootCtrlPrefVal : Fld := ⟨0x000004, 1, 1⟩
def glbBootCtrlRetryNow : Fld := ⟨0x000004, 0, 1⟩
def glbStandbyReq : Fld := ⟨0x000005, 47, 1⟩
def glbStandbyRailMs : Fld := ⟨0x000005, 32, 8⟩
def glbStandbyWakeS : Fld := ⟨0x000005, 16, 16⟩
def glbStandbyWakeCart : Fld := ⟨0x000005, 1, 1⟩
def glbStandbyWakePin : Fld := ⟨0x000005, 0, 1⟩
def glbNorCtrlGo : Fld := ⟨0x000008, 47, 1⟩
def glbNorCtrlDone : Fld := ⟨0x000008, 46, 1⟩
def glbNorCtrlErr : Fld := ⟨0x000008, 45, 1⟩
def glbNorCtrlOp : Fld := ⟨0x000008, 42, 3⟩
def glbNorCtrlAddr : Fld := ⟨0x000008, 0, 32⟩
def glbFaultCalLost : Fld := ⟨0x000010, 8, 1⟩
def glbFaultRail : Fld := ⟨0x000010, 7, 1⟩
def glbFaultThermal : Fld := ⟨0x000010, 6, 1⟩
def glbFaultCobbler : Fld := ⟨0x000010, 5, 1⟩
def glbFaultMemory : Fld := ⟨0x000010, 4, 1⟩
def glbFaultLoop : Fld := ⟨0x000010, 3, 1⟩
def glbFaultMotor : Fld := ⟨0x000010, 2, 1⟩
def glbFaultHfm : Fld := ⟨0x000010, 1, 1⟩
def glbFaultDeadLimit : Fld := ⟨0x000010, 0, 1⟩
def glbCobblerRestarts : Fld := ⟨0x000012, 32, 16⟩
def glbCobblerMgmtQueue : Fld := ⟨0x000012, 24, 5⟩
def glbCobblerRestarting : Fld := ⟨0x000012, 1, 1⟩
def glbCobblerKick : Fld := ⟨0x000012, 0, 1⟩
def glbThermalTjWarn : Fld := ⟨0x000013, 40, 8⟩
def glbThermalTjCrit : Fld := ⟨0x000013, 32, 8⟩
def glbThermalHotSensor : Fld := ⟨0x000013, 27, 3⟩
def glbThermalTripSeen : Fld := ⟨0x000013, 26, 1⟩
def glbThermalCritSeen : Fld := ⟨0x000013, 25, 1⟩
def glbThermalWarnSeen : Fld := ⟨0x000013, 24, 1⟩
def glbThermalTjNow : Fld := ⟨0x000013, 0, 12⟩
def glbRailHighSeen : Fld := ⟨0x000018, 17, 1⟩
def glbRailLowSeen : Fld := ⟨0x000018, 16, 1⟩
def glbRailMv : Fld := ⟨0x000018, 0, 16⟩
def glbHfmTempValid : Fld := ⟨0x000020, 10, 1⟩
def glbHfmTempTemp : Fld := ⟨0x000020, 0, 10⟩
def glbNorBufData : Fld := ⟨0x000040, 0, 32⟩
def posStatusCorrected : Fld := ⟨0x010000, 26, 1⟩
def posStatusUncertainSeen : Fld := ⟨0x010000, 25, 1⟩
def posStatusLostSeen : Fld := ⟨0x010000, 24, 1⟩
def posStatusMissUpper : Fld := ⟨0x010000, 16, 8⟩
def posStatusMissLower : Fld := ⟨0x010000, 8, 8⟩
def posStatusWriteGate : Fld := ⟨0x010000, 6, 1⟩
def posStatusDir : Fld := ⟨0x010000, 5, 1⟩
def posStatusActiveBand : Fld := ⟨0x010000, 4, 1⟩
def posStatusUncertain : Fld := ⟨0x010000, 3, 1⟩
def posStatusMode : Fld := ⟨0x010000, 0, 3⟩
def posTposTpos : Fld := ⟨0x010001, 0, 48⟩
def posPllCfgAccFf : Fld := ⟨0x010002, 16, 1⟩
def posPllCfgDamp : Fld := ⟨0x010002, 8, 8⟩
def posPllCfgBw : Fld := ⟨0x010002, 0, 8⟩
def posBandSkewSkewValid : Fld := ⟨0x010003, 16, 1⟩
def posBandSkewSkew : Fld := ⟨0x010003, 0, 16⟩
def posLatWordBit : Fld := ⟨0x010004, 41, 1⟩
def posLatValid : Fld := ⟨0x010004, 40, 1⟩
def posLatFrame : Fld := ⟨0x010004, 24, 16⟩
def posLatOffset : Fld := ⟨0x010004, 0, 24⟩
def posTimeTime : Fld := ⟨0x010006, 0, 48⟩
def wchCtrlPrecompEn : Fld := ⟨0x020000, 8, 1⟩
def wchCtrlSwing : Fld := ⟨0x020000, 0, 8⟩
def wchChEnEn : Fld := ⟨0x020010, 0, 32⟩
def wchGroupDlyDly : Fld := ⟨0x020020, 0, 8⟩
def wchHfmTxGo : Fld := ⟨0x020040, 43, 1⟩
def wchHfmTxModule : Fld := ⟨0x020040, 40, 3⟩
def wchHfmTxRd : Fld := ⟨0x020040, 39, 1⟩
def wchHfmTxAddr : Fld := ⟨0x020040, 24, 8⟩
def wchHfmTxData : Fld := ⟨0x020040, 8, 16⟩
def wchHfmRxDone : Fld := ⟨0x020041, 41, 1⟩
def wchHfmRxCrcErr : Fld := ⟨0x020041, 40, 1⟩
def wchHfmRxFlags : Fld := ⟨0x020041, 32, 8⟩
def wchHfmRxAddr : Fld := ⟨0x020041, 24, 8⟩
def wchHfmRxData : Fld := ⟨0x020041, 8, 16⟩
def wchPrecompFineDly : Fld := ⟨0x020100, 36, 6⟩
def wchPrecompP3q2 : Fld := ⟨0x020100, 30, 6⟩
def wchPrecompP3q1 : Fld := ⟨0x020100, 24, 6⟩
def wchPrecompP2q2 : Fld := ⟨0x020100, 18, 6⟩
def wchPrecompP2q1 : Fld := ⟨0x020100, 12, 6⟩
def wchPrecompP1q2 : Fld := ⟨0x020100, 6, 6⟩
def wchPrecompP1q1 : Fld := ⟨0x020100, 0, 6⟩
def rchCtrlModLlr : Fld := ⟨0x030000, 16, 8⟩
def rchCtrlAdaptMu : Fld := ⟨0x030000, 12, 4⟩
def rchCtrlAdaptEn : Fld := ⟨0x030000, 11, 1⟩
def rchCtrlEqMain : Fld := ⟨0x030000, 4, 4⟩
def rchTargetG4 : Fld := ⟨0x030001, 32, 8⟩
def rchTargetG3 : Fld := ⟨0x030001, 24, 8⟩
def rchTargetG2 : Fld := ⟨0x030001, 16, 8⟩
def rchTargetG1 : Fld := ⟨0x030001, 8, 8⟩
def rchTargetG0 : Fld := ⟨0x030001, 0, 8⟩
def rchDefectMaxPtr : Fld := ⟨0x030002, 24, 4⟩
def rchDefectMargin : Fld := ⟨0x030002, 16, 8⟩
def rchDefectClipCount : Fld := ⟨0x030002, 12, 4⟩
def rchDefectDropLen : Fld := ⟨0x030002, 4, 8⟩
def rchDefectDropTh : Fld := ⟨0x030002, 0, 4⟩
def rchRetainPinValid : Fld := ⟨0x030003, 44, 1⟩
def rchRetainPinSlot : Fld := ⟨0x030003, 24, 20⟩
def rchRetainLatestSlot : Fld := ⟨0x030003, 4, 20⟩
def rchRetainTestLoad : Fld := ⟨0x030003, 3, 1⟩
def rchWeltValid : Fld := ⟨0x030004, 41, 1⟩
def rchWeltContrib : Fld := ⟨0x030004, 32, 9⟩
def rchWeltEyeletLo : Fld := ⟨0x030004, 16, 16⟩
def rchWeltMean : Fld := ⟨0x030004, 0, 16⟩
def rchGroupDlyDly : Fld := ⟨0x030020, 0, 8⟩
def rchAfePhase : Fld := ⟨0x030100, 24, 8⟩
def rchAfeVgaInit : Fld := ⟨0x030100, 16, 8⟩
def rchAfeCtleBoost : Fld := ⟨0x030100, 12, 4⟩
def rchAfeCtleZero : Fld := ⟨0x030100, 8, 4⟩
def rchLivePhaseNow : Fld := ⟨0x030200, 24, 8⟩
def rchLiveVgaNow : Fld := ⟨0x030200, 16, 8⟩
def rchLiveSyncMissSeen : Fld := ⟨0x030200, 2, 1⟩
def rchLiveTimingLostSeen : Fld := ⟨0x030200, 1, 1⟩
def rchLiveDefectSeen : Fld := ⟨0x030200, 0, 1⟩
def rchEqTapCoef : Fld := ⟨0x031000, 0, 12⟩
def eccC1CfgNorm : Fld := ⟨0x040000, 16, 4⟩
def eccC1CfgIterRetry : Fld := ⟨0x040000, 8, 8⟩
def eccC1CfgIterMax : Fld := ⟨0x040000, 0, 5⟩
def eccC2CfgTMax : Fld := ⟨0x040001, 0, 4⟩
def eccLadderRetryCw : Fld := ⟨0x040002, 32, 8⟩
def eccLadderOffset : Fld := ⟨0x040002, 24, 8⟩
def eccLadderRereads : Fld := ⟨0x040002, 16, 4⟩
def eccLadderStepEn : Fld := ⟨0x040002, 0, 6⟩
def eccStatusAccErr : Fld := ⟨0x040003, 34, 1⟩
def eccStatusAccOpen : Fld := ⟨0x040003, 33, 1⟩
def eccStatusLadderBusy : Fld := ⟨0x040003, 32, 1⟩
def eccStatusLadderStep : Fld := ⟨0x040003, 29, 3⟩
def eccStatusAccFolded : Fld := ⟨0x040003, 16, 6⟩
def eccStatusAccGroup : Fld := ⟨0x040003, 0, 14⟩
def eccLastFailClass : Fld := ⟨0x040004, 40, 3⟩
def eccLastFailIndex : Fld := ⟨0x040004, 34, 6⟩
def eccLastFailGroup : Fld := ⟨0x040004, 20, 14⟩
def eccLastFailSlot : Fld := ⟨0x040004, 0, 20⟩
def vfyCfgSyncMin : Fld := ⟨0x050000, 40, 8⟩
def vfyCfgDeadRun : Fld := ⟨0x050000, 32, 4⟩
def vfyCfgDeadMax : Fld := ⟨0x050000, 28, 4⟩
def vfyCfgBadMax : Fld := ⟨0x050000, 24, 4⟩
def vfyCfgMarginMax : Fld := ⟨0x050000, 19, 5⟩
def vfyCfgWeakFlip : Fld := ⟨0x050000, 8, 8⟩
def vfyCfgWeakIter : Fld := ⟨0x050000, 0, 5⟩
def vfyStatusDeadLimitSeen : Fld := ⟨0x050001, 16, 1⟩
def vfyStatusPending : Fld := ⟨0x050001, 8, 4⟩
def vfyStatusDeadCount : Fld := ⟨0x050001, 0, 8⟩
def vfyLastWriteProv : Fld := ⟨0x050002, 47, 1⟩
def vfyLastReadProv : Fld := ⟨0x050002, 46, 1⟩
def vfyLastReason : Fld := ⟨0x050002, 42, 4⟩
def vfyLastCopy : Fld := ⟨0x050002, 38, 4⟩
def vfyLastEMax : Fld := ⟨0x050002, 28, 8⟩
def vfyLastEwMax : Fld := ⟨0x050002, 20, 8⟩
def vfyLastSlot : Fld := ⟨0x050002, 0, 20⟩
def vfyDeadDead : Fld := ⟨0x050010, 0, 32⟩
def cmpCfgRatioMax : Fld := ⟨0x060000, 28, 12⟩
def cmpCfgChainClicks : Fld := ⟨0x060000, 20, 8⟩
def cmpCfgIdleCut : Fld := ⟨0x060000, 12, 8⟩
def cmpCfgLevel : Fld := ⟨0x060000, 8, 2⟩
def cmpCfgCheckEn : Fld := ⟨0x060000, 0, 1⟩
def cmpStatusGuardSeen : Fld := ⟨0x060001, 33, 1⟩
def cmpStatusCheckSeen : Fld := ⟨0x060001, 32, 1⟩
def cmpStatusEngOut : Fld := ⟨0x060001, 16, 16⟩
def cmpStatusEngBusy : Fld := ⟨0x060001, 0, 16⟩
def cmpEngineMode : Fld := ⟨0x060010, 47, 1⟩
def cmpEngineBound : Fld := ⟨0x060010, 46, 1⟩
def cmpEngineStream : Fld := ⟨0x060010, 24, 16⟩
def cmpEngineChainPos : Fld := ⟨0x060010, 16, 8⟩
def plcCfgOpenMax : Fld := ⟨0x070000, 36, 12⟩
def plcCfgResumeDs : Fld := ⟨0x070000, 28, 8⟩
def plcCfgSessionIdle : Fld := ⟨0x070000, 20, 8⟩
def plcCfgAffSkew : Fld := ⟨0x070000, 12, 8⟩
def plcCfgCommitLag : Fld := ⟨0x070000, 8, 4⟩
def plcCfgEarlyWarn : Fld := ⟨0x070000, 0, 8⟩
def plcSpeedCfgBlHi : Fld := ⟨0x070001, 32, 8⟩
def plcSpeedCfgBlLo : Fld := ⟨0x070001, 24, 8⟩
def plcSpeedCfgWindow : Fld := ⟨0x070001, 16, 8⟩
def plcSpeedCfgVMax : Fld := ⟨0x070001, 8, 8⟩
def plcSpeedCfgVMin : Fld := ⟨0x070001, 0, 8⟩
def plcStatusSpeedTgt : Fld := ⟨0x070002, 40, 8⟩
def plcStatusUnmerged : Fld := ⟨0x070002, 36, 4⟩
def plcStatusHold : Fld := ⟨0x070002, 35, 1⟩
def plcStatusSession : Fld := ⟨0x070002, 34, 1⟩
def plcStatusScan : Fld := ⟨0x070002, 33, 1⟩
def plcStatusEwSeen : Fld := ⟨0x070002, 32, 1⟩
def plcStatusOpen : Fld := ⟨0x070002, 16, 13⟩
def plcStatusCtxUsed : Fld := ⟨0x070002, 0, 9⟩
def plcSessionWrap : Fld := ⟨0x070003, 32, 8⟩
def plcSessionGeneration : Fld := ⟨0x070003, 0, 32⟩
def plcGenCeilGenCeil : Fld := ⟨0x070004, 0, 32⟩
def plcCapacityRemainDs : Fld := ⟨0x070005, 0, 28⟩
def hptPortCfgMtu : Fld := ⟨0x080000, 26, 14⟩
def hptPortCfgVid : Fld := ⟨0x080000, 12, 12⟩
def hptPortCfgVlanEn : Fld := ⟨0x080000, 11, 1⟩
def hptPortCfgLtEn : Fld := ⟨0x080000, 10, 1⟩
def hptPortCfgAnEn : Fld := ⟨0x080000, 9, 1⟩
def hptPortCfgPortEn : Fld := ⟨0x080000, 4, 4⟩
def hptPortCfgMode : Fld := ⟨0x080000, 0, 2⟩
def hptRrtCfgUdpPort : Fld := ⟨0x080001, 32, 16⟩
def hptRrtCfgCreditBase : Fld := ⟨0x080001, 22, 10⟩
def hptRrtCfgCreditEw1 : Fld := ⟨0x080001, 16, 6⟩
def hptRrtCfgRetryMax : Fld := ⟨0x080001, 12, 4⟩
def hptRrtCfgAckDelay : Fld := ⟨0x080001, 0, 8⟩
def hptTmrCfgRtoMin : Fld := ⟨0x080002, 28, 12⟩
def hptTmrCfgRtoMax : Fld := ⟨0x080002, 20, 8⟩
def hptTmrCfgKeepaliveS : Fld := ⟨0x080002, 12, 8⟩
def hptTmrCfgOrphanS : Fld := ⟨0x080002, 0, 12⟩
def hptClassMapPcpCtrl : Fld := ⟨0x080003, 15, 3⟩
def hptClassMapPcpUrgent : Fld := ⟨0x080003, 12, 3⟩
def hptClassMapPcpC0 : Fld := ⟨0x080003, 9, 3⟩
def hptClassMapPcpC1 : Fld := ⟨0x080003, 6, 3⟩
def hptClassMapPcpC2 : Fld := ⟨0x080003, 3, 3⟩
def hptClassMapPcpC3 : Fld := ⟨0x080003, 0, 3⟩
def hptPfcCfgXoffKib : Fld := ⟨0x080004, 16, 8⟩
def hptPfcCfgXonKib : Fld := ⟨0x080004, 8, 8⟩
def hptPfcCfgPfcEn : Fld := ⟨0x080004, 0, 8⟩
def hptMacAddrAddr : Fld := ⟨0x080010, 0, 48⟩
def hptIpAddrALo : Fld := ⟨0x080020, 0, 48⟩
def hptIpAddrAMid : Fld := ⟨0x080021, 0, 48⟩
def hptIpAddrEn : Fld := ⟨0x080022, 40, 1⟩
def hptIpAddrPlen : Fld := ⟨0x080022, 32, 8⟩
def hptIpAddrAHi : Fld := ⟨0x080022, 0, 32⟩
def hptRouterALo : Fld := ⟨0x080030, 0, 48⟩
def hptRouterAMid : Fld := ⟨0x080031, 0, 48⟩
def hptRouterEn : Fld := ⟨0x080032, 40, 1⟩
def hptRouterPlen : Fld := ⟨0x080032, 32, 8⟩
def hptRouterAHi : Fld := ⟨0x080032, 0, 32⟩
def hptPortStatusPfcStormSeen : Fld := ⟨0x080040, 8, 1⟩
def hptPortStatusDadFailSeen : Fld := ⟨0x080040, 7, 1⟩
def hptPortStatusFecUncorrSeen : Fld := ⟨0x080040, 6, 1⟩
def hptPortStatusLinkDownSeen : Fld := ⟨0x080040, 5, 1⟩
def hptPortStatusPfcXoff : Fld := ⟨0x080040, 4, 1⟩
def hptPortStatusPfcPaused : Fld := ⟨0x080040, 3, 1⟩
def hptPortStatusAddrOk : Fld := ⟨0x080040, 2, 1⟩
def hptPortStatusAnDone : Fld := ⟨0x080040, 1, 1⟩
def hptPortStatusLinkUp : Fld := ⟨0x080040, 0, 1⟩
def hptConnState : Fld := ⟨0x080100, 45, 3⟩
def hptConnPort : Fld := ⟨0x080100, 43, 2⟩
def hptConnHostConn : Fld := ⟨0x080100, 27, 16⟩
def hptConnPeerCredit : Fld := ⟨0x080100, 11, 16⟩
def hptConnInFlight : Fld := ⟨0x080100, 0, 11⟩
def cqmCfgReadDepth : Fld := ⟨0x090000, 16, 8⟩
def cqmCfgQuantumKib : Fld := ⟨0x090000, 0, 16⟩
def cqmWeightW3 : Fld := ⟨0x090001, 24, 8⟩
def cqmWeightW2 : Fld := ⟨0x090001, 16, 8⟩
def cqmWeightW1 : Fld := ⟨0x090001, 8, 8⟩
def cqmWeightW0 : Fld := ⟨0x090001, 0, 8⟩
def cqmStatusOutstanding : Fld := ⟨0x090002, 32, 14⟩
def cqmStatusFrozen : Fld := ⟨0x090002, 24, 8⟩
def cqmStatusOrphans : Fld := ⟨0x090002, 16, 8⟩
def cqmStatusReads : Fld := ⟨0x090002, 0, 7⟩
def cqmLogLastSeq : Fld := ⟨0x090003, 0, 48⟩
def cqmConnFrozen : Fld := ⟨0x090100, 33, 1⟩
def cqmConnOutstanding : Fld := ⟨0x090100, 22, 11⟩
def cqmConnHeld : Fld := ⟨0x090100, 11, 11⟩
def cqmConnCreditCut : Fld := ⟨0x090100, 0, 11⟩
def bpmPoolCfgEw3 : Fld := ⟨0x0A0000, 40, 8⟩
def bpmPoolCfgEw2 : Fld := ⟨0x0A0000, 32, 8⟩
def bpmPoolCfgEw1 : Fld := ⟨0x0A0000, 24, 8⟩
def bpmPoolCfgHyst : Fld := ⟨0x0A0000, 17, 7⟩
def bpmPoolCfgCount : Fld := ⟨0x0A0000, 0, 17⟩
def bpmPoolStatusEmptySeen : Fld := ⟨0x0A0008, 39, 1⟩
def bpmPoolStatusLevel : Fld := ⟨0x0A0008, 34, 2⟩
def bpmPoolStatusPeak : Fld := ⟨0x0A0008, 17, 17⟩
def bpmPoolStatusInUse : Fld := ⟨0x0A0008, 0, 17⟩
def bpmPoolBaseBase : Fld := ⟨0x0A0010, 0, 40⟩
def bpmFwOpOp : Fld := ⟨0x0A0020, 43, 2⟩
def bpmFwOpOwner : Fld := ⟨0x0A0020, 40, 3⟩
def bpmFwOpHandle : Fld := ⟨0x0A0020, 0, 32⟩
def bpmFwResultDone : Fld := ⟨0x0A0021, 47, 1⟩
def bpmFwResultEmpty : Fld := ⟨0x0A0021, 46, 1⟩
def bpmFwResultOwners : Fld := ⟨0x0A0021, 32, 8⟩
def bpmFwResultHandle : Fld := ⟨0x0A0021, 0, 32⟩
def memCfgScrubH : Fld := ⟨0x0B0000, 16, 8⟩
def memCfgDensity : Fld := ⟨0x0B0000, 4, 2⟩
def memCfgRanks : Fld := ⟨0x0B0000, 3, 1⟩
def memCfgWidth : Fld := ⟨0x0B0000, 2, 1⟩
def memStatusUeSeen : Fld := ⟨0x0B0001, 25, 1⟩
def memStatusCeSeen : Fld := ⟨0x0B0001, 24, 1⟩
def memStatusSizeGib : Fld := ⟨0x0B0001, 16, 8⟩
def memStatusRefresh2x : Fld := ⟨0x0B0001, 3, 1⟩
def memStatusCh1Ready : Fld := ⟨0x0B0001, 1, 1⟩
def memStatusCh0Ready : Fld := ⟨0x0B0001, 0, 1⟩
def memUeAddrAddr : Fld := ⟨0x0B0002, 0, 40⟩
def dmaStatusHaltSeen : Fld := ⟨0x0C0000, 16, 1⟩
def dmaStatusHalted : Fld := ⟨0x0C0000, 8, 8⟩
def dmaStatusBusy : Fld := ⟨0x0C0000, 3, 1⟩
def dmaStatusCurrent : Fld := ⟨0x0C0000, 0, 3⟩
def dmaChSrcSpace : Fld := ⟨0x0C0010, 45, 3⟩
def dmaChSrcAddr : Fld := ⟨0x0C0010, 0, 40⟩
def dmaChDstSpace : Fld := ⟨0x0C0011, 45, 3⟩
def dmaChDstAddr : Fld := ⟨0x0C0011, 0, 40⟩
def dmaChYM1 : Fld := ⟨0x0C0012, 16, 16⟩
def dmaChXM1 : Fld := ⟨0x0C0012, 0, 16⟩
def dmaChDstStride : Fld := ⟨0x0C0013, 24, 24⟩
def dmaChSrcStride : Fld := ⟨0x0C0013, 0, 24⟩
def dmaChTag : Fld := ⟨0x0C0014, 8, 8⟩
def dmaChCrcEn : Fld := ⟨0x0C0014, 4, 1⟩
def dmaChClear : Fld := ⟨0x0C0014, 2, 1⟩
def dmaChStop : Fld := ⟨0x0C0014, 1, 1⟩
def dmaChGo : Fld := ⟨0x0C0014, 0, 1⟩
def dmaChBytesDone : Fld := ⟨0x0C0015, 8, 40⟩
def dmaChErrKind : Fld := ⟨0x0C0015, 4, 4⟩
def dmaChErrDir : Fld := ⟨0x0C0015, 3, 1⟩
def dmaChState : Fld := ⟨0x0C0015, 0, 3⟩
def dmaChErrSpace : Fld := ⟨0x0C0016, 40, 3⟩
def dmaChErrAddr : Fld := ⟨0x0C0016, 0, 40⟩
def dmaChCrc : Fld := ⟨0x0C0017, 0, 32⟩
def fifStatusFaultSeen : Fld := ⟨0x0D0000, 16, 1⟩
def fifStatusLastId : Fld := ⟨0x0D0000, 0, 12⟩
def fifWeWmHi : Fld := ⟨0x0D0001, 24, 12⟩
def fifWeWmLo : Fld := ⟨0x0D0001, 12, 12⟩
def fifWeWmHyst : Fld := ⟨0x0D0001, 0, 12⟩
def tceStatusFaultSeen : Fld := ⟨0x0E0000, 31, 1⟩
def tceStatusReaction : Fld := ⟨0x0E0000, 28, 3⟩
def tceStatusFaultKind : Fld := ⟨0x0E0000, 24, 4⟩
def tceStatusFaultSlot : Fld := ⟨0x0E0000, 21, 3⟩
def tceStatusStops : Fld := ⟨0x0E0000, 8, 2⟩
def tceStatusFlagsAny : Fld := ⟨0x0E0000, 0, 8⟩
def tceLoopCtrlOpenSrc : Fld := ⟨0x0E0001, 8, 8⟩
def tceLoopCtrlClosed : Fld := ⟨0x0E0001, 0, 8⟩
def tcePgLimJmax : Fld := ⟨0x0E0002, 24, 8⟩
def tcePgLimAmax : Fld := ⟨0x0E0002, 16, 8⟩
def tcePgLimVmax : Fld := ⟨0x0E0002, 8, 8⟩
def tcePgLimLocTol : Fld := ⟨0x0E0002, 0, 8⟩
def tcePgStateVCmd : Fld := ⟨0x0E0003, 32, 16⟩
def tcePgStateACmd : Fld := ⟨0x0E0003, 16, 16⟩
def tcePgStateVTgt : Fld := ⟨0x0E0003, 8, 8⟩
def tcePgStateDirTgt : Fld := ⟨0x0E0003, 7, 1⟩
def tcePgStateWriteOk : Fld := ⟨0x0E0003, 6, 1⟩
def tcePgStateWriteLim : Fld := ⟨0x0E0003, 5, 1⟩
def tcePgStateMode : Fld := ⟨0x0E0003, 0, 3⟩
def tceSupCfgVelTol : Fld := ⟨0x0E0004, 40, 8⟩
def tceSupCfgLatTol : Fld := ⟨0x0E0004, 32, 8⟩
def tceSupCfgCrsTol : Fld := ⟨0x0E0004, 24, 8⟩
def tceSupCfgITol : Fld := ⟨0x0E0004, 16, 8⟩
def tceSupCfgRadTol : Fld := ⟨0x0E0004, 8, 8⟩
def tceSupCfgInvMax : Fld := ⟨0x0E0004, 0, 8⟩
def tceSupNVelN : Fld := ⟨0x0E0005, 38, 10⟩
def tceSupNTenN : Fld := ⟨0x0E0005, 28, 10⟩
def tceSupNRadN : Fld := ⟨0x0E0005, 18, 10⟩
def tceSupNCrsN : Fld := ⟨0x0E0005, 8, 10⟩
def tceSupNIN : Fld := ⟨0x0E0005, 0, 8⟩
def tceTenCfgThk : Fld := ⟨0x0E0006, 32, 16⟩
def tceTenCfgTenHi : Fld := ⟨0x0E0006, 24, 8⟩
def tceTenCfgTenLo : Fld := ⟨0x0E0006, 16, 8⟩
def tceTenCfgTenRef : Fld := ⟨0x0E0006, 0, 16⟩
def tceLatCfgB3 : Fld := ⟨0x0E0007, 40, 8⟩
def tceLatCfgB2 : Fld := ⟨0x0E0007, 32, 8⟩
def tceLatCfgB1 : Fld := ⟨0x0E0007, 24, 8⟩
def tceLatCfgLatN : Fld := ⟨0x0E0007, 20, 4⟩
def tceLatCfgWeltEn : Fld := ⟨0x0E0007, 19, 1⟩
def tceLatCfgVcUm : Fld := ⟨0x0E0007, 0, 16⟩
def tceReelRHub : Fld := ⟨0x0E0008, 32, 16⟩
def tceReelJ : Fld := ⟨0x0E0008, 16, 16⟩
def tceReelKt : Fld := ⟨0x0E0008, 0, 16⟩
def tceWeltCalWeltGain : Fld := ⟨0x0E000A, 40, 8⟩
def tceWeltCalWeltLim : Fld := ⟨0x0E000A, 32, 8⟩
def tceWeltCalKW : Fld := ⟨0x0E000A, 16, 16⟩
def tceWeltCalW0 : Fld := ⟨0x0E000A, 0, 16⟩
def tcePackRModel : Fld := ⟨0x0E000B, 32, 16⟩
def tcePackLOfs : Fld := ⟨0x0E000B, 0, 32⟩
def tceTraceArm : Fld := ⟨0x0E0040, 36, 1⟩
def tceTraceDecim : Fld := ⟨0x0E0040, 28, 8⟩
def tceTracePost : Fld := ⟨0x0E0040, 16, 12⟩
def tceTraceFlagMask : Fld := ⟨0x0E0040, 8, 8⟩
def tceTraceTrig : Fld := ⟨0x0E0040, 5, 3⟩
def tceTraceSource : Fld := ⟨0x0E0040, 0, 4⟩
def tceTraceTarget : Fld := ⟨0x0E0041, 0, 48⟩
def tceTraceTrigRec : Fld := ⟨0x0E0042, 32, 12⟩
def tceTraceRecords : Fld := ⟨0x0E0042, 20, 12⟩
def tceTraceState : Fld := ⟨0x0E0042, 0, 2⟩
def tceSlotFfEn : Fld := ⟨0x0E0100, 1, 1⟩
def tceSlotForm : Fld := ⟨0x0E0100, 0, 1⟩
def tceSlotOutMax : Fld := ⟨0x0E0101, 0, 48⟩
def tceSlotOutMin : Fld := ⟨0x0E0102, 0, 48⟩
def tceSlotOpenOut : Fld := ⟨0x0E0103, 0, 48⟩
def tceSlotFlags : Fld := ⟨0x0E0104, 0, 8⟩
def tceSlotLastOut : Fld := ⟨0x0E0105, 0, 48⟩
def tceSlotLastErr : Fld := ⟨0x0E0106, 0, 48⟩
def tceSlotDMax : Fld := ⟨0x0E0107, 12, 12⟩
def tceSlotDLast : Fld := ⟨0x0E0107, 0, 12⟩
def tceSlotCoef : Fld := ⟨0x0E0108, 0, 48⟩
def mdrStatusBrake : Fld := ⟨0x0F0000, 15, 1⟩
def mdrStatusMotorFaultSeen : Fld := ⟨0x0F0000, 14, 1⟩
def mdrStatusOcSeen : Fld := ⟨0x0F0000, 13, 1⟩
def mdrStatusSumErrSeen : Fld := ⟨0x0F0000, 12, 1⟩
def mdrStatusQerr : Fld := ⟨0x0F0000, 10, 2⟩
def mdrStatusGdFault : Fld := ⟨0x0F0000, 4, 4⟩
def mdrStatusGdEn : Fld := ⟨0x0F0000, 0, 4⟩
def mdrPwmCfgPol : Fld := ⟨0x0F0002, 39, 1⟩
def mdrPwmCfgMinPulse : Fld := ⟨0x0F0002, 28, 11⟩
def mdrPwmCfgDead : Fld := ⟨0x0F0002, 18, 10⟩
def mdrPwmCfgOcLim : Fld := ⟨0x0F0002, 8, 10⟩
def mdrPwmCfgOcN : Fld := ⟨0x0F0002, 4, 4⟩
def mdrPwmCfgSumTol : Fld := ⟨0x0F0002, 0, 4⟩
def mdrSupplyVmFs : Fld := ⟨0x0F0006, 40, 8⟩
def mdrSupplyVmMin : Fld := ⟨0x0F0006, 24, 8⟩
def mdrSupplyVmMax : Fld := ⟨0x0F0006, 16, 8⟩
def mdrSupplyVmNow : Fld := ⟨0x0F0006, 0, 16⟩
def mdrMotorPoles : Fld := ⟨0x0F0008, 44, 4⟩
def mdrMotorRs : Fld := ⟨0x0F0008, 32, 12⟩
def mdrMotorLs : Fld := ⟨0x0F0008, 16, 16⟩
def mdrMotorKe : Fld := ⟨0x0F0008, 0, 16⟩
def mdrObsCfgPlausTol : Fld := ⟨0x0F000A, 40, 8⟩
def mdrObsCfgPlausN : Fld := ⟨0x0F000A, 32, 8⟩
def mdrObsCfgObsVmin : Fld := ⟨0x0F000A, 24, 8⟩
def mdrObsCfgObsBw : Fld := ⟨0x0F000A, 16, 8⟩
def mdrObsCfgVAlign : Fld := ⟨0x0F000A, 8, 8⟩
def mdrObsCfgTAlign : Fld := ⟨0x0F000A, 0, 8⟩
def mdrReelMode : Fld := ⟨0x0F000B, 32, 3⟩
def mdrReelSpeed : Fld := ⟨0x0F000B, 16, 16⟩
def mdrReelAngle : Fld := ⟨0x0F000B, 0, 16⟩
def mdrStCfgStUm : Fld := ⟨0x0F000D, 32, 16⟩
def mdrStCfgStAmp : Fld := ⟨0x0F000D, 24, 8⟩
def mdrStCfgStHold : Fld := ⟨0x0F000D, 16, 8⟩
def mdrStCfgStSlew : Fld := ⟨0x0F000D, 0, 16⟩
def mdrQeCfgEn : Fld := ⟨0x0F0010, 7, 1⟩
def mdrQeCfgQfilt : Fld := ⟨0x0F0010, 0, 4⟩
def mdrQeCountCount : Fld := ⟨0x0F0012, 0, 48⟩
def mdrCsRange : Fld := ⟨0x0F0020, 20, 1⟩
def mdrCsValue : Fld := ⟨0x0F0020, 0, 17⟩
def mdrCsCalGain8 : Fld := ⟨0x0F0030, 16, 16⟩
def mdrCsCalOfs8 : Fld := ⟨0x0F0030, 8, 8⟩
def mdrCsCalOfs1 : Fld := ⟨0x0F0030, 0, 8⟩
def casCfgLossUs : Fld := ⟨0x100000, 8, 8⟩
def casCfgRing : Fld := ⟨0x100000, 2, 1⟩
def casCfgMode : Fld := ⟨0x100000, 0, 2⟩
def casStatusPresent : Fld := ⟨0x100001, 32, 16⟩
def casStatusId : Fld := ⟨0x100001, 28, 4⟩
def casStatusRole : Fld := ⟨0x100001, 27, 1⟩
def casStatusPort1Up : Fld := ⟨0x100001, 26, 1⟩
def casStatusPort0Up : Fld := ⟨0x100001, 25, 1⟩
def casStatusFcIn : Fld := ⟨0x100001, 23, 2⟩
def casStatusLossSeen : Fld := ⟨0x100001, 22, 1⟩
def casStatusJoinSeen : Fld := ⟨0x100001, 21, 1⟩
def casStatusWidth : Fld := ⟨0x100001, 18, 3⟩
def casMemberLeave : Fld := ⟨0x100010, 47, 1⟩
def casMemberState : Fld := ⟨0x100010, 44, 3⟩
def casMemberLat : Fld := ⟨0x100010, 16, 16⟩
def secStatusAmend : Fld := ⟨0x110000, 32, 16⟩
def secStatusBootCount : Fld := ⟨0x110000, 0, 32⟩
def secFlagsNewest : Fld := ⟨0x110001, 4, 9⟩
def secFlagsRecordOk : Fld := ⟨0x110001, 2, 1⟩
def secFlagsRestored : Fld := ⟨0x110001, 1, 1⟩
def secFlagsSaturated : Fld := ⟨0x110001, 0, 1⟩
def secWinSelSel : Fld := ⟨0x110002, 0, 10⟩
def secWinData : Fld := ⟨0x110100, 0, 48⟩
def cntStatusBanks : Fld := ⟨0x120000, 6, 2⟩
def cntStatusReadouts : Fld := ⟨0x120000, 0, 5⟩
def cntSnapSelArmed : Fld := ⟨0x120001, 17, 3⟩
def cntSnapSelFound : Fld := ⟨0x120001, 16, 1⟩
def cntSnapSelSnapId : Fld := ⟨0x120001, 0, 16⟩
def cntChValue : Fld := ⟨0x121000, 0, 48⟩
def cntSnapWinData : Fld := ⟨0x124000, 0, 48⟩
def pinGpioCfgOut : Fld := ⟨0x130000, 12, 1⟩
def pinGpioCfgOd : Fld := ⟨0x130000, 11, 1⟩
def pinGpioCfgDrive : Fld := ⟨0x130000, 10, 1⟩
def pinGpioCfgPull : Fld := ⟨0x130000, 8, 2⟩
def pinGpioCfgPol : Fld := ⟨0x130000, 7, 1⟩
def pinGpioCfgRole : Fld := ⟨0x130000, 0, 4⟩
def pinGpioInChanged : Fld := ⟨0x130010, 16, 16⟩
def pinGpioInIn : Fld := ⟨0x130010, 0, 16⟩
def pinTraceBuf : Fld := ⟨0x130011, 1, 2⟩
def pinTraceEn : Fld := ⟨0x130011, 0, 1⟩
def pinStatusTrcHiz : Fld := ⟨0x130012, 24, 1⟩
def pinStatusTestMode : Fld := ⟨0x130012, 22, 2⟩
def pinStatusSbMode : Fld := ⟨0x130012, 21, 1⟩
def pinStatusCascRole : Fld := ⟨0x130012, 20, 1⟩
def pinStatusCascId : Fld := ⟨0x130012, 16, 4⟩
def pinStatusHiz : Fld := ⟨0x130012, 0, 16⟩
def calStatusSelfRun : Fld := ⟨0x140000, 41, 1⟩
def calStatusStoring : Fld := ⟨0x140000, 40, 1⟩
def calStatusValid : Fld := ⟨0x140000, 39, 1⟩
def calStatusLost : Fld := ⟨0x140000, 38, 1⟩
def calStatusSource : Fld := ⟨0x140000, 32, 3⟩
def calStatusSeq : Fld := ⟨0x140000, 0, 32⟩
def calStoredBootCount : Fld := ⟨0x140001, 0, 32⟩

end F

/-! Addresses of the counters (the counter family of R527). -/
namespace C

def posSpurious : Nat := 0x010010
def posFlywheel : Nat := 0x010012
def posSwitch : Nat := 0x010013
def posUncertain : Nat := 0x010014
def posLost : Nat := 0x010015
def posCorrect : Nat := 0x010016
def posWordErr : Nat := 0x010017
def posWordMismatch : Nat := 0x010018
def posLate : Nat := 0x010019
def posAbort : Nat := 0x01001A
def posProvisional : Nat := 0x01001B
def posSignature : Nat := 0x01001C
def wchUnderrun : Nat := 0x020030
def wchHfmCrc : Nat := 0x020031
def wchHfmFault : Nat := 0x020032
def rchDefect : Nat := 0x030010
def rchSyncMiss : Nat := 0x030011
def rchTimingLost : Nat := 0x030012
def rchModInvalid : Nat := 0x030013
def rchClip : Nat := 0x030014
def rchPinRefused : Nat := 0x030015
def eccC1Cw : Nat := 0x040010
def eccC1Iter : Nat := 0x040011
def eccC1Fail : Nat := 0x040012
def eccC2Sym : Nat := 0x040013
def eccC2Fail : Nat := 0x040014
def eccC3Decode : Nat := 0x040015
def eccLadder : Nat := 0x040016
def eccUnrecovered : Nat := 0x040017
def eccMiscorrect : Nat := 0x040018
def eccAccErr : Nat := 0x040019
def vfyDs : Nat := 0x050020
def vfyFail : Nat := 0x050021
def vfyRewrite : Nat := 0x050022
def vfySuperseded : Nat := 0x050023
def vfyWeakCw : Nat := 0x050024
def vfyBadCw : Nat := 0x050025
def vfyDead : Nat := 0x050026
def vfyProvFail : Nat := 0x050027
def cmpInBytes : Nat := 0x060020
def cmpOutBytes : Nat := 0x060021
def cmpClicks : Nat := 0x060022
def cmpRaw : Nat := 0x060023
def cmpRecode : Nat := 0x060024
def cmpCheckFail : Nat := 0x060025
def cmpDecBytes : Nat := 0x060026
def cmpCrcFail : Nat := 0x060027
def cmpGuard : Nat := 0x060028
def cmpRatio : Nat := 0x060029
def cmpHistLoad : Nat := 0x06002A
def cmpSramErr : Nat := 0x06002B
def cmpJobWait : Nat := 0x06002C
def plcSpill : Nat := 0x070010
def plcRestore : Nat := 0x070011
def plcClicks : Nat := 0x070012
def plcReplaced : Nat := 0x070013
def plcHold : Nat := 0x070014
def plcSpeed : Nat := 0x070015
def plcCommit : Nat := 0x070016
def plcZone : Nat := 0x070017
def plcScan : Nat := 0x070018
def plcReserve : Nat := 0x070019
def hptRxSeg : Nat := 0x080200
def hptTxSeg : Nat := 0x080201
def hptRetx : Nat := 0x080202
def hptRto : Nat := 0x080203
def hptDropWindow : Nat := 0x080204
def hptDropNobuf : Nat := 0x080205
def hptDropFrame : Nat := 0x080206
def hptReset : Nat := 0x080207
def hptRefused : Nat := 0x080208
def hptOrphan : Nat := 0x080209
def hptFecCorr : Nat := 0x08020A
def hptFecUncorr : Nat := 0x08020B
def cqmAccepted : Nat := 0x090010
def cqmRefused : Nat := 0x090011
def cqmQueueFull : Nat := 0x090012
def cqmFreeze : Nat := 0x090013
def cqmDiscarded : Nat := 0x090014
def cqmUrgent : Nat := 0x090015
def cqmBusy : Nat := 0x090016
def cqmLogLost : Nat := 0x090017
def bpmEmpty : Nat := 0x0A0030
def bpmRace : Nat := 0x0A0038
def bpmShareRefused : Nat := 0x0A0040
def memCe : Nat := 0x0B0010
def memUe : Nat := 0x0B0011
def memScrub : Nat := 0x0B0012
def memRetrain : Nat := 0x0B0013
def dmaBytes : Nat := 0x0C0050
def dmaHalt : Nat := 0x0C0051
def fifFault : Nat := 0x0D0010
def fifFcHi : Nat := 0x0D0011
def tceSample : Nat := 0x0E0020
def tceInvalid : Nat := 0x0E0028
def tceFault : Nat := 0x0E0030
def tceStop : Nat := 0x0E0031
def tcePgTarget : Nat := 0x0E0032
def mdrRangeSwitch : Nat := 0x0F0040
def mdrSuppress : Nat := 0x0F0041
def mdrOc : Nat := 0x0F0042
def mdrGdFault : Nat := 0x0F0043
def mdrQerr : Nat := 0x0F0044
def mdrIdxCorr : Nat := 0x0F0046
def mdrObsLoss : Nat := 0x0F0047
def mdrObsReacq : Nat := 0x0F0048
def mdrRestart : Nat := 0x0F0049
def mdrVlim : Nat := 0x0F004A
def mdrSumErr : Nat := 0x0F004B
def casNak : Nat := 0x100020
def casRewind : Nat := 0x100021
def casPortDown : Nat := 0x100022
def casBeaconMiss : Nat := 0x100023
def casJoin : Nat := 0x100024
def casLeave : Nat := 0x100025
def casLoss : Nat := 0x100026
def casFcPause : Nat := 0x100027
def cntWdog : Nat := 0x120010
def cntSbErr : Nat := 0x120011
def cntSnap : Nat := 0x120012
def cntSnapMissed : Nat := 0x120013
def cntThermal : Nat := 0x120014

end C

end Sys2Proof.Machine
end

