-- ==== Sys2Proof/Config.lean ====
section
/-!
DEFINITION. What an implementation fixes and what the spec leaves open: constants with no body (log entries 2, 4, 8,
9 and 10). No proof can see a value of any of them.
-/
namespace Sys2Proof.Config

/-- A fresh value the spec leaves to the device, numbered by State.freeIx (log 2): the initial sequence number of
R272, the flow label of R264, SET_ID of R463, and every result the spec does not state. -/
opaque freeWord : Nat → Word

/-- The temperature grade fused into GLB.IDENT (R1, R3; log 4). -/
opaque tempGrade : BitVec 1

/-- The unique device secret, 48 bytes in fuses, which only SEC can read (R503; log 4). -/
opaque uds : List Byte

/-- The private scalar of Ralnoken's device-endorsement key (R504; log 4). -/
opaque endorsementKey : Nat

/-- The firmware-signing public key held in the boot ROM (R480; log 4). -/
opaque firmwareKey : List Byte

/-- ROM_DIGEST, fixed in fuses (R505; log 4). -/
opaque romDigest : List Byte

/-- The installed data capacity in GiB per memory organisation is the table of R333; what MR4 reports, the NOR's
SFDP and other parts of the board are operands. -/
opaque jep106 : BitVec 11

/-- SHA-384 (R479, R503 to R506): a standard that the spec names and does not restate (log 9). -/
opaque sha384 : List Byte → List Byte

/-- HMAC-SHA-384 of a key and a message (R503, R506; log 9). -/
opaque hmacSha384 : List Byte → List Byte → List Byte

/-- The public point of a private scalar on P-384, in the 97 bytes of SEC1 (R503; log 9). -/
opaque p384Pub : Nat → List Byte

/-- The ECDSA P-384 signature, 96 bytes r then s, of a private scalar over a SHA-384 digest, with the nonces of RFC 6979
(R504, R509; log 9). -/
opaque ecdsaSign : Nat → List Byte → List Byte

/-- Whether a public key verifies a signature over a SHA-384 digest (R480; log 9). -/
opaque ecdsaOk : List Byte → List Byte → List Byte → Bool

/-- The 128-byte state of a stream context as the spill table holds it, from the context's numbers (R218; log 49). -/
opaque contextState : List Nat → List Byte

/-- The ZC1 body that the device's encoder chooses for (history, input, LEVEL, matches limited to 66 bytes): R197
fixes what a body decodes to, not how an encoder chooses its tokens (log 8). -/
opaque zc1Encode : List Byte → List Byte → Nat → Bool → List Byte

/-- What the front end gives before the ADC (R112, R113): for a CTLE whose zero lies at a frequency in 2^-16 MHz and whose boost
is in dB, a VGA gain in the code of VGA_INIT and the signal of a read element, the value at a place in 1/64 channel bit. What an
analogue circuit makes of a signal is not the spec's (log 10). -/
opaque frontEnd : Nat → Nat → Nat → List Int → Int → Int

/-- One step of the timing loop of R113, a second-order loop without stated gains: its output in 1/64 channel bit and its rate after
32 more channel bits, of which those that it takes are given as FIR output (log 10). -/
opaque timingStep : Int × Int → List Int → Int × Int

/-- What scales the detector's metrics, squares of 1/256 ADC step, to an LLR in units of 0.5 (R118), less 1: the noise that the
detector supposes, which the rule does not state (log 10). -/
opaque llrUnit : Nat

/-- The sine of an angle in 1/65,536 turn, in units of 2^-30 (R419, R420, R427; log 10). -/
opaque sine : BitVec 16 → Int

/-- The coarse positioner's place for a count of its encoder, in units of 32.768 mm / 2^47: the spec gives no pitch of the
encoder (R370, R371; log 27). -/
opaque crsPlace : Word → Word

/-- The full scale of the current sensors in mA: the spec gives none (R371, R415; log 27). -/
opaque csFullScale : Nat

/-- The kind in the detail of a TRANSPORT_FAULT where no rule states one: a motor fault (R431, R432), a test run that does not
lock (R396; log 28). -/
opaque driverKind : Byte

/-- How the log detail of MOTOR_FAULT codes a cause: 0 gate driver, 1 overcurrent, 2 supply; 3 stands for the driver that a
supply fault does not have (R431; log 28). -/
opaque motorCause : Nat → Byte

/-- What a quotient gives whose divisor is 0, of its dividend: no rule states it (log 29). -/
opaque overZero : Int → Int

/-- What a byte of DMA space 2 reads as while no bank waits for readout, and of space 4 where no record is held (R394, R531;
log 37). -/
opaque staleByte : Nat → Byte

/-- What DMA's writing of bytes at an address of the retention buffers makes of the samples of a slot and channel: no rule
gives the buffers' layout (R124, R359; log 37). -/
opaque testLoad : Nat → List Byte → Nat → Nat → List Int → List Int

/-- The integer square root used where the spec states a square root of a real number (R384, R420; log 10). -/
opaque realSqrt : Int → Int

/-- One step of the observer's phase-locked loop of R424 for a reel: back-EMF in the αβ frame and the present angle
and speed give (angle, speed, magnitude) (log 10). -/
opaque observerStep : Nat → Int × Int → BitVec 16 × Int → BitVec 16 × Int × Int

/-- The gains of the eyelet PLL of R71 for a PLL_CFG word, proportional and integral, in 2^-24 MHz per 1/16 channel bit of
phase error: the spec gives bandwidth and damping, not the gains that make them (log 10). -/
opaque pllGains : Word → Nat × Nat

/-- The running mark amplitude of R75 after a mark, of the amplitude before it and the mark's: the spec gives no rule for
its running mean (log 10). -/
opaque markAmp : Nat → Nat → Nat

/-- The bytes of a message between the devices of a set: the spec gives these messages no layout (log 21). -/
opaque linkBytes : LinkMsg → List Byte

/-- The message that bytes spell; none where they spell no message (log 21). -/
opaque linkMsg : List Byte → Option LinkMsg

/-- How many bytes the first message of a run of bytes takes; none while it is not whole (log 21). -/
opaque linkLength : List Byte → Option Nat

end Sys2Proof.Config
end

