-- ==== Sys2Proof/Machine/Identity.lean ====
section
/-!
DEFINITION. The identity of the device (R503, R504): the key pair that SEC derives from the unique device secret, DEVICE_REF and
the endorsement. Hashes and curve are uninterpreted (log 9).
-/
namespace Sys2Proof.Machine

/-- The number that bytes spell, most significant first (R503). -/
def ofBe (bs : List Byte) : Nat := bs.foldl (fun v b => 256 * v + b.toNat) 0

/-- The order n of P-384. -/
def p384Order : Nat :=
  0xFFFFFFFFFFFFFFFFFFFFFFFFFFFFFFFFFFFFFFFFFFFFFFFFC7634D81F4372DDF581A0DB248B0A77AECEC196ACCC52973

/-- The private scalar that a key gives with a message (R503): (H mod (n - 1)) + 1. -/
def privateScalar (key msg : List Byte) : Nat := ofBe (Config.hmacSha384 key msg) % (p384Order - 1) + 1

/-- The ASCII bytes of "ZW-DEVID" and of "ZW-ALIAS" (R503, R506). -/
def devidLabel : List Byte := [0x5A, 0x57, 0x2D, 0x44, 0x45, 0x56, 0x49, 0x44]
def aliasLabel : List Byte := [0x5A, 0x57, 0x2D, 0x41, 0x4C, 0x49, 0x41, 0x53]

/-- The identity private scalar, which never leaves SEC (R503, R504). -/
def identityScalar : Nat := privateScalar Config.uds (devidLabel ++ fitTo 48 Config.romDigest)

/-- DEV_PUB (R503). -/
def devPub : List Byte := fitTo 97 (Config.p384Pub identityScalar)

/-- DEVICE_REF (R49, R503): the first 8 bytes of the identity digest. -/
def deviceRef : BitVec 64 := BitVec.ofNat 64 (fieldAt (Config.sha384 devPub) 0 8)

/-- SIG_R and SIG_S, or ENDORSE_R and ENDORSE_S, of a private scalar over bytes. -/
def signWith (scalar : Nat) (bs : List Byte) : List Byte := fitTo 96 (Config.ecdsaSign scalar (Config.sha384 bs))

end Sys2Proof.Machine
end

