-- ==== Sys2Proof/Machine/Code.lean ====
section
/-!
DEFINITION. The three codes of chapter 05 as mathematics: the symbol field (R140), the LDPC code C1 (R141 to R144) and
the Reed–Solomon codes C2 and C3 (R147, R150, R152, R153, R157).
-/
namespace Sys2Proof.Machine

/-! ## GF(2^16) (R140) -/

/-- Twice a field element: multiplication by α. -/
def gfTwice (a : Nat) : Nat := if 0x8000 ≤ a then (2 * a) ^^^ 0x1100B else 2 * a

/-- The product of two field elements, polynomial multiplication modulo 0x1_100B (R140). -/
def gfMul (a b : Nat) : Nat :=
  (List.range 16).foldl (fun acc i => gfTwice acc ^^^ (if bitAt b (15 - i) then a else 0)) 0

/-- A power of a field element. -/
def gfPow (a : Nat) : Nat → Nat
  | 0 => 1
  | n + 1 => gfMul a (gfPow a n)

/-- α^n; the order of α divides 65,535. -/
def gfExp (n : Nat) : Nat := (List.range (n % 65535)).foldl (fun a _ => gfTwice a) 1

/-- a^(2^16 − 2), the inverse of a non-zero element, by squaring. -/
def gfInv (a : Nat) : Nat :=
  ((List.range 15).foldl (fun (s : Nat × Nat) _ => let q := gfMul s.1 s.1; (q, gfMul s.2 q)) (a, 1)).2

/-- The sum of field elements. -/
def gfSum (xs : List Nat) : Nat := xs.foldl (· ^^^ ·) 0

/-- A polynomial, lowest coefficient first, at a point. -/
def polyEval (p : List Nat) (x : Nat) : Nat := p.foldr (fun c acc => c ^^^ gfMul acc x) 0

/-- The product of a polynomial and (x + a), lowest coefficient first. -/
def polyTimesRoot (a : Nat) (p : List Nat) : List Nat :=
  List.zipWith (· ^^^ ·) (p.map (gfMul a) ++ [0]) (0 :: p)

/-- (x + α^0) … (x + α^(r−1)), lowest coefficient first (R147, R152). -/
def genPoly (r : Nat) : List Nat := (List.range r).foldl (fun p i => polyTimesRoot (gfExp i) p) [1]

/-- One step of the division by a monic generator: the remainder after the next coefficient, highest first, enters. -/
def divStep (low : List Nat) (rem : List Nat) (c : Nat) : List Nat :=
  let f := rem.getLastD 0 ^^^ c
  List.zipWith (· ^^^ ·) (0 :: rem.dropLast) (low.map (gfMul f))

/-- The parity of information symbols, highest power first, for a code with `r` roots: the coefficients of x^(r−1) down
to x^0 of (information × x^r) mod the generator. -/
def rsParity (r : Nat) (info : List Nat) : List Nat :=
  let low := (genPoly r).take r
  (info.foldl (divStep low) (List.replicate r 0)).reverse

/-! ## Decoding Reed–Solomon words (R150, R157)

A word is a list of symbols with the power of x that each multiplies. With e erasures, the decoder looks for the least
number t of further errors for which the key equation has one solution, within the limits of R150. -/

/-- Syndrome i: the word at α^i. -/
def syndrome (exps word : List Nat) (i : Nat) : Nat :=
  gfSum (List.zipWith (fun e c => gfMul c (gfExp (e * i))) exps word)

/-- One elimination step: a row with a non-zero head, made monic. -/
def pivotRow (rows : List (List Nat)) : Option (List Nat × List (List Nat)) :=
  match rows.find? (fun r => r.headD 0 != 0) with
  | none => none
  | some r =>
    let k := gfInv (r.headD 0)
    some (r.map (gfMul k), rows.erase r)

/-- The one solution of a linear system of `n` unknowns, each row holding its coefficients and then its right side;
none where there is no solution or more than one. -/
def gfSolve : Nat → List (List Nat) → Option (List Nat)
  | 0, rows => if rows.all (fun r => r.headD 0 == 0) then some [] else none
  | n + 1, rows =>
    match pivotRow rows with
    | none => none
    | some (p, rest) =>
      let rest := rest.map fun r => (List.zipWith (fun a b => a ^^^ gfMul (r.headD 0) b) r p).tail
      match gfSolve n rest with
      | none => none
      | some xs =>
        let v := p.getLastD 0 ^^^ gfSum (List.zipWith gfMul p.tail xs)
        some (v :: xs)

/-- The values at known places: Σ Y_p X_p^i = S_i for every i. -/
def placeValues (places : List Nat) (syn : List Nat) : Option (List Nat) :=
  gfSolve places.length ((List.range syn.length).map fun i =>
    places.map (fun e => gfExp (e * i)) ++ [syn.getD i 0])

/-- The error locator's coefficients 1 to t from the modified syndromes T_e to T_(r−1). -/
def errorLocator (t : Nat) (ts : List Nat) : Option (List Nat) :=
  gfSolve t ((List.range (ts.length - t)).map fun i =>
    (List.range t).map (fun j => ts.getD (i + t - 1 - j) 0) ++ [ts.getD (i + t) 0])

/-- Try t further errors: the positions (as powers) and the values there. -/
def tryErrors (exps erased syn : List Nat) (t : Nat) : Option (List (Nat × Nat)) :=
  let gamma := erased.foldl (fun p e => List.zipWith (· ^^^ ·) (p ++ [0]) (0 :: p.map (gfMul (gfExp e)))) [1]
  let ts := ((List.range syn.length).map fun i =>
    gfSum ((List.range gamma.length).map fun j => if j ≤ i then gfMul (gamma.getD j 0) (syn.getD (i - j) 0) else 0)).drop
      erased.length
  let found := if t = 0 then some [] else
    (errorLocator t ts).map fun s => exps.filter fun e => polyEval (1 :: s) (gfExp (65535 - e % 65535)) == 0
  match found with
  | none => none
  | some ps =>
    if ps.length != t || ps.any erased.contains then none
    else (placeValues (erased ++ ps) syn).bind fun ys =>
      if (ys.drop erased.length).any (· == 0) then none else some ((erased ++ ps).zip ys)

/-- Decode a word of a code with `r` roots (R150): the corrected symbols and the number of errors found, when
2t + e ≤ r and t ≤ `tMax`. -/
def rsDecode (r tMax : Nat) (exps word : List Nat) (erased : List Bool) : Option (List Nat × Nat) :=
  let es := ((exps.zip erased).filter Prod.snd).map Prod.fst
  let clean := List.zipWith (fun c (b : Bool) => if b then 0 else c) word erased
  let syn := (List.range r).map (syndrome exps clean)
  if r < es.length then none
  else
    let limit := min tMax ((r - es.length) / 2)
    (List.range (limit + 1)).findSome? fun t =>
      (tryErrors exps es syn t).map fun ys =>
        (List.zipWith (fun e c => match ys.find? (fun y => y.1 == e) with | some y => c ^^^ y.2 | none => c) exps clean, t)

/-- Fill at most `r` erased symbols of a word (R157), from as many syndromes as there are; more cannot be filled. -/
def rsFill (r : Nat) (exps word : List Nat) (erased : List Bool) : Option (List Nat) :=
  let es := ((exps.zip erased).filter Prod.snd).map Prod.fst
  let clean := List.zipWith (fun c (b : Bool) => if b then 0 else c) word erased
  if r < es.length then none
  else (placeValues es ((List.range es.length).map (syndrome exps clean))).map fun ys =>
    List.zipWith (fun e c => match (es.zip ys).find? (fun y => y.1 == e) with | some y => y.2 | none => c) exps clean

/-- The powers of a C2 codeword's symbols: logical track L stands at x^(255 − L) (R147). -/
def c2Exps : List Nat := (List.range 256).map fun l => 255 - l

/-- The powers of a C3 codeword's symbols: INDEX i at x^(i + 4), INDEX 60 + q at x^q (R152). -/
def c3Exps : List Nat := (List.range 60).map (· + 4) ++ [0, 1, 2, 3]

/-- b_i of R153: the coefficients of x^(i + 4) mod g3, for x^0 to x^3. -/
def c3Vector : Nat → List Nat
  | 0 => (genPoly 4).take 4
  | i + 1 =>
    let b := c3Vector i
    List.zipWith (· ^^^ ·) (0 :: b.dropLast) (((genPoly 4).take 4).map (gfMul (b.getLastD 0)))

/-! ## C1 (R141 to R144) -/

/-- A block of 256 code bits; bit r is code bit r of the block. -/
abbrev Block := BitVec 256

/-- c_j of R142. -/
def c1Row1 : List Nat := [5, 19, 44, 71, 98, 131, 158, 177, 202, 229, 12, 57, 90, 109, 142, 171, 196, 215,
  238, 25, 40, 81, 118, 149, 166, 189, 214, 251, 33, 62, 112, 247]

/-- h(i, j) of R142; none for a zero block. -/
def c1Shift (i j : Nat) : Option Nat :=
  if j < 32 then
    let c := c1Row1.getD j 0
    match i with
    | 0 => some 0 | 1 => some c | 2 => some (3 * c % 256) | _ => some (7 * c % 256)
  else match i, j with
    | 0, 32 => some 1 | 2, 32 => some 0 | 3, 32 => some 1
    | 0, 33 => some 0 | 1, 33 => some 0
    | 1, 34 => some 0 | 2, 34 => some 0
    | 2, 35 => some 0 | 3, 35 => some 0
    | _, _ => none

/-- The block whose bit r is bit (r + h) mod 256 of `b`. -/
def turn (b : Block) (h : Nat) : Block := b.rotateRight (h % 256)

/-- XOR over the columns of row i that `blocks` fills, from column `j` up. -/
def rowSum (i : Nat) : Nat → List Block → Block
  | _, [] => 0
  | j, b :: bs => (match c1Shift i j with | some h => turn b h | none => 0) ^^^ rowSum i (j + 1) bs

/-- The parity blocks 32 to 35 of 32 information blocks (R143). -/
def c1Parity (u : List Block) : List Block :=
  let l0 := rowSum 0 0 u
  let l1 := rowSum 1 0 u
  let l2 := rowSum 2 0 u
  let l3 := rowSum 3 0 u
  let p32 := l0 ^^^ l1 ^^^ l2 ^^^ l3
  let p33 := l0 ^^^ turn p32 1
  let p34 := l1 ^^^ p33
  [p32, p33, p34, l3 ^^^ turn p32 1]

/-- Whether 36 blocks satisfy every check (R141). -/
def c1Checks (x : List Block) : Bool := (List.range 4).all fun i => rowSum i 0 x == 0

/-- The 32 information blocks of 1,024 bytes: byte b, bit i is information bit 8b + i (R48). -/
def c1Blocks (bs : List Byte) : List Block :=
  (List.range 32).map fun j => BitVec.ofNat 256 (fieldAt bs (32 * j) 32)

/-- The code bits of blocks, in order. -/
def blockBits (bs : List Block) : List Bool := bs.flatMap fun b => (List.range 256).map fun r => b.getLsbD r

/-- The 9,216 code bits of 1,024 bytes (R48, R143). -/
def c1Encode (bs : List Byte) : List Bool :=
  let u := c1Blocks bs
  blockBits (u ++ c1Parity u)

/-- Bytes of a run of bits, 8 to a byte, bit 0 first. -/
def bitsToBytes (n : Nat) (bits : List Bool) : List Byte :=
  (List.range n).map fun k => BitVec.ofNat 8 (((bits.drop (8 * k)).take 8).foldr (fun b acc => b2n b + 2 * acc) 0)

/-- The list whose element r is element (r + h) mod its length of `xs`. -/
def turnList {α : Type} (xs : List α) (h : Nat) : List α := xs.drop h ++ xs.take h

/-- The two smallest magnitudes and the sign of the product at each place of the columns of a row (R144). -/
def checkFold (ts : List (List Int)) : List (Nat × Nat × Bool) :=
  ts.foldl (fun acc t => List.zipWith (fun (m : Nat × Nat × Bool) (x : Int) =>
      let a := x.natAbs
      (min m.1 a, max m.1 (min m.2.1 a), m.2.2 != decide (x < 0))) acc t)
    (List.replicate 256 (1000, 1000, false))

/-- The new message from a check to a bit whose value before the message is `x` (R144). -/
def checkMessage (norm : Nat) (m : Nat × Nat × Bool) (x : Int) : Int :=
  let mag : Nat := if x.natAbs = m.1 then m.2.1 else m.1
  let v : Int := satInt (-63) 63 ((mag * norm / 8 : Nat) : Int)
  if m.2.2 != decide (x < 0) then -v else v

/-- The columns of a base row with their shifts. -/
def c1Row (i : Nat) : List (Nat × Nat) := (List.range 36).filterMap fun j => (c1Shift i j).map fun h => (j, h)

/-- One base row of an iteration: posteriors by column (36 × 256) and the row's messages (R144). -/
def c1Layer (norm i : Nat) (post : List (List Int)) (msgs : List (List Int)) : List (List Int) × List (List Int) :=
  let cols := c1Row i
  let ts := List.zipWith (fun (c : Nat × Nat) m =>
    List.zipWith (fun (p q : Int) => p - q) (turnList (post.getD c.1 []) c.2) m) cols msgs
  let f := checkFold ts
  let new := ts.map fun t => List.zipWith (fun m x => checkMessage norm m x) f t
  let upd := List.zipWith (fun t n => List.zipWith (fun (x y : Int) => satInt (-255) 255 (x + y)) t n) ts new
  ((cols.zip upd).foldl (fun ps c => setAt ps c.1.1 (turnList c.2 ((256 - c.1.2) % 256))) post, new)

/-- One iteration: base rows 0 to 3 in order. -/
def c1Iterate (norm : Nat) (post : List (List Int)) (msgs : List (List (List Int))) : List (List Int) × List (List (List Int)) :=
  (List.range 4).foldl (fun s i =>
    let r := c1Layer norm i s.1 (s.2.getD i [])
    (r.1, setAt s.2 i r.2)) (post, msgs)

/-- Hard decisions of posteriors: 1 where negative. -/
def hardBlocks (post : List (List Int)) : List Block :=
  post.map fun c => BitVec.ofNat 256 (c.foldr (fun x acc => (if x < 0 then 1 else 0) + 2 * acc) 0)

/-- Up to `n` more iterations: the posteriors, the iterations used and whether the syndrome is zero. -/
def c1Run (norm : Nat) : Nat → Nat → List (List Int) → List (List (List Int)) → List (List Int) × Nat × Bool
  | 0, used, post, _ => (post, used, c1Checks (hardBlocks post))
  | n + 1, used, post, msgs =>
    if c1Checks (hardBlocks post) then (post, used, true)
    else
      let r := c1Iterate norm post msgs
      c1Run norm n (used + 1) r.1 r.2

/-- What decoding a codeword gives (R146): its information bytes, whether it converged, iterations and flips. -/
structure C1Result where
  bytes : List Byte
  ok    : Bool
  iters : Nat
  flips : Nat
  deriving DecidableEq, Repr

/-- Decode 9,216 LLRs (R144, R146). -/
def c1Decode (norm limit : Nat) (llrs : List Int) : C1Result :=
  let post := (List.range 36).map fun j => (llrs.drop (256 * j)).take 256
  let msgs := (List.range 4).map fun i => (c1Row i).map fun _ => List.replicate 256 (0 : Int)
  let r := c1Run norm limit 0 post msgs
  let hard := hardBlocks r.1
  let flips := ((blockBits hard).zip llrs).countP fun x => x.1 != decide (x.2 < 0)
  ⟨bitsToBytes 1024 (blockBits (hard.take 32)), r.2.2, r.2.1, flips⟩

end Sys2Proof.Machine
end

