-- ==== Sys2Proof/Machine/Zc1.lean ====
section
/-!
DEFINITION. The ZC1 click format (R190 to R197): header, end list, tokens and their decoding, and the forms in which the
device stores a click (R193).
-/
namespace Sys2Proof.Machine

/-- CRC-64 of R191: the ECMA-182 polynomial, reflected. -/
def crc64 (bs : List Byte) : Nat :=
  bs.foldl (crcByte 64 0xC96C5795D7870F42) 0xFFFFFFFFFFFFFFFF ^^^ 0xFFFFFFFFFFFFFFFF

/-- One bit of the CRC-8 of R191 and R32, most significant bit first: x^8 + x^2 + x + 1. -/
def crc8Bit (c : Nat) : Nat := if 128 ≤ c then (2 * c) % 256 ^^^ 7 else 2 * c

/-- HCHK of R191: CRC-8 with initial value 0. -/
def crc8 (bs : List Byte) : Nat :=
  bs.foldl (fun c b => (List.range 8).foldl (fun c _ => crc8Bit c) (c ^^^ b.toNat)) 0

/-- The fields of a click header (R190), CCRC and HCHK apart. -/
structure ClickHead where
  stream : Nat
  inLen  : Nat
  dataLen : Nat
  raw    : Bool
  reset  : Bool
  ends   : Bool
  recStart : Bool
  cutFlush : Bool
  deriving DecidableEq, Repr

/-- Bits [39:0] of header bytes 10 to 15 (R190). -/
def ClickHead.bits (h : ClickHead) : Nat :=
  h.inLen % 2 ^ 17 + h.dataLen % 2 ^ 17 * 2 ^ 17 + b2n h.raw * 2 ^ 34 + b2n h.reset * 2 ^ 35 + b2n h.ends * 2 ^ 36
    + b2n h.recStart * 2 ^ 37 + b2n h.cutFlush * 2 ^ 38

/-- The 16 header bytes of a click with input `input` (R190, R191). -/
def ClickHead.bytes (h : ClickHead) (input : List Byte) : List Byte :=
  let body := leBytes 8 (crc64 input) ++ leBytes 2 h.stream ++ leBytes 5 h.bits
  body ++ leBytes 1 (crc8 body)

/-- The fields of 16 header bytes (R190). -/
def ClickHead.ofBytes (bs : List Byte) : ClickHead :=
  let v := fieldAt bs 10 5
  ⟨fieldAt bs 8 2, v % 2 ^ 17, v / 2 ^ 17 % 2 ^ 17, bitAt v 34, bitAt v 35, bitAt v 36, bitAt v 37, bitAt v 38⟩

/-- The end list of R192; empty where no record ends in the click. -/
def endList (ends : List Nat) : List Byte :=
  if ends.isEmpty then [] else leBytes 2 ends.length ++ ends.flatMap (leBytes 2)

/-- Bytes of the end list for N ends. -/
def endBytes (n : Nat) : Nat := if n = 0 then 0 else 2 + 2 * n

/-- The entries of an end list that begins the click data, and the data after it (R192). -/
def readEnds (n : Nat) (data : List Byte) : List Nat × List Byte :=
  match n with
  | 0 => ([], data)
  | n + 1 => let (es, rest) := readEnds n (data.drop 2); (fieldAt data 0 2 :: es, rest)

/-! ## Tokens (R196, R197) -/

/-- A token: a literal run, or a match of a length at a distance. -/
inductive Token where
  | lit (bytes : List Byte)
  | copy (len dist : Nat)
  deriving DecidableEq, Repr

/-- `n` literals from the bytes, or none where they do not lie within the body. -/
def takeLit (n : Nat) (bs : List Byte) : Option (Token × List Byte) :=
  if n ≤ bs.length then some (.lit (bs.take n), bs.drop n) else none

/-- The first token of a body and the bytes after it; none where the token's bytes do not lie within the body (R196). -/
def nextToken (body : List Byte) : Option (Token × List Byte) :=
  match body with
  | [] => none
  | t :: rest =>
    let v := t.toNat
    match v / 64 with
    | 0 =>
      if v ≤ 61 then takeLit (v + 1) rest
      else if v = 62 then (match rest with | e :: rest => takeLit (63 + e.toNat) rest | [] => none)
      else (match rest with | e :: f :: rest => takeLit (319 + e.toNat + 256 * f.toNat) rest | _ => none)
    | 1 => match rest with
      | e :: rest => some (.copy (v / 8 % 8 + 3) (v % 8 * 256 + e.toNat + 1), rest)
      | [] => none
    | 2 => match rest with
      | e :: f :: rest => some (.copy (v % 64 + 3) (e.toNat + 256 * f.toNat + 1), rest)
      | _ => none
    | _ => match rest with
      | e :: f :: g :: rest =>
        let w := e.toNat + 256 * f.toNat + 65536 * g.toNat
        let c := w / 2 ^ 18
        let δ := w % 2 ^ 18 + 1
        if c ≤ 61 then some (.copy (c + 4) δ, rest)
        else if c = 62 then (match rest with | x :: rest => some (.copy (66 + x.toNat) δ, rest) | [] => none)
        else (match rest with | x :: y :: rest => some (.copy (322 + x.toNat + 256 * y.toNat) δ, rest) | _ => none)
      | _ => none

/-- Output bytes of a token. -/
def Token.length : Token → Nat
  | .lit bs => bs.length
  | .copy n _ => n

/-- A match: `n` bytes, each the byte `δ` positions back, the latest byte standing first (R197). -/
def copyBack (δ : Nat) : Nat → List Byte → List Byte
  | 0, h => h
  | n + 1, h => copyBack δ n (h.getD (δ - 1) 0 :: h)

/-- The history after a token, latest byte first; none where the match reaches back beyond it (R197). -/
def Token.apply (t : Token) (h : List Byte) : Option (List Byte) :=
  match t with
  | .lit bs => some (bs.reverse ++ h)
  | .copy n δ => if (h.drop (δ - 1)).isEmpty then none else some (copyBack δ n h)

/-- Decode a body with `left` bytes of output to come; the history stands latest byte first. The body ends exactly when
the output is complete (R197). -/
def decodeBody : Nat → List Byte → List Byte → Nat → Option (List Byte)
  | 0, body, h, left => if left = 0 && body.isEmpty then some h else none
  | n + 1, body, h, left =>
    if left = 0 then (if body.isEmpty then some h else none)
    else match nextToken body with
      | none => none
      | some (t, rest) =>
        if left < t.length then none
        else match t.apply h with
          | none => none
          | some h => decodeBody n rest h (left - t.length)

/-- The reach of a match: 256 KiB of history (R194). -/
def reach : Nat := 262144

/-- The bytes that a ZC1 body decodes to, after history `hist` (latest byte first) (R197). -/
def zc1Decode (hist body : List Byte) (inLen : Nat) : Option (List Byte) :=
  (decodeBody body.length body (hist.take reach) inLen).map fun h => (h.take inLen).reverse

/-- The longest match of a body. -/
def longestMatch : Nat → List Byte → Nat
  | 0, _ => 0
  | n + 1, body =>
    match nextToken body with
    | none => 0
    | some (.lit _, rest) => longestMatch n rest
    | some (.copy k _, rest) => max k (longestMatch n rest)

/-- Whether T[5:0] of every long match of a body is 0 (R196). -/
def longClean : Nat → List Byte → Bool
  | 0, _ => true
  | n + 1, body =>
    let t := (body.headD 0).toNat
    match nextToken body with
    | none => true
    | some (_, rest) => (decide (t < 192) || t == 192) && longClean n rest

/-! ## Coding (R193, R200; log 8) -/

/-- A body of literal runs alone, the one choice of tokens that is always valid. -/
def literalBody (input : List Byte) : List Byte :=
  let n := input.length
  if n ≤ 62 then leBytes 1 (n - 1) ++ input
  else if n ≤ 318 then leBytes 1 62 ++ leBytes 1 (n - 63) ++ input
  else leBytes 1 63 ++ leBytes 2 (n - 319) ++ input

/-- The ZC1 body that the encoder makes: its own choice of tokens where that choice is valid, writes T[5:0] of long matches as 0 (R196)
and under the limit of R193 has no match longer than 66 bytes; else literal runs (log 8). -/
def zc1Body (hist input : List Byte) (level : Nat) (limited : Bool) : List Byte :=
  let b := Config.zc1Encode hist input level limited
  if zc1Decode hist b input.length = some input && longClean b.length b && (!limited || decide (longestMatch b.length b ≤ 66)) then b
  else literalBody input

/-- The ratio condition of R193. -/
def ratioOk (inLen dataLen : Nat) : Bool := decide (inLen ≤ 64 * (dataLen + 16))

/-- What coding a click gives: its bytes, whether it is raw, whether it was coded again, whether the check failed. -/
structure Coded where
  bytes  : List Byte
  raw    : Bool
  recode : Bool
  miss   : Bool
  deriving DecidableEq, Repr

/-- Code a click (R192, R193, R200). `h` gives the header's flags; `body` is what the engine makes of the input, limited
or not; with `check`, a body that does not decode to the input makes the click raw. -/
def codeClick (h : ClickHead) (hist input : List Byte) (ends : List Nat) (check : Bool) (body : Bool → List Byte) : Coded :=
  let es := endList ends
  let b0 := body false
  let again := !ratioOk input.length (es.length + b0.length)
  let b := if again then body true else b0
  let shorter := decide (b.length < input.length) && ratioOk input.length (es.length + b.length)
  let miss := check && shorter && zc1Decode hist b input.length != some input
  let raw := !shorter || miss
  let data := es ++ (if raw then input else b)
  let h := { h with inLen := input.length, dataLen := data.length, raw := raw, ends := !ends.isEmpty }
  ⟨h.bytes input ++ data, raw, again, miss⟩

/-! ## The guards (R205, R207) -/

/-- What decoding a click gives: its input and record ends, a refusal by a guard, or a refusal for CCRC. -/
inductive Decoded where
  | input (bytes : List Byte) (ends : List Nat)
  | guard
  | crc
  deriving DecidableEq, Repr

/-- Whether the entries increase and stay below a length. -/
def risingBelow (limit : Nat) : List Nat → Bool
  | [] => true
  | [a] => decide (a < limit)
  | a :: b :: rest => decide (a < b) && risingBelow limit (b :: rest)

/-- Decode a click whose pieces joined are `bs`, with the STREAM of its manifest entry and the history (latest byte
first), under the guards of R205. -/
def decodeClick (stream : Nat) (hist bs : List Byte) : Decoded :=
  if bs.length < 16 then .guard
  else if crc8 (bs.take 15) ≠ fieldAt bs 15 1 then .guard
  else
    let h := ClickHead.ofBytes bs
    let data := bs.drop 16
    if h.inLen = 0 || decide (65536 < h.inLen) || h.dataLen = 0 || decide (65536 < h.dataLen) then .guard
    else if data.length ≠ h.dataLen || h.stream ≠ stream then .guard
    else
      let n := if h.ends then fieldAt data 0 2 else 0
      let (ends, body) := if h.ends then readEnds n (data.drop 2) else ([], data)
      if h.ends && (n = 0 || decide (data.length < endBytes n) || !risingBelow h.inLen ends) then .guard
      else
        let hist := if h.reset then [] else hist
        let out := if h.raw then (if h.dataLen = endBytes n + h.inLen then some body else none)
          else zc1Decode hist body h.inLen
        match out with
        | none => .guard
        | some input => if crc64 input = fieldAt bs 0 8 then .input input ends else .crc

end Sys2Proof.Machine
end

