-- ==== Sys2Proof/Machine/Segment.lean ====
section
/-!
DEFINITION. The track segment (R37 to R43): header, scrambler (R96), the 32/33 code (R97, R98), welts and layout; the
manifest (R49 to R51) and the heel record (R55).
-/
namespace Sys2Proof.Machine

/-! ## The 32/33 modulation code -/

/-- The longest run of zeros (false), as (start, length); the first of equal runs. `i` is the place of the list's head,
`s` and `n` the run that ends before it, `b` the best run so far. -/
def longestRun : Nat → Nat → Nat → Nat × Nat → List Bool → Nat × Nat
  | _, s, n, b, [] => if b.2 < n then (s, n) else b
  | i, s, n, b, x :: xs =>
    if x then longestRun (i + 1) (i + 1) 0 (if b.2 < n then (s, n) else b) xs
    else longestRun (i + 1) s (n + 1) b xs

/-- The `n` low bits of a number, most significant first. -/
def msbBits : Nat → Nat → List Bool
  | 0, _ => []
  | n + 1, v => bitAt v n :: msbBits n v

/-- The number that bits spell, most significant first. -/
def ofMsb (bs : List Bool) : Nat := bs.foldl (fun a b => 2 * a + b2n b) 0

/-- The 33 channel bits of a modulation word (R97). -/
def modWord (ds : List Bool) : List Bool :=
  let (s, l) := longestRun 0 0 0 (0, 0) ds
  if l ≤ 16 then true :: ds
  else
    [false, true] ++ msbBits 5 s ++ [true] ++ msbBits 4 (l - 17) ++ [true] ++ (ds.take s ++ ds.drop (s + l))
      ++ List.replicate (l - 12) true

/-- The modulation word that 33 channel bits spell; none where the word is not valid (R98). -/
def demodWord (cs : List Bool) : Option (List Bool) :=
  match cs with
  | true :: ds => some ds
  | false :: _ =>
    let s := ofMsb ((cs.drop 2).take 5)
    let l := 17 + ofMsb ((cs.drop 8).take 4)
    let others := (cs.drop 13).take (32 - l)
    let near := (s == 0 || others.getD (s - 1) false) && (32 ≤ s + l || others.getD s false)
    if cs.getD 1 false && cs.getD 7 false && cs.getD 12 false && decide (s + l ≤ 32)
        && (cs.drop (13 + (32 - l))).all id && near
    then some (others.take s ++ List.replicate l false ++ others.drop s) else none
  | [] => none

/-- Bits cut into words of `n`. -/
def cutBits (n : Nat) : Nat → List Bool → List (List Bool)
  | 0, _ => []
  | k + 1, bs => bs.take n :: cutBits n k (bs.drop n)

/-- The bits of bytes, bit 0 of the lowest byte first. -/
def byteBits (bs : List Byte) : List Bool := bs.flatMap fun b => (List.range 8).map fun i => b.getLsbD i

/-! ## The scrambler (R96) -/

/-- The load value of the scrambler. -/
def scramSeed (codeword track slot member : Nat) : Nat :=
  2 ^ 38 + codeword % 8 * 2 ^ 35 + track % 256 * 2 ^ 27 + slot % 2 ^ 20 * 2 ^ 7 + member % 4 * 2 ^ 5 + 0b10101

/-- `n` scrambler outputs from a register value. -/
def scramBits : Nat → Nat → List Bool
  | 0, _ => []
  | n + 1, s =>
    let o := bitAt s 38 != bitAt s 34
    o :: scramBits n ((2 * s + b2n o) % 2 ^ 39)

/-- The scrambler outputs for a codeword. -/
def scramOf (codeword track slot member : Nat) : List Bool := scramBits 9216 (scramSeed codeword track slot member)

/-- Scramble or descramble bits. -/
def scramble (o bits : List Bool) : List Bool := List.zipWith (fun a b => a != b) o bits

/-! ## The header (R43, R44) -/

/-- A data-set header without TRACK. -/
structure Header where
  typ        : Nat
  flushEnd   : Bool
  band       : Nat
  width      : Nat
  member     : Nat
  lane       : Nat
  wrap       : Nat
  slot       : Nat
  group      : Nat
  index      : Nat
  copy       : Nat
  groupCount : Nat
  generation : Nat
  dsSeq      : Nat
  deriving DecidableEq, Repr

/-- The 28 bytes of a header on a track; WIDTH holds m − 1. -/
def Header.bytes (h : Header) (track : Nat) : List Byte :=
  let body := leBytes 1 1 ++ leBytes 1 (h.typ % 8 + 8 * b2n h.flushEnd) ++ leBytes 1 track
    ++ leBytes 1 (h.band % 4 + (h.width - 1) % 4 * 4 + h.member % 4 * 16) ++ leBytes 1 (h.lane % 64) ++ leBytes 1 h.wrap
    ++ leBytes 3 (h.slot % 2 ^ 20) ++ leBytes 2 (h.group % 2 ^ 14) ++ leBytes 1 (h.index % 64) ++ leBytes 1 (h.copy % 16)
    ++ leBytes 1 (h.groupCount % 64) ++ leBytes 4 h.generation ++ leBytes 6 h.dsSeq
  body ++ leBytes 4 (crc32c body)

/-- The header that 28 bytes hold; reserved bits are ignored. -/
def Header.ofBytes (bs : List Byte) : Header :=
  ⟨fieldAt bs 1 1 % 8, bitAt (fieldAt bs 1 1) 3, fieldAt bs 3 1 % 4, fieldAt bs 3 1 / 4 % 4 + 1, fieldAt bs 3 1 / 16 % 4,
    fieldAt bs 4 1 % 64, fieldAt bs 5 1, fieldAt bs 6 3 % 2 ^ 20, fieldAt bs 9 2 % 2 ^ 14, fieldAt bs 11 1 % 64,
    fieldAt bs 12 1 % 16, fieldAt bs 13 1 % 64, fieldAt bs 14 4, fieldAt bs 18 6⟩

/-- A track's header, when it is valid (R45): HCRC checks, TRACK is the track read, and FORMAT and TYPE are ones that a
reader takes (R43, R44). -/
def Header.ofTrack (bs : List Byte) (track : Nat) : Option Header :=
  let h := Header.ofBytes bs
  if bs.length = 28 && fieldAt bs 24 4 == crc32c (bs.take 24) && fieldAt bs 2 1 == track && fieldAt bs 0 1 == 1
      && decide (1 ≤ h.typ) && decide (h.typ ≤ 5)
  then some h else none

/-! ## Layout (R37 to R42) -/

/-- Whether a place of a slot (0 to 76,799 from its lowest position) lies in a welt (R37). -/
def inWelt (slot pos : Nat) : Bool :=
  (150 * slot + pos / 512) % 32 == 0 && decide (384 ≤ pos % 512) && decide (pos % 512 < 480)

/-- The welt bit at a phase on a track at an even or odd lane (R40). -/
def weltBit (oddLane : Bool) (phase : Nat) : Bool :=
  let lo := if oddLane then 432 else 392
  decide (lo ≤ phase) && decide (phase < lo + 40) && phase % 2 == 0

/-- The places of a slot in the order in which they pass. -/
def passOrder (reverse : Bool) : List Nat :=
  if reverse then (List.range 76800).map fun i => 76799 - i else List.range 76800

/-- The sync pattern (R41). -/
def syncBits : List Bool := (true :: List.replicate 19 false) ++ (true :: List.replicate 19 false)

/-- The tail pad's bit `i` (R42). -/
def padBit (i : Nat) : Bool := i % 4 == 0

/-- Lay content into the places that welts leave free; after the content, the pad (R38, R100, R101). -/
def layBits (slot : Nat) (oddLane : Bool) : List Nat → List Bool → Nat → List Bool
  | [], _, _ => []
  | p :: ps, cs, k =>
    if inWelt slot p then weltBit oddLane (p % 512) :: layBits slot oddLane ps cs k
    else match cs with
      | c :: cs => c :: layBits slot oddLane ps cs k
      | [] => padBit k :: layBits slot oddLane ps [] (k + 1)

/-- Header words, sync and merge bit: the first 272 content bits (R38). -/
def headBits (header : List Byte) : List Bool :=
  syncBits ++ ((cutBits 32 7 (byteBits header)).flatMap modWord) ++ [false]

/-- The content bits of C1 codeword c of a track (R48, R95): encoded, scrambled and modulated. -/
def codewordBits (c track slot member : Nat) (bytes : List Byte) : List Bool :=
  (cutBits 32 288 (scramble (scramOf c track slot member) (c1Encode bytes))).flatMap modWord

/-- The content bits of a track's segment: header and eight codewords of the track's 8,192 bytes; a gap has its header
alone (R38, R102). -/
def segmentContent (h : Header) (track : Nat) (bytes : List Byte) : List Bool :=
  headBits (h.bytes track) ++ (if h.typ = 5 then [] else
    (List.range 8).flatMap fun c => codewordBits c track h.slot h.member ((bytes.drop (1024 * c)).take 1024))

/-- The logical track that a physical track carries in a slot (R46). -/
def logicalTrack (slot track : Nat) : Nat := (track + 256 - 16 * (slot % 16) + 240) % 256

/-- The offset of a logical track's bytes in a data-set buffer (R46, R148). -/
def trackOffset (logical : Nat) : Nat := 8192 * logical

/-- The content places of a slot in pass order: where each content bit lies, counted in pass order (R38). -/
def contentPlaces (slot : Nat) (reverse : Bool) : List Nat :=
  ((passOrder reverse).zipIdx.filter fun x => !inWelt slot x.1).map Prod.snd

/-! ## Manifest and heel record -/

/-- A piece entry (R50). -/
structure PieceEntry where
  off    : Nat
  head   : Bool
  tail   : Bool
  raw    : Bool
  recEnd : Bool
  len    : Nat
  stream : Nat
  record : Nat
  deriving DecidableEq, Repr

/-- The 16 bytes of a piece entry. -/
def PieceEntry.bytes (e : PieceEntry) : List Byte :=
  leBytes 3 e.off ++ leBytes 1 (b2n e.head + 2 * b2n e.tail + 4 * b2n e.raw + 8 * b2n e.recEnd) ++ leBytes 3 e.len
    ++ leBytes 1 0 ++ leBytes 2 e.stream ++ leBytes 6 e.record

/-- The piece entry that 16 bytes hold. -/
def PieceEntry.ofBytes (bs : List Byte) : PieceEntry :=
  let f := fieldAt bs 3 1
  ⟨fieldAt bs 0 3 % 2 ^ 21, bitAt f 0, bitAt f 1, bitAt f 2, bitAt f 3, fieldAt bs 4 3 % 2 ^ 17, fieldAt bs 8 2, fieldAt bs 10 6⟩

/-- The 4,096 bytes of a manifest (R49): FILL, GENERATION, DS_SEQ, the boot counter, the device's reference, the entries. -/
def manifestBytes (fill generation dsSeq boot : Nat) (ref : BitVec 64) (es : List PieceEntry) : List Byte :=
  let head := leBytes 4 0x31464D5A ++ leBytes 2 es.length ++ leBytes 2 0 ++ leBytes 3 fill ++ leBytes 1 0 ++ leBytes 4 generation
    ++ leBytes 6 dsSeq ++ leBytes 4 boot ++ leBytes 8 ref.toNat ++ leBytes 30 0
  let body := fitTo 4092 (head ++ es.flatMap PieceEntry.bytes)
  body ++ leBytes 4 (crc32c body)

/-- A payload with its manifest stamped by the device that writes it (R49): BOOT_COUNT, DEVICE_REF and MF_CRC. -/
def stampManifest (boot : Nat) (ref : BitVec 64) (payload : List Byte) : List Byte :=
  let body := payload.take 22 ++ leBytes 4 boot ++ leBytes 8 ref.toNat ++ (payload.drop 34).take 4058
  body ++ leBytes 4 (crc32c body) ++ payload.drop 4096

/-- Whether a manifest's MF_CRC checks. -/
def manifestOk (bs : List Byte) : Bool := fieldAt bs 4092 4 == crc32c (bs.take 4092)

/-- The entries of a manifest. -/
def manifestEntries (bs : List Byte) : List PieceEntry :=
  (List.range (min 251 (fieldAt bs 4 2))).map fun i => PieceEntry.ofBytes ((bs.drop (64 + 16 * i)).take 16)

/-- The 64 bytes of a heel record (R55). -/
def heelBytes (lastSeq lastGroup groups dataSets commit : Nat) : List Byte :=
  let body := leBytes 6 lastSeq ++ leBytes 2 lastGroup ++ leBytes 2 groups ++ leBytes 6 dataSets ++ leBytes 6 commit ++ leBytes 38 0
  body ++ leBytes 4 (crc32c body)

/-- Whether a heel record's HRCRC checks. -/
def heelOk (bs : List Byte) : Bool := fieldAt bs 60 4 == crc32c (bs.take 60)

end Sys2Proof.Machine
end

