-- ==== Sys2Proof/Machine/Sparse.lean ====
section
/-!
DEFINITION. Sparse storage in one canonical form: a list of (key, value) pairs with strictly rising keys and no pair
equal to what an unlisted key reads as. The register file and every memory use it.
-/
namespace Sys2Proof.Machine

/-- The value at key `a`, where unlisted keys read as `dflt` says. -/
def sparseGet {β : Type} (dflt : Nat → β) : List (Nat × β) → Nat → β
  | [], a => dflt a
  | (k, v) :: rest, a => if a = k then v else sparseGet dflt rest a

/-- Drop key `a`: it reads as an unlisted key. -/
def sparseErase {β : Type} (m : List (Nat × β)) (a : Nat) : List (Nat × β) := m.filter fun x => x.1 != a

/-- List `v` at key `a`, before the first greater key. -/
def sparseInsert {β : Type} : List (Nat × β) → Nat → β → List (Nat × β)
  | [], a, v => [(a, v)]
  | (k, w) :: rest, a, v => if a < k then (a, v) :: (k, w) :: rest else (k, w) :: sparseInsert rest a v

/-- Store `v` at key `a`, keeping the canonical form. -/
def sparsePut {β : Type} [DecidableEq β] (dflt : Nat → β) (m : List (Nat × β)) (a : Nat) (v : β) : List (Nat × β) :=
  if v = dflt a then sparseErase m a else sparseInsert (sparseErase m a) a v

/-- Every listed key is at least `lo`, keys rise strictly, and no listed value is the unlisted one. -/
def sparseFrom {β : Type} [DecidableEq β] (dflt : Nat → β) : Nat → List (Nat × β) → Bool
  | _, [] => true
  | lo, (k, v) :: rest => decide (lo ≤ k) && decide (v ≠ dflt k) && sparseFrom dflt (k + 1) rest

/-- The canonical form. -/
def sparseWf {β : Type} [DecidableEq β] (dflt : Nat → β) (m : List (Nat × β)) : Bool := sparseFrom dflt 0 m

/-- A byte memory. -/
abbrev Memory := List (Nat × BitVec 8)

/-- What a byte of DDR5, FeRAM or cobbler memory that nothing has written reads as (log 6). -/
def zeroByte (_ : Nat) : Byte := 0

/-- What a byte of NOR that nothing has programmed reads as: erased flash (log 6). -/
def erasedByte (_ : Nat) : Byte := 0xFF

/-- The canonical form of a memory whose unlisted bytes read as `dflt`. -/
def Memory.wf (dflt : Nat → Byte) (m : Memory) : Bool := sparseWf dflt m

/-- One byte of a memory. -/
def Memory.byte (dflt : Nat → Byte) (m : Memory) (a : Nat) : Byte := sparseGet dflt m a

/-- Store one byte. -/
def Memory.store (dflt : Nat → Byte) (m : Memory) (a : Nat) (b : Byte) : Memory := sparsePut dflt m a b

/-- `n` bytes from address `a` up. -/
def Memory.bytes (dflt : Nat → Byte) (m : Memory) : Nat → Nat → List Byte
  | _, 0 => []
  | a, n + 1 => m.byte dflt a :: Memory.bytes dflt m (a + 1) n

/-- Store a list of bytes from address `a` up. -/
def Memory.storeAll (dflt : Nat → Byte) (m : Memory) : Nat → List Byte → Memory
  | _, [] => m
  | a, b :: bs => Memory.storeAll dflt (m.store dflt a b) (a + 1) bs

end Sys2Proof.Machine
end

