-- ==== Sys2Proof/Machine/State.lean ====
section
/-!
DEFINITION. The state of the block: plain data, one home for each piece of state the spec gives the device, grouped by
block, and the state right after reset. Words and fields of registers live in `Dev.regs`, unless INVENTORY.md names
another home for them.
-/
namespace Sys2Proof.Machine

/-! ## Device state, power and management (chapters 01, 15, 17, 18) -/

/-- The device states of R21. -/
inductive DevState where
  | startUp | recovery | idle | loaded | streaming | maintenance | standby
  deriving DecidableEq, Repr

/-- Wake settings copied to the always-on domain at entry to standby (R485). -/
structure WakeCopy where
  railMs   : Nat
  wakeS    : Nat
  wakeCart : Bool
  wakePin  : Bool
  deriving DecidableEq, Repr

/-- A NOR operation in progress (R500): OP, ADDR and, for an SFDP read, the page that the flash gives. -/
structure NorOp where
  op   : Nat
  addr : Nat
  page : List Byte
  deriving DecidableEq, Repr

/-- Block GLB: what is held outside its registers. -/
structure Glb where
  /-- R21, R26. -/
  dev : DevState
  /-- R26: the state before the last change. -/
  prev : DevState
  /-- R26: STATE_CHANGES. -/
  changes : Nat
  /-- R22, R26: the connection that holds maintenance. -/
  maintConn : Option Nat
  /-- R22: the state to which maintenance returns. -/
  beforeMaint : DevState
  /-- R469: PORST_N is low. -/
  porstLow : Bool
  /-- R469, R550: the straps sampled at the last release. -/
  straps : Straps
  /-- R484: a standby request held by the STANDBY_REQ role. -/
  standbyHeld : Bool
  /-- R485: the wake settings in the always-on domain. -/
  wake : WakeCopy
  /-- R486: RAIL_EN is active. -/
  railEn : Bool
  /-- R486: a wake event has been taken and the rails are rising. -/
  waking : Bool
  /-- R474: the slot with which the last attempt began. -/
  firstSlotB : Bool
  /-- R476: the remaining wait is held. -/
  retryHeld : Bool
  /-- R511: the boot counter of this start. -/
  bootCount : Nat
  /-- R533: the thermal reset is held. -/
  thermalHold : Bool
  /-- R561: the brown-out reset is held. -/
  brownOut : Bool
  /-- R533: THERMAL_WARNING may be logged. -/
  warnArmed : Bool
  /-- R533: TJ_NOW was at or above TJ_CRIT at the last sample. -/
  wasCrit : Bool
  /-- R522: TIMEs of the watchdog restarts, newest first. -/
  wdogTimes : List Nat
  /-- R555: an interlock stop is in force (bit 0 door, bit 1 loader). -/
  interlock : Nat
  /-- R500: a NOR operation in progress. -/
  norOp : Option NorOp
  deriving DecidableEq, Repr

/-! ## Pools and FIFOs (chapter 11) -/

/-- A buffer of a pool (R341, R342). -/
structure Buf where
  gen    : Nat
  owners : Nat
  deriving DecidableEq, Repr

/-- A pool (R340 to R348). Buffers from `fresh` up that are not in `moved` have never been granted and are the longest
free; `freed` lists the others in the order in which they became free. -/
structure Pool where
  count   : Nat
  fresh   : Nat
  moved   : List Nat
  freed   : List Nat
  bufs    : List (Nat × Buf)
  on1     : Bool
  on2     : Bool
  on3     : Bool
  peak    : Nat
  waiting : List (Nat × Nat)
  deriving DecidableEq, Repr

/-- The pointers of a FIFO of the family (R351, R354). -/
structure Fifo where
  wr   : Nat
  rd   : Nat
  mark : Option Nat
  deriving DecidableEq, Repr

/-! ## Host ports (chapter 09) -/

/-- The states of a connection that is not CLOSED (R275). -/
inductive CState where
  | synRcvd | established | closeWait | lastAck
  deriving DecidableEq, Repr

/-- The bytes of an outgoing message (R282): `head` in on-die status memory, then runs of DDR (address and length). -/
structure Payload where
  head  : List Byte
  parts : List (Nat × Nat)
  deriving DecidableEq, Repr

/-- A message from the device: its TYPE, the class it serves (0 to 4, R260), its payload, the command whose STATUS it
is, and the buffers that HPT owns for it. -/
structure Msg where
  id      : Nat
  typ     : Nat
  cls     : Nat
  payload : Payload
  length  : Nat
  status  : Option Nat
  bufs    : List Nat
  deriving DecidableEq, Repr

/-- A segment descriptor of a transmit FIFO (R282). -/
structure Desc where
  seq    : Word
  msg    : Nat
  typ    : Nat
  cls    : Nat
  first  : Bool
  last   : Bool
  msgLen : Nat
  off    : Nat
  len    : Nat
  sends  : Nat
  sacked : Bool
  fastAt : Option Nat
  deriving DecidableEq, Repr

/-- A segment accepted and not yet handed over (R271), with its payload in `head`. -/
structure RSeg where
  seq    : Word
  typ    : Nat
  first  : Bool
  last   : Bool
  msgLen : Nat
  off    : Nat
  len    : Nat
  head   : List Byte
  deriving DecidableEq, Repr

/-- A P0 granule taken for record bytes: the segment that took it, its index in the message and its handle. -/
structure Gran where
  seq    : Word
  index  : Nat
  handle : Nat
  deriving DecidableEq, Repr

/-- A connection (R272 to R288). `isn` and `hostIsn` are the initial numbers of the device and of the host; `rcvNext` is the ACK that the device sends and `rcvEdge` the right edge that it has
advertised; `msgs` are the messages not wholly acknowledged, of which the first `cutIx` lie in the transmit FIFO whole and
`cutOff` bytes of the next; `tx` is the transmit FIFO from the mark on and `rp` its read pointer. -/
structure Conn where
  id       : Nat
  st       : CState
  port     : Nat
  host     : IPv6
  hostPort : Nat
  hostId   : Nat
  epoch    : Nat
  flow     : Word
  queue    : Nat
  peerMss  : Nat
  isn      : Word
  hostIsn  : Word
  rcvNext  : Word
  rcvEdge  : Word
  rcv      : List RSeg
  lastRcv  : Option Word
  grans    : List Gran
  creditCut : Nat
  unacked  : Nat
  sndUna   : Word
  sndNext  : Word
  peerEdge : Word
  msgs     : List Msg
  cutIx    : Nat
  cutOff   : Nat
  tx       : List Desc
  rp       : Nat
  deriving DecidableEq, Repr

/-- The timers of a connection (R288), in ns. -/
structure Timers where
  id        : Nat
  srtt      : Option Nat
  rttvar    : Nat
  rto       : Nat
  expiries  : Nat
  tsEcho    : BitVec 32
  probes    : Nat
  synTries  : Nat
  deriving DecidableEq, Repr

/-- A control segment that waits for its port (R280): an acknowledgement of a connection, with or without ACK_NOW, or
a segment complete in itself. -/
inductive Ctrl where
  | ack (conn : Nat) (now : Bool)
  | seg (s : Seg)
  deriving DecidableEq, Repr

/-- A neighbour cache entry (R263). -/
structure Neighbor where
  ip  : IPv6
  mac : Word
  deriving DecidableEq, Repr

/-- A host port (R261, R263, R291). -/
structure Port where
  paused    : List Nat
  storms    : List Nat
  dupLocal  : Bool
  dupGlobal : Bool
  dadLocal  : Bool
  dadGlobal : Bool
  neighbors : List Neighbor
  deriving DecidableEq, Repr

/-- Block HPT. -/
structure Hpt where
  conns   : List Conn
  timers  : List Timers
  setups  : List (Nat × Nat)
  ports   : List Port
  ctrl    : List (Nat × Ctrl)
  turn    : List (Nat × Nat)
  unknown : List (IPv6 × Nat)
  nextMsg : Nat
  deriving DecidableEq, Repr

/-! ## Commands (chapter 10) -/

/-- How far a command has come: queued (R304), accepted as a service or maintenance command, dispatched and not begun,
begun and waiting, finished and waiting for its turn to complete (R303), completed and not acknowledged (R305). -/
inductive Phase where
  | queued | accepted | dispatched | started
  | finished (status : Nat) (detail : List Byte) (already : Bool)
  | completed
  deriving DecidableEq, Repr

/-- A command (R298). `block` is the whole command block, `data` the P0 granules of its data bytes in order. -/
structure Cmd where
  h       : Nat
  queue   : Nat
  tag     : Nat
  opcode  : Nat
  cls     : Nat
  stream  : Nat
  block   : List Byte
  dataLen : Nat
  data    : List Nat
  phase   : Phase
  held    : Bool
  counts  : Bool
  inMaint : Bool
  motion  : Bool
  record  : Nat
  deriving DecidableEq, Repr

/-- A command queue: of a connection, or orphaned (R278) with the messages kept for an adopter (R324). -/
structure Queue where
  id     : Nat
  host   : IPv6
  hostId : Nat
  epochs : List Nat
  conn   : Option Nat
  frozen : Bool
  kept   : List Msg
  orphanAt : Nat
  deriving DecidableEq, Repr

/-- A log entry (R327); LOG_SEQ, TIME, BOOT_COUNT and LCRC complete it. -/
structure LogEntry where
  seq    : Word
  time   : Nat
  boot   : Nat
  epoch  : Nat
  kind   : Nat
  conn   : Nat
  hostId : Nat
  tag    : Nat
  opcode : Nat
  flags  : Nat
  status : Nat
  stream : Nat
  record : Nat
  detail : List Byte
  deriving DecidableEq, Repr

/-- A FLUSH that waits (R315): its command, the commands and clicks it covers, how many commands were excluded, and the
latest commit that recorded one of its clicks. -/
structure Wait where
  h        : Nat
  covers   : List Nat
  clicks   : List Nat
  excluded : Nat
  commit   : Word
  deriving DecidableEq, Repr

/-- Block CQM. -/
structure Cqm where
  nextH   : Nat
  cmds    : List Cmd
  queues  : List Queue
  nextQ   : Nat
  deficit : List Int
  visit   : Nat
  granted : Bool
  log     : List LogEntry
  logSeq  : Word
  owed    : List LogEntry
  waits   : List Wait
  deriving DecidableEq, Repr

/-! ## Streams, clicks and engines (chapters 07 and 08) -/

/-- A run of record bytes in a P0 granule: the granule's handle, the offset in it and the length. -/
structure Span where
  handle : Nat
  off    : Nat
  len    : Nat
  deriving DecidableEq, Repr

/-- The context of an open stream (R217). `owner` is the record that holds the open click's first byte; `ends` are the
offsets of the record ends in the open click; `fresh` says why the next click needs HIST_RESET (R195); `chain` numbers
the stream's newest chain; `chainFrom` is the first record of that chain and `chainAt` where its first click lies (wrap,
member, DS_SEQ, manifest entry). `slot` is the history slot, latest byte first, and `slotChain` the chain it serves. While the
context is spilled (R218), `spill` are the P4 granules of its history, `histLen` its length there and `spillAt` its place in the spill
table. -/
structure Ctx where
  id       : Nat
  stream   : Nat
  endCut   : Bool
  chainSet : Bool
  chainOpt : Nat
  affinity : Nat
  nextRec  : Word
  owner    : Word
  recStart : Bool
  open_    : List Span
  inLen    : Nat
  ends     : List Nat
  urgent   : Bool
  sinceReset : Nat
  fresh    : Bool
  chain    : Nat
  chainFrom : Word
  chainAt  : Option (Nat × Nat × Word × Nat)
  member   : Nat
  lastUse  : Nat
  onDie    : Bool
  slot     : List Byte
  slotChain : Nat
  spill    : List Nat
  histLen  : Nat
  spillAt  : Nat
  closing  : Bool
  deriving DecidableEq, Repr

/-- How far a click has come: cut, being coded on an engine, coded and waiting in the engine's output buffer, taken into
the P1 backlog, placed in data sets. -/
inductive ClickAt where
  | cut | coding (engine : Nat) | ready (engine : Nat) | staged | placed
  deriving DecidableEq, Repr

/-- A piece of a click in a data set (R50): the data set, the manifest entry, offset and length in its click area. -/
structure Piece where
  ds    : Nat
  entry : Nat
  off   : Nat
  len   : Nat
  head  : Bool
  tail  : Bool
  deriving DecidableEq, Repr

/-- A superseded data set whose clicks are placed again (R233, R464): its track group, wrap, group, INDEX and DS_SEQ. -/
structure Old where
  band   : Nat
  width  : Nat
  member : Nat
  wrap   : Nat
  group  : Nat
  index  : Nat
  dsSeq  : Word
  deriving DecidableEq, Repr

/-- A click (R187 to R195). `input` holds the input bytes from the start of its job on, `coded` the whole click,
of which `sent` bytes are placed; `redo` names the superseded data sets in which it lay, oldest first, and `source` the data set and
manifest entry from which it is placed again (R233), `remote` the number that a stripe master gives a click that it has sent (R456). -/
structure Click where
  id       : Nat
  ctx      : Nat
  stream   : Nat
  chain    : Nat
  reset    : Bool
  record   : Word
  recStart : Bool
  spans    : List Span
  inLen    : Nat
  ends     : List Nat
  cutFlush : Bool
  urgent   : Bool
  affinity : Nat
  member   : Nat
  at_      : ClickAt
  input    : List Byte
  raw      : Bool
  coded    : List Byte
  sent     : Nat
  pieces   : List Piece
  redo     : List Old
  source   : Option (Nat × Nat)
  remote   : Option Nat
  deriving DecidableEq, Repr

/-- What an engine runs: nothing, a compression job (a click), a decompression job (a read and a click of it). -/
inductive Job where
  | none | code (click : Nat) | decode (read : Nat) (click : Nat)
  deriving DecidableEq, Repr

/-- An engine (R198, R199): the chain it is bound to in compression, as (stream, chain), or in decompression, as a read and the
place of the chain's first click in it; the clicks of that chain completed by it (R212), its job, the coded clicks in its output
buffers and its history. -/
structure Engine where
  bound : Option (Nat × Nat)
  reading : Option (Nat × Nat)
  pos   : Nat
  job   : Job
  outs  : List Nat
  hist  : List Byte
  deriving DecidableEq, Repr

/-- Where a wanted data set lies: member, wrap, group and INDEX, and which of its manifest entries are meant (`count` of them
from `from_` on). -/
structure Source where
  member : Nat
  wrap  : Nat
  group : Nat
  index : Nat
  from_ : Nat
  count : Nat
  deriving DecidableEq, Repr

/-- Where the first piece of a click came from: slot, group, INDEX and class (R317). -/
structure Origin where
  slot  : Nat
  group : Nat
  index : Nat
  klass : Nat
  deriving DecidableEq, Repr

/-- A click that a read decodes (R203): its pieces joined, the manifest's STREAM and RECORD for it, whether every piece has
come, the first data set that held it, the status that refused it (0 none) and, once decoded, its input and record ends. -/
structure RClick where
  stream  : Nat
  record  : Word
  bytes   : List Byte
  whole   : Bool
  origin  : Origin
  refused : Nat
  out     : Option (List Byte × List Nat)
  deriving DecidableEq, Repr

/-- A READ_RECORD that decodes from tape (R203 to R207, R249): the command, the record, the data sets wanted in stream
order, the clicks found, the highest class read, the status of the first failure with its detail, and the P3 buffers for
the output; `back` says that the read has gone back to an earlier chain (R203), `asked` marks one that a cascade's master wants of its
member (R457), `h` numbering it. -/
structure Read where
  h       : Nat
  stream  : Nat
  record  : Word
  wants   : List Source
  clicks  : List RClick
  klass   : Nat
  fail    : Nat
  failDet : List Byte
  out     : List Nat
  back    : Bool
  asked   : Bool
  deriving DecidableEq, Repr

/-- Block CMP and the stream contexts. `table` are the P4 granules of the spill table (R218), `waiting` the jobs that wait for a
buffer and are counted (R213). -/
structure Strm where
  ctxs     : List Ctx
  clicks   : List Click
  engines  : List Engine
  reads    : List Read
  nextClick : Nat
  nextChain : Nat
  table    : List Nat
  waiting  : List Job
  deriving DecidableEq, Repr

/-! ## Placement, index, verify and error correction (chapters 02, 05, 06, 08) -/

/-- How far one copy of a data set has come: closed (step 2 of R15), folded, marked (step 4), written, read back by the
verify window, decided as passed or failed. -/
inductive Step where
  | closed | folded | marked | written | read | passed | failed
  deriving DecidableEq, Repr

/-- One copy of a data set on its way to the tape: where it is meant, its COPY and what befell it: provisional marks
(R81), an underrun or FIFO fault (R101, R178), no verify window (R79, R80), a loss of position (R86). -/
structure Copy where
  slot     : Nat
  copy     : Nat
  step     : Step
  wProv    : Bool
  rProv    : Bool
  underrun : Bool
  noWindow : Bool
  lost     : Bool
  deriving DecidableEq, Repr

/-- A data set in flight (R15, R16): the header values of R43 that all its copies share, the slot of its first copy, its
buffer, the clicks in it, the COMMIT of an in-line segment in it, whether it is its group's last data data set, and its
copies, oldest first. -/
structure DSet where
  id       : Nat
  typ      : Nat
  flushEnd : Bool
  band     : Nat
  width    : Nat
  member   : Nat
  lane     : Nat
  wrap     : Nat
  group    : Nat
  index    : Nat
  groupCount : Nat
  generation : Nat
  dsSeq    : Word
  first    : Nat
  handle   : Nat
  clicks   : List Nat
  segment  : Option Word
  last     : Bool
  passed   : Bool
  superseded : Bool
  copies   : List Copy
  deriving DecidableEq, Repr

/-- A stream run of a GROUP entry (R236). -/
structure Run where
  stream : Nat
  first  : Word
  last   : Word
  deriving DecidableEq, Repr

/-- A CHAIN entry (R236). -/
structure Chain where
  stream : Nat
  index  : Nat
  entry  : Nat
  first  : Word
  deriving DecidableEq, Repr

/-- A REPLACED entry (R236), or, where `moved` gives OLD_TG, OLD_WRAP, OLD_POSITION and OLD_DS_SEQ, a MOVED entry (R464). -/
structure Replaced where
  oldGroup : Nat
  oldIndex : Nat
  newIndex : Nat
  firstEntry : Nat
  entries  : Nat
  moved    : Option (Nat × Nat × Nat × Word)
  deriving DecidableEq, Repr

/-- A GROUP entry with its CHAIN and REPLACED entries (R236, R237). -/
structure GroupEntry where
  band      : Nat
  width     : Nat
  member    : Nat
  wrap      : Nat
  group     : Nat
  firstSlot : Nat
  lastSlot  : Nat
  generation : Nat
  count     : Nat
  noC3      : Bool
  sessEnd   : Bool
  segIndex  : Nat
  runs      : List Run
  chains    : List Chain
  replaced  : List Replaced
  deriving DecidableEq, Repr

/-- A SESSION entry (R236). -/
structure SessEntry where
  generation : Nat
  firstWrap  : Nat
  lastWrap   : Nat
  ended      : Nat
  startSlot  : Nat
  endSlot    : Nat
  lastCommit : Word
  deriving DecidableEq, Repr

/-- A STREAM entry (R236). -/
structure StreamEntry where
  stream   : Nat
  open_    : Bool
  endCut   : Bool
  affinity : Nat
  nextRec  : Word
  chainClicks : Nat
  deriving DecidableEq, Repr

/-- An entry that the index holds as bytes: BOOT (R513), IDENTITY (R514), and CASCADE (R463). -/
structure RawEntry where
  typ  : Nat
  body : List Byte
  deriving DecidableEq, Repr

/-- The index in DRAM (R235 to R245), with the entries merged since the last zone commit counted apart. -/
structure Index where
  sessions : List SessEntry
  groups   : List GroupEntry
  streams  : List StreamEntry
  raw      : List RawEntry
  commit   : Word
  genCeil  : Nat
  delta    : List (List Byte)
  deriving DecidableEq, Repr

/-- A commit of an in-line segment that awaits verify or merge (R238). -/
structure Commit where
  commit   : Word
  ds       : Nat
  verified : Bool
  merged   : Bool
  group    : List GroupEntry
  streams  : List StreamEntry
  session  : SessEntry
  deriving DecidableEq, Repr

/-- Where a copy of the insole zone stands (R239). -/
structure ZoneCopy where
  half : Nat
  next : Nat
  ok   : Bool
  deriving DecidableEq, Repr

/-- Where the next data set goes: the wrap with its band, first lane and width (R34), and a global slot. -/
structure Place where
  wrap  : Nat
  band  : Nat
  lane  : Nat
  width : Nat
  slot  : Nat
  deriving DecidableEq, Repr

/-- The open session (R221 to R230). `place` is where the next slot lies; `group` and `index` are those of the next data
set of the open group, `index` from 60 on while parity follows, `count` the data data sets of the group just closed and
`noParity` a group that lost its C3 (R155). `ending` says that the session ends, `closing` that its last group is closed,
`heel` is the heel's data set, `lost` that it ends for the
loss of a width member (R460), `owedGaps` slots meant for parity that are still to get a gap (R155), and `lastUsed` the last slot with a data set other than a gap (R231). -/
structure Session where
  generation : Nat
  firstWrap  : Nat
  startSlot  : Nat
  place      : Place
  dsSeq      : Word
  group      : Nat
  index      : Nat
  count      : Nat
  noParity   : Bool
  groupFirst : Nat
  groups     : Nat
  lastGroup  : Option Nat
  dataSets   : Nat
  ending     : Bool
  closing    : Bool
  endCommit  : Word
  heel       : Option Nat
  lastUsed   : Option Nat
  affMember  : List (Nat × Nat)
  lost       : Bool
  owedGaps   : Nat
  atEnd      : Bool
  deriving DecidableEq, Repr

/-- An in-line segment cached in P4 (R249): the member, wrap, group and generation that it describes, and its granules. -/
structure Segment where
  member  : Nat
  wrap    : Nat
  group   : Nat
  generation : Nat
  granules : List Nat
  deriving DecidableEq, Repr

/-- Block PLC. `groupNext` gives the next group number of a wrap; `staged` are the P1 buffers of the backlog, `parity` the P2 buffers that a
closed group holds for its parity (R20);
`pendingCopies` the failed data sets that await a copy (R177), oldest first slot first; `again` those to be placed again
with their COPY unchanged (R84, R177, R178); `replacing` REPLACED
entries of the open group (R233); `noC3` groups that ended under R155 and are not yet recorded; `runs`, `chains` and
`replacing` describe the open group of each member;
`changed` the streams to be named in the next segment, `streams` their entries as they stand; `recorded` is the latest
recorded commit; `far` holds the groups of other stripe members, MEMBER giving the stripe position (R457). `holdDone` says that a hold has come to its end, the gate closed; `stopped` the code that stopped
appending (R325) and `judged` that the lost records have been told. `sinceSpeed` counts slots since a speed was computed; `coded` and
`taken` are the click bytes that left the engines and the record bytes that the host took, each with its TIME, `readIn` and `readOut` the
bytes of the clicks read so far, coded and decoded (R229, R232); `segs` the segments cached in P4, least recently used first (R249);
`scanning` that a recovery scan runs (R254). -/
structure Plc where
  session   : Option Session
  appendAt  : Place
  groupNext : List (Nat × Nat)
  nextGen   : Nat
  dsets     : List DSet
  nextDs    : Nat
  staged    : List Nat
  parity    : List Nat
  pendingCopies : List Nat
  again     : List Nat
  replacing : List (Nat × Replaced)
  noC3      : List GroupEntry
  runs      : List (Nat × Run)
  chains    : List (Nat × Chain)
  changed   : List Nat
  streams   : List StreamEntry
  recorded  : Word
  hold      : Bool
  holdDone  : Bool
  holdCause : Nat
  lastAffinity : Nat
  stopped   : Option Nat
  judged    : Bool
  index     : Index
  commits   : List Commit
  zone      : ZoneCopy × ZoneCopy
  sinceSpeed : Nat
  coded     : List (Nat × Nat)
  taken     : List (Nat × Nat)
  readIn    : Nat
  readOut   : Nat
  segs      : List Segment
  scanning  : Bool
  warned    : Bool
  far       : List GroupEntry
  deriving DecidableEq, Repr

/-- The loaded cartridge (R319). -/
structure Cart where
  loaded   : Bool
  readOnly : Bool
  scanned  : Bool
  pack     : BitVec 32 × BitVec 32
  deriving DecidableEq, Repr

/-- A C1 report (R146). -/
structure C1Report where
  channel  : Nat
  codeword : Nat
  ok       : Bool
  iters    : Nat
  flips    : Nat
  pointers : Nat
  deriving DecidableEq, Repr

/-- A data set under decode (R45, R146, R169): the slot and wrap read, whether verify or a read wants it, the header bytes
found on each track, the sync offset of each track, the C1 reports, the P3 buffer and, once C2 has run, the codewords that
failed in every copy read and the COPY from which others were merged (R156), its data-set header, the tracks whose header is not valid or differs from it, the group and INDEX
it is read as, whether C2 corrected anything and the content checks of R151; in read mode, its class and the ladder steps
done. -/
structure Decode where
  slot    : Nat
  wrap    : Nat
  member  : Nat
  verify  : Bool
  headers : List (Nat × List Byte)
  syncs   : List (Nat × Int)
  reports : List C1Report
  handle  : Nat
  c2Bad   : Option (List Nat)
  head    : Option Header
  headerBad : List Nat
  group   : Nat
  index   : Nat
  corrected : Bool
  content : Bool
  klass   : Option Nat
  step    : Nat
  merged  : List (Nat × Nat)
  deriving DecidableEq, Repr

/-- Blocks ECC and VFY. The accumulator holds one 16-bit word for each parity q and symbol v at key 983,040 × q + v
(R153), and `accOpen` the open group with the data data sets folded (R166); `limit`: the dead-track limit has acted in this load
(R175); `held` the group, as (wrap, group), at steps 4 to 6 of the ladder (R163), `c3Seen` the groups under decode that C3 has
decoded (R167) and `pass` the group being read from its FIRST_SLOT with nothing of it given up (R250). -/
structure Ecc where
  acc      : List (Nat × BitVec 16)
  accOpen  : Option (Nat × Nat)
  limit    : Bool
  decodes  : List Decode
  pin      : Option Nat
  rereads  : Nat
  held     : Option (Nat × Nat)
  c3Seen   : List (Nat × Nat)
  pass     : Option (Nat × Nat)
  deadRuns : List (Nat × Nat)
  deadVfy  : List Nat
  deadHfm  : List Nat
  hfmGone  : List Nat
  deriving DecidableEq, Repr

/-- What a read channel has taken of a slot (R113, R123): its ADC samples from 64 channel bits before the predicted first bit to 64
after the last, for each eyelet the VGA gain and the timing-loop phase, and the place from which timing was lost. -/
structure TrackRead where
  channel : Nat
  samples : List Int
  gain    : List Nat
  phase   : List Int
  lost    : Option Int
  deriving DecidableEq, Repr

/-- The defect detector between two channel bits (R121): the last 16 magnitudes and clips, the reference and what has gathered
toward the next, bits below threshold in succession, bits since a condition held, and where a defect opened. -/
structure DefectScan where
  last  : List (Nat × Bool)
  ref   : Nat
  sum   : Nat
  count : Nat
  below : Nat
  quiet : Nat
  opened : Option Int
  deriving DecidableEq, Repr

/-- What a read channel works with on a segment: taps, the tap aligned to the current sample (R116), the target (R117), and the
defect detector as the slot finds it (R121). -/
structure ReadSet where
  taps   : List Int
  main   : Nat
  target : Word
  scan   : DefectScan
  deriving DecidableEq, Repr

/-- A slot of samples kept for re-decoding (R123), with what each channel worked with when the slot passed. -/
structure Retained where
  slot  : Nat
  reads : List TrackRead
  sets  : List (Nat × ReadSet)
  deriving DecidableEq, Repr

/-- Blocks WCH and RCH: enable groups enabled so far (R93), the control level of each write output (R103) and its last transition,
as (channel, channel bit, place in 1/64), both from the start of the slot after the one written (R106), the frame
last sent to each HFM (R134) and the values last written to HFM registers (key 256 × module + address; R135), the lateral
element signs (negative) and offsets in force (R489), the modules whose over-temperature or low supply has been acted on (R136),
retained samples, by channel the defect detector with the slot that it expects next (R121) and the timing loop's output and rate
(R113), the channel clock for which the CTLE's zero was last computed (R112), the slot whose content the write channels take with the
words of 64 bits taken so far, and the channels whose FIFO's high and low watermarks are asserted (R353). -/
structure Chan where
  groupsOn : Nat
  levels   : List Bool
  edges    : List (Nat × Int × Int)
  lastHfm  : List (Nat × BitVec 40)
  hfmRegs  : List (Nat × Nat)
  servo    : List (Bool × Int)
  hfmHot   : List Nat
  retained : List Retained
  scans    : List (Nat × Int × DefectScan)
  loops    : List (Nat × Int × Int)
  ctleFreq : Nat
  taking   : Option (Nat × Nat)
  high     : List Nat
  low      : List Nat
  deriving DecidableEq, Repr

/-! ## Position (chapter 03) -/

/-- The position states of R73. -/
inductive PosMode where
  | unset | count | acquire | locked | uncertain
  deriving DecidableEq, Repr

/-- Who owns an event entry (R78). -/
inductive Owner where
  | dsStart (slot : Nat) | window (slot : Nat) | snapshot (id : Nat) | locate | trace (buf : Nat)
  deriving DecidableEq, Repr

/-- An event entry (R78): target TPOS and direction. -/
structure Entry where
  target  : Int
  reverse : Bool
  owner   : Owner
  deriving DecidableEq, Repr

/-- Block POS: what is held outside its registers. `runLower` and `runUpper` count windows in succession with a mark
within ±12 channel bits (R74, R80); `sinceFly` the boundaries since the last flywheel insertion (R81); `uncertainFor`
the eyelets spent uncertain (R86); `relock` the eyelet boundary at which eyelet lock returned; `lastDiff` the disagreement of the
last band word (R68); `lastWord` the last valid word while unset (R67); `freq` the channel clock in 2^-16 MHz, `integ` the PLL's
integrator in 2^-24 MHz (R71), `interval` the last eyelet interval in ns (R74), `phase` the error of the last window's mark and
`markTime` TIME at the last mark counted (R73); `amps` the running mark amplitudes and `words` the last 48 word bits of the two inputs
(R66, R75); `regapFrom` the eyelet from which a data set aborted may be placed again
(R84); `silent` that no eyelet mark has been counted for 1 ms (R374). -/
structure Pos where
  mode      : PosMode
  entries   : List Entry
  runLower  : Nat
  runUpper  : Nat
  skews     : List Int
  sinceFly  : Nat
  uncertainFor : Nat
  relock    : Option Int
  lastDiff  : Option Int
  lastWord  : Option Int
  freq      : Nat
  integ     : Int
  interval  : Nat
  phase     : Option Int
  markTime  : Nat
  amps      : Nat × Nat
  words     : Word × Word
  wrongDir  : Nat
  dataBand  : Nat
  regapFrom : Option Int
  silent    : Bool
  deriving DecidableEq, Repr

/-! ## Transport (chapters 12 and 13) -/

/-- A loop slot's histories (R378, R382), its last output and reference, its bank, the run of invalid samples and, per
supervision kind, the run of failing samples (R386). -/
structure Loop where
  e1 : Word
  e2 : Word
  e3 : Word
  u1 : Word
  u2 : Word
  u3 : Word
  y  : Word
  m  : Word
  ref : Word
  ff : Word
  bank : Nat
  invRun : Nat
  runs : List (Nat × Nat)
  deriving DecidableEq, Repr

/-- The profile generator's targets of R391: stop, a speed in 0.05 m/s, or an eyelet at a speed. -/
inductive PgTarget where
  | stop | speed (v : Int) | place (eyelet v : Int) (tries : Nat)
  deriving DecidableEq, Repr

/-- A trace buffer (R394, R395): state, settings, the records held (newest first), how many were taken after the triggering
record, how many are still to come and how many samples to skip. -/
structure Trace where
  state  : Nat
  source : Nat
  trig   : Nat
  mask   : Nat
  target : Word
  post   : Nat
  decim  : Nat
  recs   : List (List Word)
  trigRec : Option Nat
  left   : Nat
  skip   : Nat
  deriving DecidableEq, Repr

/-- Block TCE outside its registers: speed in 10^-12 m/s and acceleration in 10^-6 m/s², the Last's target and the one
held for it, whether a target is new since the last step, the reaction (0 none, 1 Stop, 2 Observer), whether an interlock stop runs (R555), the welt trim in 1/65,536 µm,
the last 1,024 LAT outputs (newest first) for the offload (R375), the lane that the Last has set, and the mixer's
forces in µN. -/
structure Tce where
  loops   : List Loop
  v       : Int
  a       : Int
  target  : PgTarget
  held    : Option PgTarget
  replanned : Bool
  reaction : Nat
  stopping : Bool
  weltTrim : Int
  latOuts : List Int
  lane    : Nat
  fv      : Int
  ft      : Int
  traces  : List Trace
  deriving DecidableEq, Repr

/-- A leg of a bridge (R411 to R413), in ps: the request, the carry to the next period, the width of this period's pulse,
the carry from the period before, where the pulse starts after the valley, and whether the overcurrent limit holds the high gate
off until the next valley. -/
structure Leg where
  req   : Int
  carry : Int
  width : Int
  base  : Int
  start : Int
  off   : Bool
  deriving DecidableEq, Repr

/-- A reel motor (R419 to R425): electrical angle in 2^-32 turn and speed ω_m in 10^-3 rad/s, the observer's angle and electrical
speed, runs of plausible and implausible samples, the currents in the rotor frame, the voltages applied and the currents of
the last sample in the αβ frame, and whether an Observer reaction runs on it. -/
structure Reel where
  theta   : BitVec 32
  omega   : Int
  obs     : BitVec 16 × Int
  plaus   : Nat
  implaus : Nat
  i_d     : Int
  i_q     : Int
  va      : Int
  vb      : Int
  ia      : Int
  ib      : Int
  restart : Bool
  deriving DecidableEq, Repr

/-- A quadrature input (R428 to R430): filtered levels, whether the index has been seen, CRS samples still to be substituted,
the last good measurement with the stepper position at it, and whether the last count went up. -/
structure Quad where
  a : Bool
  b : Bool
  indexed : Bool
  subst : Nat
  lastGood : Int
  stAt : Int
  up : Bool
  deriving DecidableEq, Repr

/-- Block MDR outside its registers: legs (reel A, reel B, voice coil, stepper), the TIME of the valley at which each group's
period began, whether each sense channel uses its ×8
path and whether its last conversion changed it, overcurrent periods per group and whether this period has one, supply
conversions out of limits, reels,
quadrature inputs, stepper position in 1/256 step with its wanted place, drivers that faulted in this load and those
left off, those that wait to be enabled again, and those whose bootstrap charge runs (R408, R432). -/
structure Mdr where
  legs    : List Leg
  valleys : List (Option Nat)
  path8   : List Bool
  moved   : List Bool
  ocRuns  : List Nat
  ocNow   : List Bool
  vmRun   : Nat
  reels   : List Reel
  quads   : List Quad
  stPos   : Int
  stWant  : Int
  stHold  : Bool
  gdSeen  : List Nat
  gdDead  : List Nat
  gdWait  : List Nat
  boot    : List Nat
  deriving DecidableEq, Repr

/-! ## Snapshots (chapter 17) -/

/-- An armed snapshot (R529). -/
structure Armed where
  id     : Nat
  time   : Bool
  target : Word
  deriving DecidableEq, Repr

/-- A bank or readout (R530, R531): header words 0 to 4, the non-zero counters by shadow number and, for a readout, the
P4 granule that holds it. -/
structure Shot where
  header : List Word
  counts : List (Nat × Word)
  handle : Option Nat
  deriving DecidableEq, Repr

/-- Block CNT outside its registers: armed snapshots, banks that wait for readout (one header for each snapshot that
shares the bank) and readouts, newest first. -/
structure Cnt where
  armed    : List Armed
  banks    : List (List Shot)
  readouts : List Shot
  deriving DecidableEq, Repr

/-! ## Cascade, attestation and pins (chapters 14, 16, 17, 18) -/

/-- A cascade port (R446 to R448): whether the link is up, SEQ of the next flit sent and of the next expected, whether a
NAK waits for the expected flit, the flits not yet acknowledged (oldest first), the credit held for channels 1 to 3,
the rewinds since ACK_SEQ last advanced, and the flits that wait to be sent. -/
structure CPort where
  up      : Bool
  nextSeq : Nat
  rcvSeq  : Nat
  waiting : Bool
  replay  : List Flit
  credit  : List Nat
  rewinds : Nat
  outq    : List Flit
  deriving DecidableEq, Repr

/-- A member as the master knows it (R449, R450): state 0 to 5, latency in 0.1 ns, and its IDENTITY and BOOT entries
(R514). -/
structure CMember where
  id    : Nat
  state : Nat
  lat   : Nat
  entries : List RawEntry
  deriving DecidableEq, Repr

/-- Block CAS outside its registers: whether the straps bar it from every cascade (R442), its ports, the master's
members, a member's own latency (R450) and whether it has joined (R451), beacons missed and agreed in succession and whether
it is uncertain by its own misses (R453), whether the master is lost (R458), SET_ID of the set (R463), payloads held back by
the flow-control pause in force, with their members and slots (R455), the level last driven on FC_OUT (R357), what has come of
messages, by source and channel, and the highest ID that flits and link-up have named (R443). -/
structure Cas where
  barred  : Bool
  ports   : List CPort
  members : List CMember
  lat     : Nat
  joined  : Bool
  misses  : Nat
  agrees  : Nat
  unsure  : Bool
  masterLost : Bool
  setId   : Option (BitVec 64)
  fcPause : Bool
  fcOut   : Nat
  waiting : List (Nat × Nat × LinkMsg)
  inbox   : List (Nat × Nat × List Byte)
  topId   : Nat
  deriving DecidableEq, Repr

/-- Block SEC outside its registers and FeRAM: the boot record of this start (R507, R508). -/
structure Sec where
  record : List Byte
  deriving DecidableEq, Repr

/-- The balls and the sideband outside their registers: the filtered level at each GPIO ball while a window of R556
hides it, the dynamic I3C address and whether in-band interrupts are enabled (R525), the status of the last sideband
write, whether one was replaced unread (R526), and the JTAG instruction with whether it drives the balls (R570). -/
structure Pin where
  raw     : BitVec 16
  dynAddr : Option (BitVec 7)
  ibiOn   : Bool
  sbStatus : Nat
  sbUnread : Bool
  sbLost  : Bool
  jtag    : BitVec 6
  jtagDrives : Bool
  deriving DecidableEq, Repr

/-! ## Outputs -/

/-- What leaves the block: the model's own observation trace (log 2). -/
inductive Out where
  /-- An RRT segment (R267) with its PCP, when the port is tagged, and its flow label, and the Ethernet frame that carries it (R5). -/
  | segment (pcp : Option Nat) (flow : Word) (s : Seg) (frame : List Byte)
  /-- Neighbor Solicitation (135), Neighbor Advertisement (136), MLDv2 report (143) or Echo Reply (129) of R263, and its frame. -/
  | icmp (port kind : Nat) (dst : IPv6) (body frame : List Byte)
  /-- How a port brings its link up (R257): the mode that it advertises where auto-negotiation runs, and whether training runs. -/
  | negotiate (port : Nat) (mode : Option Nat) (training : Bool)
  /-- A PFC frame, XOFF or XON, for a set of priorities (R261). -/
  | pfc (port : Nat) (xoff : Bool) (prios : Nat)
  /-- A frame on the HFM control bus (R133). -/
  | hfm (module : Nat) (frame : BitVec 40)
  /-- An operation on the NOR bus: read, program, erase or SFDP read of R500. -/
  | nor (op addr : Nat)
  /-- A record on the trace port (R557). -/
  | trace (record : List Byte)
  /-- Bytes that a sideband transaction returns (R526). -/
  | sideband (bytes : List Byte)
  /-- An in-band interrupt with its mandatory byte (R525). -/
  | ibi (b : Nat)
  /-- A flit sent on a lane of a cascade port (R445), with its 512 bytes (R446). -/
  | flit (port lane : Nat) (f : Flit) (bytes : List Byte)
  /-- A slot written: for each enabled channel, its channel bits in the order of writing (R38, R95, R100). -/
  | slot (slot : Nat) (tracks : List (Nat × List Bool))
  /-- The transitions of the slot's write currents by channel, in 1/64 channel bit from the slot's start (R103, R106). -/
  | edges (slot : Nat) (tracks : List (Nat × List Int))
  /-- The head stands at lane 37 of data band 0 (copy A, 0) or 2 (copy B, 1) to write a part of a zone commit in a slot of the insole
  zone, with a COPY (R239); the slot follows. -/
  | zone (copy slot copyNo : Nat)
  /-- The write gate opens or closes at a TPOS (R104): nothing of a slot is written after it closes (R86). -/
  | gate (isOpen : Bool) (tpos : Int)
  /-- From this TPOS to the slot's end every track is tail pad (R101, R178). -/
  | tailPad (slot : Nat) (tpos : Int)
  /-- The value that a read of a register returns on a path (R8). -/
  | regRead (path : Path) (addr : Nat) (value : Word)
  /-- A value on a named pin or group of pins. -/
  | pin (name : String) (value : Nat)
  /-- High-gate pulse of a leg: its start after the valley and its width in ps, and whether the driver's gate outputs are
  inverted (R408, R411 to R413). -/
  | pulse (leg : Nat) (start width : Int) (inverted : Bool)
  deriving DecidableEq, Repr

/-! ## The device and the block -/

/-- Everything the spec gives the device. -/
structure Dev where
  glb    : Glb
  regs   : List (Nat × Word)
  ddr    : Memory
  nor    : Memory
  feram  : Memory
  cobMem : Memory
  poison : List Nat
  pools  : List Pool
  fifos  : List (Nat × Fifo)
  hpt    : Hpt
  cqm    : Cqm
  strm   : Strm
  plc    : Plc
  cart   : Cart
  ecc    : Ecc
  chan   : Chan
  pos    : Pos
  tce    : Tce
  mdr    : Mdr
  cnt    : Cnt
  cas    : Cas
  sec    : Sec
  pin    : Pin
  freeIx : Nat
  out    : List Out
  deriving DecidableEq, Repr

/-- The block: the queue of waiting commands, first in first out, and the device. -/
structure State where
  pending : List Instr
  dev     : Dev
  deriving DecidableEq, Repr

/-- Reasons for which a step would stop with a fault. The spec gives the device no stop: every fault of chapters 00 to
19 is a status, a log entry, a latched bit, a reaction or a reset, so nobody raises this one (safe). -/
inductive Fault where
  /-- Raised by no meaning (safe). -/
  | none
  deriving DecidableEq, Repr

/-- Reasons for which a step is refused. -/
inductive Refusal where
  /-- Answered by an arm of `exec` whose command has no meaning yet (safe). -/
  | notModelled (mnemonic : String)
  deriving DecidableEq, Repr

/-! ## Reset -/

/-- A context-free zero loop slot (R381: open, nothing issued yet). -/
def Loop.zero : Loop := ⟨0, 0, 0, 0, 0, 0, 0, 0, 0, 0, 0, 0, []⟩

/-- An idle trace buffer (R403). -/
def Trace.zero : Trace := ⟨0, 0, 0, 0, 0, 0, 1, [], none, 0, 0⟩

/-- A port with nothing learnt and nothing paused. -/
def Port.zero : Port := ⟨[], [], false, false, false, false, []⟩

/-- An index that holds nothing. -/
def Index.empty : Index := ⟨[], [], [], [], 0, 0, []⟩

/-- An engine bound to no chain. -/
def Engine.free : Engine := ⟨none, none, 0, .none, [], []⟩

/-- The GLB state after VAON has risen, with PORST_N low (log 5). -/
def Glb.reset : Glb where
  dev := .startUp
  prev := .startUp
  changes := 0
  maintConn := none
  beforeMaint := .idle
  porstLow := true
  straps := ⟨false, 0, false, 0⟩
  standbyHeld := false
  wake := ⟨0, 0, false, false⟩
  railEn := true
  waking := false
  firstSlotB := false
  retryHeld := false
  bootCount := 0
  thermalHold := false
  brownOut := false
  warnArmed := true
  wasCrit := false
  wdogTimes := []
  interlock := 0
  norOp := none

/-- The units that PORST_N resets, as they stand after it (R469): no command, no connection, nothing open. -/
def Hpt.reset : Hpt := ⟨[], [], [], [Port.zero, Port.zero, Port.zero, Port.zero], [], [], [], 0⟩
def Cqm.reset : Cqm := ⟨0, [], [], 0, [0, 0, 0, 0], 0, false, [], 0, [], []⟩
def Strm.reset : Strm := ⟨[], [], List.replicate 16 Engine.free, [], 0, 0, [], []⟩
def Plc.reset : Plc where
  session := none
  appendAt := ⟨0, 0, 0, 1, 3600⟩
  groupNext := []
  nextGen := 1
  dsets := []
  nextDs := 0
  staged := []
  parity := []
  pendingCopies := []
  again := []
  replacing := []
  noC3 := []
  runs := []
  chains := []
  changed := []
  streams := []
  recorded := 0
  hold := false
  holdDone := false
  holdCause := 0
  lastAffinity := 0
  stopped := none
  judged := false
  index := Index.empty
  commits := []
  zone := (⟨0, 0, true⟩, ⟨0, 0, true⟩)
  sinceSpeed := 0
  coded := []
  taken := []
  readIn := 0
  readOut := 0
  segs := []
  scanning := false
  warned := false
  far := []
def Cart.reset : Cart := ⟨false, false, false, (0, 0)⟩
def Ecc.reset : Ecc := ⟨[], none, false, [], none, 0, none, [], none, [], [], [], []⟩
def Chan.reset : Chan := ⟨0, List.replicate 256 false, [], [], [], [(false, 0), (false, 0)], [], [], [], [], 0, none, [], []⟩
def Pos.reset : Pos := ⟨.unset, [], 0, 0, [], 8, 0, none, none, none, 0, 0, 0, none, 0, (0, 0), (0, 0), 0, 0, none, true⟩
def Tce.reset : Tce where
  loops := List.replicate 8 Loop.zero
  v := 0
  a := 0
  target := .stop
  held := none
  replanned := false
  reaction := 0
  stopping := false
  weltTrim := 0
  latOuts := []
  lane := 0
  fv := 0
  ft := 0
  traces := List.replicate 4 Trace.zero
def Mdr.reset : Mdr where
  legs := List.replicate 12 ⟨0, 0, 0, 0, 0, false⟩
  valleys := [none, none, none, none]
  path8 := List.replicate 10 false
  moved := List.replicate 10 false
  ocRuns := [0, 0, 0, 0]
  ocNow := [false, false, false, false]
  vmRun := 0
  reels := List.replicate 2 ⟨0, 0, (0, 0), 0, 0, 0, 0, 0, 0, 0, 0, false⟩
  quads := List.replicate 2 ⟨false, false, false, 0, 0, 0, true⟩
  stPos := 0
  stWant := 0
  stHold := false
  gdSeen := []
  gdDead := []
  gdWait := []
  boot := []
def Cnt.reset : Cnt := ⟨[], [], []⟩
/-- A cascade port that is down. -/
def CPort.zero : CPort := ⟨false, 0, 0, false, [], [0, 0, 0], 0, []⟩
def Cas.reset : Cas := ⟨false, [CPort.zero, CPort.zero], [], 0, false, 0, 0, false, false, none, false, 0, [], [], 0⟩
def Sec.reset : Sec := ⟨[]⟩
/-- In-band interrupts are enabled until DISEC (R525). -/
def Pin.reset : Pin := ⟨0, none, true, 0, false, false, 0x3F, false⟩

/-- The device right after reset: VAON has risen, PORST_N is low, nothing has started (log 5). -/
def Dev.reset : Dev where
  glb := Glb.reset
  regs := []
  ddr := []
  nor := []
  feram := []
  cobMem := []
  poison := []
  pools := []
  fifos := []
  hpt := Hpt.reset
  cqm := Cqm.reset
  strm := Strm.reset
  plc := Plc.reset
  cart := Cart.reset
  ecc := Ecc.reset
  chan := Chan.reset
  pos := Pos.reset
  tce := Tce.reset
  mdr := Mdr.reset
  cnt := Cnt.reset
  cas := Cas.reset
  sec := Sec.reset
  pin := Pin.reset
  freeIx := 0
  out := []

/-- The machine right after reset: an empty queue and the device as `Dev.reset` says. -/
def State.reset : State := ⟨[], Dev.reset⟩

end Sys2Proof.Machine
end

