-- ==== Sys2Proof/Machine/Ops.lean ====
section
/-!
DEFINITION. The operations every command uses: reading and writing register fields and counters, the memories, the
device state (R21, R22, R26), messages to connections, the log and device events (R302, R326, R327), and how a meaning
changes the device and nothing else of the block.
-/
namespace Sys2Proof.Machine

/-- A command's effect: `f` changes the device; the queue is left alone. -/
def State.doing (s : State) (f : Dev → Dev) : Host.Outcome State Fault Refusal := .next { s with dev := f s.dev }

/-! ## Fields and registers -/

/-- The bits of a field in its register. -/
def Fld.mask (f : Fld) : Word := BitVec.ofNat 48 ((2 ^ f.width - 1) * 2 ^ f.lo)

/-- The value of a field in a register word. -/
def Fld.of (f : Fld) (w : Word) : Nat := w.toNat / 2 ^ f.lo % 2 ^ f.width

/-- The register word with a field set to `v`, cut to the field's width. -/
def Fld.into (f : Fld) (w : Word) (v : Nat) : Word :=
  (w &&& ~~~f.mask) ||| BitVec.ofNat 48 (v % 2 ^ f.width * 2 ^ f.lo)

/-- A word of the register file as it is stored. -/
def Dev.word (d : Dev) (a : Nat) : Word := sparseGet resetWord d.regs a

/-- Store a word of the register file. -/
def Dev.putWord (d : Dev) (a : Nat) (w : Word) : Dev := { d with regs := sparsePut resetWord d.regs a w }

/-- The value of a field. -/
def Dev.get (d : Dev) (f : Fld) : Nat := f.of (d.word f.addr)

/-- Set a field in hardware. -/
def Dev.set (d : Dev) (f : Fld) (v : Nat) : Dev := d.putWord f.addr (f.into (d.word f.addr) v)

/-- Whether a one-bit field is 1. -/
def Dev.flag (d : Dev) (f : Fld) : Bool := d.get f != 0

/-- Add `n` to a counter; it wraps at 2^48 (R527). -/
def Dev.bumpBy (d : Dev) (a n : Nat) : Dev := d.putWord a (d.word a + BitVec.ofNat 48 n)

/-- Count one event (R527). -/
def Dev.bump (d : Dev) (a : Nat) : Dev := d.bumpBy a 1

/-- Record an output (log 2). -/
def Dev.emit (d : Dev) (o : Out) : Dev := { d with out := o :: d.out }

/-- A value that the spec leaves to the device, and the device with the next one waiting (log 2). -/
def Dev.fresh (d : Dev) : Word × Dev := (Config.freeWord d.freeIx, { d with freeIx := d.freeIx + 1 })

/-- TIME in ns (R90). -/
def Dev.time (d : Dev) : Nat := d.get F.posTimeTime

/-- A reset is held: PORST_N is low, or the reset of R533 or R561 is in force. -/
def Dev.inReset (d : Dev) : Bool := d.glb.porstLow || d.glb.thermalHold || d.glb.brownOut

/-- TIME goes on by 1 ns (R90; log 1), but in standby and in reset. -/
def Dev.tick (d : Dev) : Dev := if d.glb.dev = .standby || d.inReset then d else d.set F.posTimeTime (d.time + 1)

/-- TPOS as a signed number of channel bits (R4, R30). -/
def Dev.tpos (d : Dev) : Int := signed 48 (d.get F.posTposTpos)

/-- The time in ns since an instant, modulo 2^48 (R91). -/
def Dev.since (d : Dev) (t : Nat) : Nat := (d.time + 2 ^ 48 - t % 2 ^ 48) % 2 ^ 48

/-- Bytes counted with their TIME, none kept beyond the longest window of R229, 255 ms. -/
def Dev.noteBytes (d : Dev) (log : List (Nat × Nat)) (n : Nat) : List (Nat × Nat) :=
  (log.filter fun x => decide (d.since x.1 ≤ 255000000)) ++ [(d.time, n)]

/-- TPOS as it stands: in the count state the phase is interpolated from TIME, at most to the eyelet's end (R73, R88). -/
def Dev.tposNow (d : Dev) : Int :=
  if d.pos.mode == .count && decide (0 < d.pos.interval) then
    let n : Int := min 511 (512 * d.since d.pos.markTime / d.pos.interval : Nat)
    if d.flag F.posStatusDir then d.tpos - n else d.tpos + n
  else d.tpos

/-- The eyelet number of TPOS (R4). -/
def Dev.eyelet (d : Dev) : Int := d.tpos / 512

/-- Set TPOS. -/
def Dev.setTpos (d : Dev) (p : Int) : Dev := d.set F.posTposTpos (unsigned 48 p)

/-! ## The cascade's mode (R441, R442) -/

/-- CFG.MODE as it takes effect: 3 is treated as 0, and a device whose straps break R442 takes part in no cascade. -/
def Dev.casMode (d : Dev) : Nat := if d.cas.barred || d.get F.casCfgMode = 3 then 0 else d.get F.casCfgMode

/-- Whether the device is a member, not the master, of a set. -/
def Dev.isMember (d : Dev) : Bool := d.casMode != 0 && !d.glb.straps.role

/-- Whether the device is the master of a set. -/
def Dev.isMaster (d : Dev) : Bool := d.casMode != 0 && d.glb.straps.role

/-- Whether POS runs in follow state (R452): a member in width mode. -/
def Dev.follows (d : Dev) : Bool := d.casMode == 1 && !d.glb.straps.role

/-- MEMBER of the device's own track groups (R34, R442). -/
def Dev.self (d : Dev) : Nat := if d.follows then d.glb.straps.id.toNat else 0

/-! ## Memories -/

/-- `n` bytes of DDR5 from an address. -/
def Dev.ddrBytes (d : Dev) (a n : Nat) : List Byte := Memory.bytes zeroByte d.ddr a n

/-- Store bytes in DDR5. A poisoned word that is written whole or in part loses its poison (R337). -/
def Dev.putDdr (d : Dev) (a : Nat) (bs : List Byte) : Dev :=
  { d with
    ddr := Memory.storeAll zeroByte d.ddr a bs
    poison := d.poison.filter fun p => !(decide (a < p + 4) && decide (p < a + bs.length)) }

/-- Whether any 32-bit word of a range of DDR5 is poisoned (R337). -/
def Dev.poisoned (d : Dev) (a n : Nat) : Bool := d.poison.any fun p => decide (a < p + 4) && decide (p < a + n)

/-- Bytes of the NOR. -/
def Dev.norBytes (d : Dev) (a n : Nat) : List Byte := Memory.bytes erasedByte d.nor a n

/-- Store bytes in the NOR. -/
def Dev.putNor (d : Dev) (a : Nat) (bs : List Byte) : Dev := { d with nor := Memory.storeAll erasedByte d.nor a bs }

/-- Bytes of the FeRAM. -/
def Dev.feramBytes (d : Dev) (a n : Nat) : List Byte := Memory.bytes zeroByte d.feram a n

/-- Store bytes in the FeRAM. -/
def Dev.putFeram (d : Dev) (a : Nat) (bs : List Byte) : Dev := { d with feram := Memory.storeAll zeroByte d.feram a bs }

/-! ## Device states -/

/-- STATUS[2:0] (R21). -/
def DevState.code : DevState → Nat
  | .startUp => 0 | .recovery => 1 | .idle => 2 | .loaded => 3 | .streaming => 4 | .maintenance => 5 | .standby => 6

/-- READY (R21). -/
def DevState.ready : DevState → Bool
  | .idle | .loaded | .streaming => true
  | .startUp | .recovery | .maintenance | .standby => false

/-- Idle, loaded and streaming: the states in which a buffer may have several owners and data commands are admitted
(R25, R313). -/
def DevState.running (s : DevState) : Bool := s.ready

/-- The states in which the host ports are up (R258). -/
def DevState.hostUp : DevState → Bool
  | .idle | .loaded | .streaming | .maintenance => true
  | .startUp | .recovery | .standby => false

/-- Change the device state (R21, R26). STATE_CHANGES saturates. In I3C mode an enabled in-band interrupt 0x02 is raised
(R525). A change to the same state is no change. -/
def Dev.goState (d : Dev) (s : DevState) : Dev :=
  if s = d.glb.dev then d
  else
    let d := { d with glb := { d.glb with
      prev := d.glb.dev, dev := s, changes := min (d.glb.changes + 1) 0xFFFFFFFF } }
    if d.pin.ibiOn && !d.glb.straps.sbMode then d.emit (.ibi 2) else d

/-- To idle by way of loaded, which is where streaming ends (R22). -/
def Dev.toIdle (d : Dev) : Dev := (if d.glb.dev == .streaming then d.goState .loaded else d).goState .idle

/-- Change the device state as at a device reset, where the start-up state is entered anew even from start-up; each
entry counts (R26). -/
def Dev.enterStartUp (d : Dev) : Dev :=
  { d with glb := { d.glb with
    prev := d.glb.dev, dev := .startUp, changes := min (d.glb.changes + 1) 0xFFFFFFFF } }

/-- FAULT_N is low in recovery and while any field of GLB.FAULT is 1 (R535). -/
def Dev.faultLow (d : Dev) : Bool := d.glb.dev == .recovery || d.word F.glbFaultRail.addr != 0

/-- Set a field of GLB.FAULT (R535); FAULT_N going low raises an enabled in-band interrupt 0x01 (R525). -/
def Dev.fault (d : Dev) (f : Fld) : Dev :=
  let low := d.faultLow
  let d := d.set f 1
  if !low && d.pin.ibiOn && !d.glb.straps.sbMode then d.emit (.ibi 1) else d

/-! ## Connections -/

/-- The connection with a device ID. -/
def Dev.conn? (d : Dev) (c : Nat) : Option Conn := d.hpt.conns.find? (fun k => k.id == c)

/-- Change the connection with a device ID. -/
def Dev.modConn (d : Dev) (c : Nat) (f : Conn → Conn) : Dev :=
  { d with hpt := { d.hpt with conns := d.hpt.conns.map fun k => if k.id == c then f k else k } }

/-- Change the timers of a connection. -/
def Dev.modTimers (d : Dev) (c : Nat) (f : Timers → Timers) : Dev :=
  { d with hpt := { d.hpt with timers := d.hpt.timers.map fun k => if k.id == c then f k else k } }

/-- A message that lies on the die. -/
def Payload.onDie (bs : List Byte) : Payload := ⟨bs, []⟩

/-- Queue a message on a connection (R300 to R303): it follows the messages before it. -/
def Dev.sendMsg (d : Dev) (c typ cls : Nat) (p : Payload) (len : Nat) (status : Option Nat) (bufs : List Nat) : Dev :=
  let m : Msg := ⟨d.hpt.nextMsg, typ, cls, p, len, status, bufs⟩
  { d with hpt := { d.hpt with
      conns := d.hpt.conns.map fun k => if k.id == c then { k with msgs := k.msgs ++ [m] } else k
      nextMsg := d.hpt.nextMsg + 1 } }

/-- Messages from the device by TYPE (R268). -/
def typStatus : Nat := 0x11
def typDataIn : Nat := 0x12
def typNotice : Nat := 0x13
def typMgmtRsp : Nat := 0x21

/-! ## The log -/

/-- The 64 bytes of a log entry (R327). -/
def LogEntry.bytes (e : LogEntry) : List Byte :=
  let body := leBytes 6 e.seq.toNat ++ leBytes 6 e.time ++ leBytes 4 e.boot ++ leBytes 4 e.epoch ++ leBytes 1 e.kind
    ++ leBytes 1 e.conn ++ leBytes 2 e.hostId ++ leBytes 4 e.tag ++ leBytes 1 e.opcode ++ leBytes 1 e.flags
    ++ leBytes 2 e.status ++ leBytes 2 e.stream ++ leBytes 6 e.record ++ fitTo 16 e.detail ++ leBytes 4 0
  body ++ leBytes 4 (crc32c body)

/-- Write a log entry: it takes the next LOG_SEQ, TIME and the boot counter; the oldest of 8,192 entries is overwritten
and counted (R326). The newest entry stands first. -/
def Dev.log (d : Dev) (e : LogEntry) : Dev :=
  let seq := d.cqm.logSeq + 1
  let e := { e with seq := seq, time := d.time, boot := d.glb.bootCount }
  let full := decide (8192 ≤ d.cqm.log.length)
  let d := { d with cqm := { d.cqm with log := e :: (if full then d.cqm.log.dropLast else d.cqm.log), logSeq := seq } }
  if full then d.bump C.cqmLogLost else d

/-- The log entry of a device event (R327). -/
def eventEntry (code : Nat) (detail : List Byte) : LogEntry :=
  ⟨0, 0, 0, 0, 7, 0xFF, 0, 0, 0, 0, code, 0, 0, detail⟩

/-- The payload of a NOTICE (R302). -/
def noticeBytes (code : Nat) (seq : Word) (entries : List (List Byte)) : List Byte :=
  leBytes 2 code ++ leBytes 2 entries.length ++ leBytes 6 seq.toNat ++ entries.flatten

/-- Send a NOTICE to every established connection (R302); it is sent in the URGENT class (log 11). -/
def Dev.notice (d : Dev) (code : Nat) (entries : List (List Byte)) : Dev :=
  let bs := noticeBytes code d.cqm.logSeq entries
  (d.hpt.conns.filter fun k => k.st == .established).foldl
    (fun d k => d.sendMsg k.id typNotice 4 (Payload.onDie bs) bs.length none []) d

/-- Log a device event of the 0x03 range and send its NOTICE (R302, R321). -/
def Dev.eventWith (d : Dev) (code : Nat) (detail : List Byte) : Dev := (d.log (eventEntry code detail)).notice code []

/-- Log a device event without detail. -/
def Dev.event (d : Dev) (code : Nat) : Dev := d.eventWith code []

/-! ## Memory errors (R337) -/

/-- A read finds an uncorrectable word at address `a`: counted, latched and logged (R337). -/
def Dev.memoryError (d : Dev) (a : Nat) : Dev :=
  ((((d.bump C.memUe).set F.memStatusUeSeen 1).set F.memUeAddrAddr a).fault F.glbFaultMemory).event 0x0308

/-- The first poisoned word that a read of a range of DDR5 meets. -/
def Dev.poisonIn (d : Dev) (a n : Nat) : Option Nat := d.poison.find? fun p => decide (a < p + 4) && decide (p < a + n)

/-! ## Position entries -/

/-- Whether the tape moves in reverse (R87). -/
def Dev.reverse (d : Dev) : Bool := d.flag F.posStatusDir

/-- Arm an event entry (R79): refused with LATE, and counted, less than 2 eyelets ahead, with all 64 entries in use or
with TPOS unset. -/
def Dev.arm (d : Dev) (e : Entry) : Option Dev :=
  let ahead : Int := if e.reverse then d.tposNow - e.target else e.target - d.tposNow
  if decide (ahead < 1024) || decide (64 ≤ d.pos.entries.length) || d.pos.mode == .unset then none
  else some { d with pos := { d.pos with entries := d.pos.entries ++ [e] } }

/-- How far ahead of TPOS an entry lies, in its direction. -/
def Dev.aheadOf (d : Dev) (e : Entry) : Int := if e.reverse then d.tpos - e.target else e.target - d.tpos

/-- Drop the entries of which `p` holds. -/
def Dev.dropEntries (d : Dev) (p : Entry → Bool) : Dev :=
  { d with pos := { d.pos with entries := d.pos.entries.filter fun e => !p e } }

/-- Whether an entry is a data-set start. -/
def Entry.isStart (e : Entry) : Bool := match e.owner with | .dsStart _ => true | _ => false

/-- Whether an entry is a verify window. -/
def Entry.isWindow (e : Entry) : Bool := match e.owner with | .window _ => true | _ => false

/-- Whether an entry is a locate target. -/
def Entry.isLocate (e : Entry) : Bool := e.owner == .locate

/-- Whether an entry is a snapshot. -/
def Entry.isSnapshot (e : Entry) : Bool := match e.owner with | .snapshot _ => true | _ => false

end Sys2Proof.Machine
end

