-- ==== Sys2Proof/Machine/HfmBus.lean ====
section
/-!
DEFINITION. Frames of the head front-end modules' control bus (R133 to R135), and disabling all channels (R93).
-/
namespace Sys2Proof.Machine

/-! ## Frames (R133, R134) -/

/-- One step of the CRC-8 of R133. -/
def hfmCrcBit (c : Nat) (b : Bool) : Nat := if (bitAt c 7 != b) then (2 * c ^^^ 0x07) % 256 else 2 * c % 256

/-- The CRC-8 over bits [39:8] of a frame, most significant bit first (R133). -/
def hfmCrc (v : BitVec 32) : Nat := ((List.range 32).reverse.map fun i => v.getLsbD i).foldl hfmCrcBit 0xFF

/-- A frame with its CRC. -/
def hfmFrame (v : BitVec 32) : BitVec 40 := v.setWidth 40 <<< 8 ||| BitVec.ofNat 40 (hfmCrc v)

/-- Bits [39:8] of a write or read frame. -/
def hfmWord (rd : Bool) (addr data : Nat) : BitVec 32 := BitVec.ofNat 32 (b2n rd * 2 ^ 31 + addr % 256 * 2 ^ 16 + data % 65536)

/-- A write that an HFM takes: registers of R135 that are RW. -/
def hfmWritable (addr : Nat) : Bool :=
  [0x01, 0x04, 0x05, 0x06].contains addr || (decide (0x20 ≤ addr) && decide (addr ≤ 0x3F)) || (decide (0x40 ≤ addr) && decide (addr ≤ 0x5F))
    || (decide (0x60 ≤ addr) && decide (addr ≤ 0x7F))

/-- Send one frame to a module. What it writes is noted as the module's register. -/
def Dev.hfmSend (d : Dev) (module : Nat) (v : BitVec 32) : Dev :=
  let f := hfmFrame v
  let addr := bitsAt v.toNat 23 16
  let regs := if !v.getLsbD 31 && hfmWritable addr then
      sparsePut (fun _ => (0 : Nat)) d.chan.hfmRegs (256 * module + addr) (bitsAt v.toNat 15 0) else d.chan.hfmRegs
  let last := (d.chan.lastHfm.filter fun x => x.1 != module) ++ [(module, f)]
  ({ d with chan := { d.chan with lastHfm := last, hfmRegs := regs } }).emit (.hfm module f)

/-- Write a register of a module. -/
def Dev.hfmWrite (d : Dev) (module addr data : Nat) : Dev := d.hfmSend module (hfmWord false addr data)

/-- The no-operation frame (R134). -/
def Dev.hfmNop (d : Dev) (module : Nat) : Dev := d.hfmSend module (hfmWord true 0xFF 0)

/-- The value last written to a register of a module. -/
def Dev.hfmReg (d : Dev) (module addr : Nat) : Nat := sparseGet (fun _ => (0 : Nat)) d.chan.hfmRegs (256 * module + addr)

/-- All channels are disabled at once (R93). -/
def Dev.disableChannels (d : Dev) : Dev :=
  let d := (List.range 8).foldl (fun d m => (d.hfmWrite m 4 0).hfmWrite m 5 0) d
  { d with chan := { d.chan with groupsOn := 0 } }


end Sys2Proof.Machine
end

