-- ==== Sys2Proof/Machine/Pools.lean ====
section
/-!
DEFINITION. The buffer pools (R340 to R350) and the operations of BPM.FW_OP (R358, R365).
-/
namespace Sys2Proof.Machine

/-- Granule sizes of the pools P0 to P4 (R340). -/
def poolGranule : Nat → Nat
  | 0 => 0x10000 | 1 => 0x200000 | 2 => 0x200000 | 3 => 0x200000 | _ => 0x10000

/-- POOL of a handle (R341). -/
def handlePool (h : Nat) : Nat := h / 2 ^ 29 % 8
/-- INDEX of a handle (R341). -/
def handleIndex (h : Nat) : Nat := h / 2 ^ 12 % 2 ^ 17
/-- The handle of a buffer (R341). -/
def mkHandle (pool index gen : Nat) : Nat := pool * 2 ^ 29 + index * 2 ^ 12 + gen % 4096

/-- Owners of R342, which are also the requester ports (the Last asks at the write channel's port). -/
def ownWrite : Nat := 0
def ownVerify : Nat := 1
def ownC3 : Nat := 2
def ownComp : Nat := 3
def ownHostRx : Nat := 4
def ownHostTx : Nat := 5
def ownLast : Nat := 6
def ownDma : Nat := 7

/-- A buffer never granted. -/
def Buf.zero : Buf := ⟨0, 0⟩

/-- A buffer of a pool. -/
def Pool.buf (p : Pool) (i : Nat) : Buf := sparseGet (fun _ => Buf.zero) p.bufs i

/-- Store a buffer's owner set and GEN. -/
def Pool.setBuf (p : Pool) (i : Nat) (b : Buf) : Pool := { p with bufs := sparsePut (fun _ => Buf.zero) p.bufs i b }

/-- Buffers with a non-empty owner set (R364). -/
def Pool.inUse (p : Pool) : Nat := (p.bufs.filter fun b => b.2.owners != 0).length

/-- The buffer that has been free longest (R342). -/
def Pool.oldestFree (p : Pool) : Option Nat :=
  match (List.range (p.moved.length + 1)).find? (fun k => !p.moved.contains (p.fresh + k)) with
  | some k => if p.fresh + k < p.count then some (p.fresh + k) else p.freed.head?
  | none => p.freed.head?

/-- Free buffers: those on the free list. -/
def Pool.free (p : Pool) : Nat :=
  (p.count - p.fresh - (p.moved.filter fun i => decide (p.fresh ≤ i)).length) + p.freed.length

/-- Take a buffer off the free list. -/
def Pool.take (p : Pool) (i : Nat) : Pool :=
  if p.freed.head? = some i then { p with freed := p.freed.tail }
  else { p with fresh := i + 1, moved := p.moved.filter fun m => decide (i + 1 ≤ m) }

/-- Put a buffer at the end of the free list (R342, R344). -/
def Pool.giveBack (p : Pool) (i : Nat) : Pool :=
  if p.fresh ≤ i then { p with moved := if p.moved.contains i then p.moved else p.moved ++ [i],
                               freed := p.freed.filter (· != i) ++ [i] }
  else { p with freed := p.freed.filter (· != i) ++ [i] }

/-- ONk of R348. -/
def onLevel (n ew : Nat) : Nat := n * ew / 256
/-- OFFk of R348. -/
def offLevel (n ew hyst : Nat) : Nat := n * (ew - hyst) / 256

/-- Threshold evaluation (R348), the peak of R364 and the ports that may ask again (R347). -/
def Pool.evaluate (p : Pool) (ew1 ew2 ew3 hyst : Nat) : Pool :=
  let u := p.inUse
  let judge := fun (b : Bool) (ew : Nat) =>
    if decide (onLevel p.count ew ≤ u) then true else if decide (u < offLevel p.count ew hyst) then false else b
  { p with
    on1 := judge p.on1 ew1, on2 := judge p.on2 ew2, on3 := judge p.on3 ew3
    peak := max p.peak u
    waiting := p.waiting.filter fun w => !decide (u < min (offLevel p.count ew3 hyst) w.2) }

/-- The level of R348. -/
def Pool.level (p : Pool) : Nat := if p.on3 then 3 else if p.on2 then 2 else if p.on1 then 1 else 0

/-- Pool `p`, where the pools are laid out. -/
def Dev.pool? (d : Dev) (p : Nat) : Option Pool := d.pools[p]?

/-- The level of pool `p`; 0 where no pool exists. -/
def Dev.level (d : Dev) (p : Nat) : Nat := match d.pool? p with | some q => q.level | none => 0

/-- Buffers free in pool `p`. -/
def Dev.poolFree (d : Dev) (p : Nat) : Nat := match d.pool? p with | some q => q.free | none => 0

/-- Store pool `p` after an operation, its thresholds evaluated (R343). -/
def Dev.putPool (d : Dev) (p : Nat) (q : Pool) : Dev :=
  { d with pools := setAt d.pools p (q.evaluate (d.get (F.bpmPoolCfgEw1.ix p)) (d.get (F.bpmPoolCfgEw2.ix p))
      (d.get (F.bpmPoolCfgEw3.ix p)) (d.get (F.bpmPoolCfgHyst.ix p))) }

/-- Byte address of the buffer of a handle (R340). -/
def Dev.bufAddr (d : Dev) (h : Nat) : Nat :=
  d.get (F.bpmPoolBaseBase.ix (handlePool h)) + handleIndex h * poolGranule (handlePool h)

/-- Allocate (R342, R345, R347): the buffer free longest with one owner and the next GEN, or an empty result, which is
counted and keeps the port from asking until the pool has drained. -/
def Dev.allocate (d : Dev) (p owner port : Nat) : Option Nat × Dev :=
  match d.pool? p with
  | none => (none, d)
  | some q =>
    if q.waiting.any (fun w => w.1 == port) then (none, d)
    else
      let barred := p == 3 && d.cart.loaded && port != ownVerify && decide (q.free ≤ 3)
      match (if barred then none else q.oldestFree) with
      | none =>
        let d := d.putPool p { q with waiting := q.waiting ++ [(port, q.inUse)] }
        (none, (d.set (F.bpmPoolStatusEmptySeen.ix p) 1).bump (C.bpmEmpty + p))
      | some i =>
        let g := ((q.buf i).gen + 1) % 4096
        (some (mkHandle p i g), d.putPool p ((q.take i).setBuf i ⟨g, 2 ^ owner⟩))

/-- Share (R342, R345): add an owner; in start-up and maintenance a second owner is refused and counted, and where no
pool exists every share is counted. -/
def Dev.share (d : Dev) (h owner : Nat) : Bool × Dev :=
  match d.pool? (handlePool h) with
  | none => (false, d.bump C.bpmShareRefused)
  | some q =>
    let b := q.buf (handleIndex h)
    if b.owners != 0 && !d.glb.dev.running then (false, d.bump C.bpmShareRefused)
    else if q.count ≤ handleIndex h then (true, d)
    else (true, d.putPool (handlePool h) (q.setBuf (handleIndex h) { b with owners := b.owners ||| 2 ^ owner }))

/-- Release (R342, R344): remove an owner that is in the set; the last release puts the buffer at the end of the free
list. -/
def Dev.release (d : Dev) (h owner : Nat) : Dev :=
  match d.pool? (handlePool h) with
  | none => d
  | some q =>
    let i := handleIndex h
    let b := q.buf i
    if !bitAt b.owners owner || decide (q.count ≤ i) then d
    else
      let o := b.owners - 2 ^ owner
      let q := q.setBuf i { b with owners := o }
      d.putPool (handlePool h) (if o = 0 then q.giveBack i else q)

/-- Release a list of buffers. -/
def Dev.releaseAll (d : Dev) (hs : List Nat) (owner : Nat) : Dev := hs.foldl (fun d h => d.release h owner) d

/-- Segments leave the cache in P4, least recently used first, until `n` granules are free or none is cached (R249). -/
def Dev.freeGranules (d : Dev) (n : Nat) : Nat → Dev
  | 0 => d
  | fuel + 1 =>
    if n ≤ d.poolFree 4 then d
    else match d.plc.segs with
      | [] => d
      | x :: xs => (({ d with plc := { d.plc with segs := xs } }).releaseAll x.granules ownLast).freeGranules n fuel

/-- P4 granules for a use other than the segment cache: cached segments make room (R249). -/
def Dev.roomInP4 (d : Dev) (n : Nat) : Dev := d.freeGranules n d.plc.segs.length

/-- The owner set and current GEN of the buffer a handle names (R342). -/
def Dev.query (d : Dev) (h : Nat) : Option Buf := (d.pool? (handlePool h)).map fun q => q.buf (handleIndex h)

/-- Lay the pools out (R340, step 6 of R471): bases from the counts, in the order P4, P3, P2, P1, P0. -/
def Dev.layPools (d : Dev) : Dev :=
  let up := fun (a : Nat) => (a + 0x1FFFFF) / 0x200000 * 0x200000
  let c := fun p => d.get (F.bpmPoolCfgCount.ix p)
  let b4 := 0x10000000
  let b3 := up (b4 + c 4 * poolGranule 4)
  let b2 := up (b3 + c 3 * poolGranule 3)
  let b1 := up (b2 + c 2 * poolGranule 2)
  let b0 := up (b1 + c 1 * poolGranule 1)
  let d := [(0, b0), (1, b1), (2, b2), (3, b3), (4, b4)].foldl (fun d x => d.set (F.bpmPoolBaseBase.ix x.1) x.2) d
  { d with pools := [0, 1, 2, 3, 4].map fun p => ⟨c p, 0, [], [], [], false, false, false, 0, []⟩ }

/-- The end of the pools' memory under the configured counts (R340). -/
def Dev.poolsEnd (d : Dev) : Nat :=
  let up := fun (a : Nat) => (a + 0x1FFFFF) / 0x200000 * 0x200000
  let c := fun p => d.get (F.bpmPoolCfgCount.ix p)
  let b3 := up (0x10000000 + c 4 * poolGranule 4)
  let b2 := up (b3 + c 3 * poolGranule 3)
  let b1 := up (b2 + c 2 * poolGranule 2)
  up (b1 + c 1 * poolGranule 1) + c 0 * poolGranule 0

/-- BPM.FW_RESULT after an operation (R365). -/
def Dev.fwResult (d : Dev) (empty : Bool) (owners handle : Nat) : Dev :=
  (((d.set F.bpmFwResultDone 1).set F.bpmFwResultEmpty (b2n empty)).set F.bpmFwResultOwners owners).set
    F.bpmFwResultHandle handle

/-- POOL_QUERY (R342, R365): owner set and current GEN; where no pool exists, an empty result (R345). -/
def Dev.fwQuery (d : Dev) (h : Nat) : Dev :=
  match d.query h with
  | none => d.fwResult true 0 0
  | some b => d.fwResult false b.owners (mkHandle (handlePool h) (handleIndex h) b.gen)

/-- POOL_ALLOCATE (R342, R365): the pool stands in HANDLE bits [31:29]. -/
def Dev.fwAllocate (d : Dev) (owner h : Nat) : Dev :=
  match d.allocate (handlePool h) owner ownDma with
  | (some g, d) => d.fwResult false (2 ^ owner) g
  | (none, d) => d.fwResult true 0 0

/-- The handle and owner set that BPM.FW_RESULT shows after a share or a release. -/
def Dev.fwAfter (d : Dev) (empty : Bool) (h : Nat) : Dev :=
  match d.query h with
  | none => d.fwResult true 0 0
  | some b => d.fwResult empty b.owners (mkHandle (handlePool h) (handleIndex h) b.gen)

/-- POOL_SHARE (R345, R365). -/
def Dev.fwShare (d : Dev) (owner h : Nat) : Dev :=
  match d.share h owner with
  | (ok, d) => d.fwAfter (!ok) h

/-- POOL_RELEASE (R342, R365). -/
def Dev.fwRelease (d : Dev) (owner h : Nat) : Dev := (d.release h owner).fwAfter false h

def execPoolQuery (_owner : BitVec 3) (handle : BitVec 32) (s : State) : Host.Outcome State Fault Refusal :=
  s.doing fun d => d.fwQuery handle.toNat

def execPoolAllocate (owner : BitVec 3) (handle : BitVec 32) (s : State) : Host.Outcome State Fault Refusal :=
  s.doing fun d => d.fwAllocate owner.toNat handle.toNat

def execPoolShare (owner : BitVec 3) (handle : BitVec 32) (s : State) : Host.Outcome State Fault Refusal :=
  s.doing fun d => d.fwShare owner.toNat handle.toNat

def execPoolRelease (owner : BitVec 3) (handle : BitVec 32) (s : State) : Host.Outcome State Fault Refusal :=
  s.doing fun d => d.fwRelease owner.toNat handle.toNat

end Sys2Proof.Machine
end

