-- ==== Sys2Proof/Machine/Frames.lean ====
section
/-!
DEFINITION. What goes on the wire as bytes: the RRT header and SACK blocks, least significant byte first (R5, R267), in UDP, IPv6 and
Ethernet, whose headers keep network byte order (R5, R259 to R266).
-/
namespace Sys2Proof.Machine

/-- `n` bytes of a number in network order. -/
def netBytes (n v : Nat) : List Byte := (leBytes n v).reverse

/-- The 16 bytes of an address in network order. -/
def ipBytes (a : IPv6) : List Byte := netBytes 16 a.toNat

/-! ## RRT (R267) -/

/-- A segment as bytes: 48 bytes of header, SACK blocks, payload. -/
def segBytes (s : Seg) : List Byte :=
  leBytes 1 s.ver.toNat ++ [s.typ] ++ leBytes 1 (b2n s.first + 2 * b2n s.last + 4 * b2n s.ackNow) ++ leBytes 1 (s.sack.length % 8)
    ++ leBytes 2 s.dstConn.toNat ++ leBytes 2 s.srcConn.toNat ++ leBytes 4 s.epoch.toNat ++ leBytes 6 s.seq.toNat ++ leBytes 6 s.ack.toNat
    ++ leBytes 2 s.credit.toNat ++ leBytes 2 s.payLen.toNat ++ leBytes 4 s.msgLen.toNat ++ leBytes 4 s.msgOff.toNat
    ++ leBytes 4 s.tsVal.toNat ++ leBytes 4 s.tsEcho.toNat ++ leBytes 4 0
    ++ s.sack.flatMap (fun b => leBytes 6 b.1.toNat ++ leBytes 6 b.2.toNat) ++ s.payload

/-! ## UDP, IPv6 and Ethernet -/

/-- The 16-bit words of bytes in network order; an odd last byte is followed by 0. -/
def netWords : List Byte → List Nat
  | [] => []
  | [a] => [256 * a.toNat]
  | a :: b :: rest => (256 * a.toNat + b.toNat) :: netWords rest

/-- The Internet checksum: the ones' complement of the ones' complement sum. -/
def inetSum (bs : List Byte) : Nat :=
  0xFFFF - (netWords bs).foldl (fun s w => (s + w) % 65536 + (s + w) / 65536) 0

/-- The checksum of an upper-layer packet over IPv6, with its pseudo-header (R266). -/
def upperSum (src dst : IPv6) (next : Nat) (packet : List Byte) : Nat :=
  inetSum (ipBytes src ++ ipBytes dst ++ netBytes 4 packet.length ++ netBytes 4 next ++ packet)

/-- A UDP datagram with its checksum; one that comes out as 0 is sent as ones, as UDP has it (PRESUMED, log 48). -/
def udpBytes (src dst : IPv6) (sport dport : Nat) (pay : List Byte) : List Byte :=
  let head := netBytes 2 sport ++ netBytes 2 dport ++ netBytes 2 (8 + pay.length)
  let sum := upperSum src dst 17 (head ++ netBytes 2 0 ++ pay)
  head ++ netBytes 2 (if sum = 0 then 0xFFFF else sum) ++ pay

/-- An IPv6 packet (R264): traffic class 0 and a flow label. -/
def ipv6Bytes (flow next hop : Nat) (src dst : IPv6) (pay : List Byte) : List Byte :=
  netBytes 4 (6 * 2 ^ 28 + flow % 2 ^ 20) ++ netBytes 2 pay.length ++ netBytes 1 next ++ netBytes 1 hop ++ ipBytes src ++ ipBytes dst ++ pay

/-- The frame check sequence: CRC-32 of Ethernet (PRESUMED: IEEE 802.3; log 48). -/
def fcs (bs : List Byte) : Nat := bs.foldl (crcByte 32 0xEDB88320) 0xFFFFFFFF ^^^ 0xFFFFFFFF

/-- An Ethernet frame, from destination address through FCS (R259), with the tag of R260 where there is one: PCP and VID. -/
def etherBytes (dst src : Word) (tag : Option (Nat × Nat)) (packet : List Byte) : List Byte :=
  let tagged := match tag with | some (pcp, vid) => netBytes 2 0x8100 ++ netBytes 2 (8192 * pcp + vid) | none => []
  let body := leBytes 6 dst.toNat ++ leBytes 6 src.toNat ++ tagged ++ netBytes 2 0x86DD ++ packet
  body ++ leBytes 4 (fcs body)

/-- The MAC address of an IPv6 multicast address: 33:33 and its last four bytes. -/
def groupMac (a : IPv6) : Word :=
  let b := fun (i : Nat) => a.toNat / 256 ^ i % 256
  BitVec.ofNat 48 (0x3333 + b 3 * 2 ^ 16 + b 2 * 2 ^ 24 + b 1 * 2 ^ 32 + b 0 * 2 ^ 40)

/-! ## ICMPv6 (R263) -/

/-- An ICMPv6 message: type, code 0, checksum and the rest. -/
def icmpBytes (src dst : IPv6) (kind : Nat) (rest : List Byte) : List Byte :=
  let sum := upperSum src dst 58 (netBytes 1 kind ++ netBytes 3 0 ++ rest)
  netBytes 1 kind ++ netBytes 1 0 ++ netBytes 2 sum ++ rest

/-- What follows the checksum in a message of R263 (PRESUMED: RFC 4861 and RFC 3810; log 48): solicitation and advertisement with the
sender's link-layer address, report with one record for each group, echo reply with the request's body. -/
def icmpRest (kind : Nat) (src dst : IPv6) (mac : Word) (body : List Byte) : List Byte :=
  match kind with
  | 135 => netBytes 4 0 ++ body ++ (if src = 0 then [] else netBytes 2 0x0101 ++ leBytes 6 mac.toNat)
  | 136 => netBytes 4 (if dst.toNat / 2 ^ 120 = 0xFF then 0x20000000 else 0x60000000) ++ body ++ netBytes 2 0x0201 ++ leBytes 6 mac.toNat
  | 143 =>
    let n := body.length / 16
    netBytes 2 0 ++ netBytes 2 n ++ (List.range n).flatMap fun i => netBytes 1 2 ++ netBytes 3 0 ++ (body.drop (16 * i)).take 16
  | _ => body

/-- An ICMPv6 packet: hop limit 255 for Neighbor Discovery, 1 behind a router alert for a report, else 64 (R264; log 48). -/
def icmpPacket (kind : Nat) (src dst : IPv6) (mac : Word) (body : List Byte) : List Byte :=
  let message := icmpBytes src dst kind (icmpRest kind src dst mac body)
  if kind = 143 then ipv6Bytes 0 0 1 src dst (netBytes 1 58 ++ netBytes 1 0 ++ netBytes 4 0x05020000 ++ netBytes 2 0x0100 ++ message)
  else ipv6Bytes 0 58 (if kind = 129 then 64 else 255) src dst message

end Sys2Proof.Machine
end

