-- ==== Sys2Proof/Machine/Link.lean ====
section
/-!
DEFINITION. The Andola link (R443, R446 to R448): routes, the bytes of flits, credit, acknowledgement and replay; what is sent on it
(R452, R454 to R456).
-/
namespace Sys2Proof.Machine

/-! ## Ports and routes -/

/-- A cascade port. -/
def Dev.casPort (d : Dev) (p : Nat) : CPort := d.cas.ports.getD p CPort.zero

/-- Change a cascade port. -/
def Dev.modCasPort (d : Dev) (p : Nat) (f : CPort → CPort) : Dev :=
  { d with cas := { d.cas with ports := modAt f d.cas.ports p } }

/-- The member ID of this device (R442). -/
def Dev.ownId (d : Dev) : Nat := d.glb.straps.id.toNat

/-- An ID that link-up or a flit names (R443). -/
def Dev.noteId (d : Dev) (i : Nat) : Dev := { d with cas := { d.cas with topId := max d.cas.topId (i % 16) } }

/-- The devices of the set, as far as this one knows: those up to the highest ID met. -/
def Dev.setSize (d : Dev) (dst : Nat) : Nat := 1 + (d.cas.members.map CMember.id).foldl max (max d.cas.topId (max d.ownId dst))

/-- The port on which a flit that came on port `p` goes on (R443): the other one, or in a ring back while that one is down. -/
def Dev.onward (d : Dev) (p : Nat) : Nat := if d.flag F.casCfgRing && !(d.casPort (1 - p)).up then p else 1 - p

/-- The port towards a device (R443): port 1 leads to higher IDs; in a ring the shorter way round, or the other way while that
port is down. -/
def Dev.route (d : Dev) (dst : Nat) : Nat :=
  let own := d.ownId
  let n := d.setSize dst
  let up := if own < dst then dst - own else dst + n - own
  if d.flag F.casCfgRing then
    let p := if 2 * up ≤ n then 1 else 0
    if (d.casPort p).up then p else 1 - p
  else if own < dst then 1 else 0

/-! ## Flits (R445, R446) -/

/-- Bytes 0 to 507 of a flit. -/
def flitBody (f : Flit) : List Byte :=
  leBytes 1 (f.ftype.toNat + 8 * f.vc.toNat) ++ leBytes 1 (f.dst.toNat + 16 * f.src.toNat) ++ leBytes 2 f.seq.toNat
    ++ leBytes 2 f.ackSeq.toNat ++ leBytes 1 (f.crVc.toNat + 4 * f.crCnt.toNat) ++ leBytes 1 0 ++ leBytes 2 f.payload.length
    ++ leBytes 6 0 ++ fitTo 492 f.payload

/-- The 512 bytes of a flit, with FCRC. -/
def flitBytes (f : Flit) : List Byte := flitBody f ++ leBytes 4 (crc32c (flitBody f))

/-- Whether what has come is a flit whose FCRC checks. -/
def fcrcGood (bs : List Byte) : Bool := bs.length == 512 && bs.drop 508 == leBytes 4 (crc32c (bs.take 508))

/-- The flit that bytes spell. -/
def flitOf (bs : List Byte) : Flit where
  ftype := BitVec.ofNat 3 (fieldAt bs 0 1)
  vc := BitVec.ofNat 2 (fieldAt bs 0 1 / 8)
  dst := BitVec.ofNat 4 (fieldAt bs 1 1)
  src := BitVec.ofNat 4 (fieldAt bs 1 1 / 16)
  seq := BitVec.ofNat 16 (fieldAt bs 2 2)
  ackSeq := BitVec.ofNat 16 (fieldAt bs 4 2)
  crVc := BitVec.ofNat 2 (fieldAt bs 6 1)
  crCnt := BitVec.ofNat 6 (fieldAt bs 6 1 / 4)
  payload := (bs.drop 16).take (min 492 (fieldAt bs 8 2))

/-- A flit leaves on the lane that its SEQ deals it to (R445). -/
def Out.ofFlit (p : Nat) (f : Flit) : Out := .flit p (f.seq.toNat % 4) f (flitBytes f)

/-! ## Sending -/

/-- Payload bytes of a flit (R446). -/
def flitPayload : Nat := 492

/-- Cut a message into flits; SEQ and ACK_SEQ are given when a flit departs. -/
def cutFlits (ftype vc dst src : Nat) : Nat → List Byte → List Flit
  | 0, _ => []
  | n + 1, bs =>
    let f : Flit := { ftype := BitVec.ofNat 3 ftype, vc := BitVec.ofNat 2 vc, dst := BitVec.ofNat 4 dst, src := BitVec.ofNat 4 src
                      seq := 0, ackSeq := 0, crVc := 0, crCnt := 0, payload := bs.take flitPayload }
    let rest := bs.drop flitPayload
    f :: (if rest.isEmpty then [] else cutFlits ftype vc dst src n rest)

/-- The flit that departs next from a port: channels 1 to 3 in strict order, each only with credit (R447), with at most 256
flits unacknowledged (R448). -/
def CPort.nextFlit (k : CPort) : Option Flit :=
  if !k.up || 256 ≤ k.replay.length then none
  else ([1, 2, 3] : List Nat).findSome? fun vc =>
    if k.credit.getD (vc - 1) 0 = 0 then none else k.outq.find? fun f => f.vc.toNat == vc

/-- Send what may be sent on a port, at most `n` flits. -/
def Dev.pump (d : Dev) (p : Nat) : Nat → Dev
  | 0 => d
  | n + 1 =>
    let k := d.casPort p
    match k.nextFlit with
    | none => d
    | some f =>
      let g : Flit := { f with seq := BitVec.ofNat 16 k.nextSeq, ackSeq := BitVec.ofNat 16 k.rcvSeq }
      let d := d.modCasPort p fun k => { k with
        outq := k.outq.erase f, replay := k.replay ++ [g], nextSeq := (k.nextSeq + 1) % 65536
        credit := modAt (fun c => c - 1) k.credit (f.vc.toNat - 1) }
      (d.emit (.ofFlit p g)).pump p n

/-- Send what may be sent on a port. -/
def Dev.pumpAll (d : Dev) (p : Nat) : Dev := d.pump p (d.casPort p).outq.length

/-- Send a message to a device of the set on a channel (R447): control messages on channel 1, data-set payloads, record bytes
and coded clicks on channel 2, other bulk traffic on channel 3. -/
def Dev.sendLink (d : Dev) (dst vc : Nat) (m : LinkMsg) : Dev :=
  let bs := Config.linkBytes m
  let p := d.route dst
  let fs := cutFlits (if vc = 1 then 3 else 1) vc dst d.ownId (bs.length + 1) bs
  (d.modCasPort p fun k => { k with outq := k.outq ++ fs }).pumpAll p

/-- The joined members. -/
def Dev.joinedIds (d : Dev) : List Nat := (d.cas.members.filter fun m => m.state == 3).map CMember.id

/-- A control message to every joined member. -/
def Dev.tellMembers (d : Dev) (m : LinkMsg) : Dev :=
  if d.isMaster then d.joinedIds.foldl (fun d j => d.sendLink j 1 m) d else d

/-- A member's control message to its master. -/
def Dev.tellMaster (d : Dev) (m : LinkMsg) : Dev := if d.isMember then d.sendLink 0 1 m else d

/-- A data set's payload goes to a member (R454); while FC_IN[0] is 1, one whose slot begins after the member's next slot
is held back (R455). -/
def Dev.sendPayload (d : Dev) (mem slot : Nat) (m : LinkMsg) : Dev :=
  let next := (d.tpos / 76800).toNat
  let near := slot ≤ next + 1 ∧ next ≤ slot + 1
  if d.cas.fcPause && !near then { d with cas := { d.cas with waiting := d.cas.waiting ++ [(mem, slot, m)] } }
  else d.sendLink mem 2 m

/-- Payloads held back are sent where the pause has ended or their slot has become the member's next. -/
def Dev.sendWaiting (d : Dev) : Dev :=
  let ws := d.cas.waiting
  ws.foldl (fun d w => d.sendPayload w.1 w.2.1 w.2.2) { d with cas := { d.cas with waiting := [] } }

/-- The beacon of R452 for eyelet boundary `e` to every joined member in width mode; DEP_OFS is a time that no rule states. -/
def Dev.sendBeacon (d : Dev) (e : Int) (fly : Bool) : Dev :=
  if !(d.isMaster && d.casMode == 1) || d.joinedIds.isEmpty then d
  else
    let (ofs, d) := d.fresh
    let flags := d.get F.posStatusMode % 8 + 8 * d.get F.posStatusDir + 16 * b2n fly
    let bs := leBytes 6 (unsigned 48 (512 * e)) ++ leBytes 4 d.pos.freq ++ leBytes 1 flags ++ leBytes 2 (ofs.toNat % 65536)
    d.joinedIds.foldl (fun d j =>
      let p := d.route j
      if (d.casPort p).up then
        d.emit (.ofFlit p ⟨2, 0, BitVec.ofNat 4 j, BitVec.ofNat 4 d.ownId, 0, BitVec.ofNat 16 (d.casPort p).rcvSeq, 0, 0, bs⟩)
      else d) d

/-! ## Acknowledgement and replay (R448) -/

/-- A NAK that names the SEQ expected. -/
def Dev.sendNak (d : Dev) (p : Nat) : Dev :=
  let s := BitVec.ofNat 16 (d.casPort p).rcvSeq
  (d.emit (.ofFlit p ⟨4, 0, 0, BitVec.ofNat 4 d.ownId, s, s, 0, 0, []⟩)).bump C.casNak

/-- An idle flit that acknowledges what has come and returns one flit of credit. -/
def Dev.sendCredit (d : Dev) (p vc : Nat) : Dev :=
  d.emit (.ofFlit p ⟨0, 0, 0, BitVec.ofNat 4 d.ownId, 0, BitVec.ofNat 16 (d.casPort p).rcvSeq, BitVec.ofNat 2 vc, 1, []⟩)

/-- A port goes down. -/
def Dev.casPortDown (d : Dev) (p : Nat) : Dev := (d.modCasPort p fun k => { k with up := false }).bump C.casPortDown

/-- The port rewinds: everything not acknowledged is sent again, in order. Sixteen rewinds in succession take it down. -/
def Dev.rewindPort (d : Dev) (p : Nat) : Dev :=
  let d := (d.modCasPort p fun k => { k with rewinds := k.rewinds + 1 }).bump C.casRewind
  let k := d.casPort p
  if 16 ≤ k.rewinds then d.casPortDown p
  else k.replay.foldl (fun d f => d.emit (.ofFlit p { f with ackSeq := BitVec.ofNat 16 k.rcvSeq })) d

/-- ACK_SEQ passes flits of the replay FIFO, and credit comes back. -/
def CPort.acked (k : CPort) (f : Flit) : CPort :=
  let first := match k.replay with | g :: _ => g.seq.toNat | [] => k.nextSeq
  let n := (f.ackSeq.toNat + 65536 - first) % 65536
  let k := if 0 < n ∧ n ≤ k.replay.length then { k with replay := k.replay.drop n, rewinds := 0 } else k
  let vc := f.crVc.toNat
  if vc = 0 then k else { k with credit := modAt (fun c => min 64 (c + f.crCnt.toNat)) k.credit (vc - 1) }

end Sys2Proof.Machine
end

