-- ==== Sys2Proof/Machine/Wire.lean ====
section
/-!
DEFINITION. Sending on the host ports: addresses and the next hop (R262, R263), priorities and pauses (R260, R261),
credit (R285, R286), control segments (R279, R280) and the transmit FIFO (R282, R283).
-/
namespace Sys2Proof.Machine

/-! ## Addresses and the next hop -/

/-- The link-local address of a port, from its MAC address by the modified EUI-64 method (R262). -/
def Dev.linkLocal (d : Dev) (port : Nat) : IPv6 :=
  let m := (d.get (F.hptMacAddrAddr.ix port))
  let b := fun i => m / 256 ^ i % 256
  BitVec.ofNat 128 (0xFE80 * 2 ^ 112 + (b 0 ^^^ 2) * 2 ^ 56 + b 1 * 2 ^ 48 + b 2 * 2 ^ 40 + 0xFFFE * 2 ^ 24
    + b 3 * 2 ^ 16 + b 4 * 2 ^ 8 + b 5)

/-- The global address of a port (R295). -/
def Dev.globalIp (d : Dev) (port : Nat) : IPv6 :=
  BitVec.ofNat 128 (d.get (F.hptIpAddrAHi.ix (4 * port)) * 2 ^ 96 + d.get (F.hptIpAddrAMid.ix (4 * port)) * 2 ^ 48
    + d.get (F.hptIpAddrALo.ix (4 * port)))

/-- HPT.ROUTER (R295). -/
def Dev.routerIp (d : Dev) : IPv6 :=
  BitVec.ofNat 128 (d.get F.hptRouterAHi * 2 ^ 96 + d.get F.hptRouterAMid * 2 ^ 48 + d.get F.hptRouterALo)

/-- Whether an address is link-local. -/
def isLinkLocal (a : IPv6) : Bool := a.toNat / 2 ^ 118 == 0x3FA

/-- The next hop toward a destination (R262): itself when link-local or in the prefix of the global address, else the
router. -/
def Dev.nextHop (d : Dev) (port : Nat) (dst : IPv6) : IPv6 :=
  let plen := min (d.get (F.hptIpAddrPlen.ix (4 * port))) 128
  let same := dst.toNat / 2 ^ (128 - plen) == (d.globalIp port).toNat / 2 ^ (128 - plen)
  if isLinkLocal dst || (d.flag (F.hptIpAddrEn.ix (4 * port)) && same) then dst else d.routerIp

/-- A port. -/
def Dev.port (d : Dev) (p : Nat) : Port := d.hpt.ports.getD p Port.zero

/-- Change a port. -/
def Dev.modPort (d : Dev) (p : Nat) (f : Port → Port) : Dev := { d with hpt := { d.hpt with ports := modAt f d.hpt.ports p } }

/-- Whether the neighbour cache resolves the next hop toward a destination (R263). -/
def Dev.resolved (d : Dev) (port : Nat) (dst : IPv6) : Bool :=
  (d.port port).neighbors.any fun n => n.ip == d.nextHop port dst

/-- A use of the next hop's entry makes it the most recently used (R263). -/
def Dev.useNeighbor (d : Dev) (port : Nat) (dst : IPv6) : Dev :=
  let hop := d.nextHop port dst
  d.modPort port fun p => { p with neighbors :=
    (p.neighbors.filter fun n => n.ip == hop) ++ (p.neighbors.filter fun n => n.ip != hop) }

/-- The address that a port sends from (R262): link-local to a link-local address, else the global one where it is configured (DESIGN
CHOICE, log 48). -/
def Dev.sourceIp (d : Dev) (port : Nat) (dst : IPv6) : IPv6 :=
  if isLinkLocal dst || !d.flag (F.hptIpAddrEn.ix (4 * port)) then d.linkLocal port else d.globalIp port

/-- The tag of a frame of a priority (R260). -/
def Dev.tagOf (d : Dev) (prio : Nat) : Option (Nat × Nat) :=
  if d.flag F.hptPortCfgVlanEn then some (prio, d.get F.hptPortCfgVid) else none

/-- The solicited-node group of an address (R263). -/
def solicitedNode (a : IPv6) : IPv6 := BitVec.ofNat 128 (0xFF02 * 2 ^ 112 + 0x1FF * 2 ^ 24 + a.toNat % 2 ^ 24)

/-- The MAC address of a destination: a group's, or that of the next hop in the neighbour cache (R263); 0 where it has none. -/
def Dev.macOf (d : Dev) (port : Nat) (dst : IPv6) : Word :=
  if dst.toNat / 2 ^ 120 = 0xFF then groupMac dst
  else (((d.port port).neighbors.find? fun n => n.ip == d.nextHop port dst).map Neighbor.mac).getD 0

/-- The MAC address of a port. -/
def Dev.ownMac (d : Dev) (port : Nat) : Word := BitVec.ofNat 48 (d.get (F.hptMacAddrAddr.ix port))

/-- An ICMPv6 message of a port as it leaves (R260, R263), from an address to a MAC address. -/
def Dev.icmpTo (d : Dev) (port kind : Nat) (src dst : IPv6) (mac : Word) (body : List Byte) : Out :=
  .icmp port kind dst body
    (etherBytes mac (d.ownMac port) (d.tagOf (d.get F.hptClassMapPcpCtrl)) (icmpPacket kind src dst (d.ownMac port) body))

/-- An ICMPv6 message of a port as it leaves. -/
def Dev.icmpOut (d : Dev) (port kind : Nat) (dst : IPv6) (body : List Byte) : Out :=
  d.icmpTo port kind (d.sourceIp port dst) dst (d.macOf port dst) body

/-- A Neighbor Solicitation for the next hop toward a destination (R263). -/
def Dev.solicit (d : Dev) (port : Nat) (dst : IPv6) : Dev :=
  d.emit (d.icmpOut port 135 (solicitedNode (d.nextHop port dst)) (ipBytes (d.nextHop port dst)))

/-! ## Priorities -/

/-- The PCP of a segment by its TYPE and class (R260). -/
def Dev.pcpOf (d : Dev) (typ cls : Nat) : Nat :=
  if [2, 3, 4, 5].contains typ then d.get F.hptClassMapPcpCtrl
  else if typ = typMgmtRsp then d.get F.hptClassMapPcpUrgent
  else match cls with
    | 0 => d.get F.hptClassMapPcpC0 | 1 => d.get F.hptClassMapPcpC1 | 2 => d.get F.hptClassMapPcpC2
    | 3 => d.get F.hptClassMapPcpC3 | _ => d.get F.hptClassMapPcpUrgent

/-- Whether a priority is paused on a port (R261). An untagged port has no priorities to pause. -/
def Dev.paused (d : Dev) (port prio : Nat) : Bool :=
  d.flag F.hptPortCfgVlanEn && (d.port port).paused.contains prio

/-- Whether a port can send a segment of a priority now (R258, R261, R291). -/
def Dev.portOpen (d : Dev) (port prio : Nat) : Bool :=
  d.glb.dev.hostUp && d.flag (F.hptPortStatusLinkUp.ix port) && !d.paused port prio

/-! ## Credit -/

/-- The credit limit of a connection (R286). -/
def Dev.creditLimit (d : Dev) (k : Conn) : Nat :=
  max 2 ((if 1 ≤ d.level 0 then d.get F.hptRrtCfgCreditEw1 else d.get F.hptRrtCfgCreditBase) - k.creditCut)

/-- The right edge that the device may advertise now: it never moves back (R285, R286). -/
def Dev.edge (d : Dev) (k : Conn) : Word :=
  let e := k.rcvNext + BitVec.ofNat 48 (d.creditLimit k)
  if before48 k.rcvEdge e then e else k.rcvEdge

/-! ## Building and sending segments -/

/-- The clock that the device sends (R267). -/
def Dev.tsVal (d : Dev) : BitVec 32 := BitVec.ofNat 32 d.time

/-- TS_ECHO for a connection (R267). -/
def Dev.tsEcho (d : Dev) (c : Nat) : BitVec 32 :=
  match d.hpt.timers.find? (fun t => t.id == c) with | some t => t.tsEcho | none => 0

/-- A segment of a connection with the current ACK, CREDIT and clocks (R267, R283). -/
def Dev.segment (d : Dev) (k : Conn) (typ : Nat) (first last ackNow : Bool) (sack : List (Word × Word)) (seq : Word)
    (pay : List Byte) (msgLen off : Nat) : Seg where
  port := k.port
  src := k.host
  sport := BitVec.ofNat 16 k.hostPort
  ver := 1
  typ := BitVec.ofNat 8 typ
  first := first
  last := last
  ackNow := ackNow
  sack := sack
  dstConn := BitVec.ofNat 16 k.hostId
  srcConn := BitVec.ofNat 16 k.id
  epoch := BitVec.ofNat 32 k.epoch
  seq := seq
  ack := k.rcvNext
  credit := BitVec.ofNat 16 (d.edge k - k.rcvNext).toNat
  payLen := BitVec.ofNat 16 pay.length
  msgLen := BitVec.ofNat 32 msgLen
  msgOff := BitVec.ofNat 32 off
  tsVal := d.tsVal
  tsEcho := d.tsEcho k.id
  payload := pay

/-- The frame that carries a segment (R5, R259 to R267): from the port of RRT to the host's, hop limit 64. -/
def Dev.frameOf (d : Dev) (pcp : Option Nat) (flow : Word) (s : Seg) : List Byte :=
  let src := d.sourceIp s.port s.src
  let udp := udpBytes src s.src (d.get F.hptRrtCfgUdpPort) s.sport.toNat (segBytes s)
  etherBytes (d.macOf s.port s.src) (d.ownMac s.port) (pcp.map fun p => (p, d.get F.hptPortCfgVid)) (ipv6Bytes flow.toNat 17 64 src s.src udp)

/-- Put a segment on the wire: counted (R297), with its PCP when the port is tagged (R260). -/
def Dev.wire (d : Dev) (s : Seg) (flow : Word) (cls : Nat) : Dev :=
  let pcp := if d.flag F.hptPortCfgVlanEn then some (d.pcpOf s.typ.toNat cls) else none
  ((d.bump C.hptTxSeg).emit (.segment pcp flow s (d.frameOf pcp flow s))).useNeighbor s.port s.src

/-- A segment of a connection on the wire: it advertises the edge and discharges every pending acknowledgement. -/
def Dev.wireOf (d : Dev) (k : Conn) (s : Seg) (cls : Nat) : Dev :=
  let e := d.edge k
  (d.wire s k.flow cls).modConn k.id fun k => { k with rcvEdge := e, unacked := 0 }

/-- Distances above `base` of a list of sequence numbers, in rising order and without repeats. -/
def aboveSorted (base : Word) (ss : List Word) : List Nat :=
  ((ss.map fun s => (s - base).toNat).filter fun n => decide (0 < n) && decide (n < 2 ^ 47)).foldl
    (fun acc n => (acc.filter fun m => decide (m < n)) ++ [n] ++ acc.filter fun m => decide (n < m)) []

/-- Runs of consecutive numbers in a rising list, as (start, end). -/
def runsOf : List Nat → List (Nat × Nat)
  | [] => []
  | n :: ns =>
    match runsOf ns with
    | (a, b) :: rest => if a = n + 1 then (n, b) :: rest else (n, n + 1) :: (a, b) :: rest
    | [] => [(n, n + 1)]

/-- The SACK blocks of an ACK (R280): every run above ACK, at most 4, the run of the latest accepted segment first. -/
def Conn.sackBlocks (k : Conn) : List (Word × Word) :=
  let runs := runsOf (aboveSorted k.rcvNext (k.rcv.map RSeg.seq))
  let here := fun (r : Nat × Nat) => match k.lastRcv with
    | some s => decide (r.1 ≤ (s - k.rcvNext).toNat) && decide ((s - k.rcvNext).toNat < r.2)
    | none => false
  (((runs.filter here) ++ (runs.filter fun r => !here r)).take 4).map fun r =>
    (k.rcvNext + BitVec.ofNat 48 r.1, k.rcvNext + BitVec.ofNat 48 r.2)

/-- The number of the next segment that the device will send (R279). -/
def Conn.nextSeq (k : Conn) : Word := match k.tx[k.rp]? with | some x => x.seq | none => k.sndNext

/-- An ACK segment of a connection as it stands now (R279, R280). -/
def Dev.ackSegment (d : Dev) (k : Conn) (now : Bool) : Seg :=
  d.segment k 3 false false now k.sackBlocks k.nextSeq [] 0 0

/-- Whether a control segment for a destination can go out now. -/
def Dev.ctrlOpen (d : Dev) (port : Nat) (dst : IPv6) : Bool :=
  d.portOpen port (d.get F.hptClassMapPcpCtrl) && d.resolved port dst

/-- Send an acknowledgement of a connection (R280), or let it wait for its port or its next hop (log 14). -/
def Dev.sendAck (d : Dev) (c : Nat) (now : Bool) : Dev :=
  match d.conn? c with
  | none => d
  | some k =>
    if d.ctrlOpen k.port k.host then d.wireOf k (d.ackSegment k now) 4
    else
      let waits := d.hpt.ctrl.any fun x => match x.2 with | .ack c' _ => c' == c | .seg _ => false
      let ctrl := if waits then d.hpt.ctrl.map fun x => match x.2 with
          | .ack c' n => if c' == c then (x.1, .ack c' (n || now)) else x
          | .seg _ => x
        else d.hpt.ctrl ++ [(k.port, .ack c now)]
      let d := { d with hpt := { d.hpt with ctrl := ctrl } }
      if d.resolved k.port k.host then d else d.solicit k.port k.host

/-- Send a control segment that is complete in itself (SYN_ACK, RST), or let it wait (log 14). -/
def Dev.sendCtrl (d : Dev) (s : Seg) (flow : Word) : Dev :=
  if d.ctrlOpen s.port s.src then d.wire s flow 4
  else
    let d := { d with hpt := { d.hpt with ctrl := d.hpt.ctrl ++ [(s.port, .seg s)] } }
    if d.resolved s.port s.src then d else d.solicit s.port s.src

/-- Credit that grows by a quarter of CREDIT_BASE or more, or from none, is advertised at once (R280). -/
def Dev.advertise (d : Dev) (c : Nat) : Dev :=
  match d.conn? c with
  | none => d
  | some k =>
    let grown := (d.edge k - k.rcvEdge).toNat
    if k.st != .synRcvd && decide (0 < grown)
        && (decide (d.get F.hptRrtCfgCreditBase ≤ 4 * grown) || k.rcvEdge == k.rcvNext)
    then d.sendAck c false else d

/-- What follows for credit when P0's level or a queue has changed (R280, R286): reductions end below 960 commands,
and credit that has grown enough is advertised. -/
def Dev.refreshCredit (d : Dev) : Dev :=
  let held := fun (k : Conn) => (d.cqm.cmds.filter fun c => c.queue == k.queue && c.counts).length
  let lift := fun (k : Conn) => if held k < 960 then { k with creditCut := 0 } else k
  let d := { d with hpt := { d.hpt with conns := d.hpt.conns.map lift } }
  (d.hpt.conns.map Conn.id).foldl Dev.advertise d

/-! ## The transmit FIFO -/

/-- `len` bytes of the runs of DDR from offset `off`. -/
def Dev.cutParts (d : Dev) : List (Nat × Nat) → Nat → Nat → List Byte
  | [], _, _ => []
  | (a, n) :: rest, off, len =>
    if n ≤ off then d.cutParts rest (off - n) len
    else
      let m := min len (n - off)
      d.ddrBytes (a + off) m ++ (if m < len then d.cutParts rest 0 (len - m) else [])

/-- `len` bytes of a message from offset `off`. -/
def Dev.cutPayload (d : Dev) (p : Payload) (off len : Nat) : List Byte :=
  let h := (p.head.drop off).take len
  h ++ (if h.length < len then d.cutParts p.parts (off - p.head.length) (len - h.length) else [])

/-- The largest payload that the device sends on a connection (R267, R272). -/
def Dev.maxPay (d : Dev) (k : Conn) : Nat := min k.peerMss (d.get F.hptPortCfgMtu - 96)

/-- Cut waiting messages into descriptors while the FIFO of 1,024 has room (R270, R282). -/
def Conn.fill (maxPay : Nat) (k : Conn) : Nat → Conn
  | 0 => k
  | n + 1 =>
    if 1024 ≤ k.tx.length then k
    else match k.msgs[k.cutIx]? with
      | none => k
      | some m =>
        let len := min (max maxPay 1) (m.length - k.cutOff)
        let last := decide (m.length ≤ k.cutOff + len)
        let x : Desc := ⟨k.sndNext, m.id, m.typ, m.cls, k.cutOff == 0, last, m.length, k.cutOff, len, 0, false, none⟩
        Conn.fill maxPay { k with
          tx := k.tx ++ [x], sndNext := k.sndNext + 1
          cutIx := if last then k.cutIx + 1 else k.cutIx
          cutOff := if last then 0 else k.cutOff + len } n

/-- Fill the transmit FIFO of a connection. -/
def Dev.fillTx (d : Dev) (c : Nat) : Dev := d.modConn c fun k => k.fill (d.maxPay k) (1024 - k.tx.length)

/-- The payload of a descriptor. -/
def Dev.descBytes (d : Dev) (k : Conn) (x : Desc) : List Byte :=
  match k.msgs.find? (fun m => m.id == x.msg && m.typ == x.typ) with
  | some m => d.cutPayload m.payload x.off x.len
  | none => []

/-- The first poisoned word among `len` bytes of runs of DDR from offset `off`. -/
def Dev.partsPoison (d : Dev) : List (Nat × Nat) → Nat → Nat → Option Nat
  | [], _, _ => none
  | (a, n) :: rest, off, len =>
    if n ≤ off then d.partsPoison rest (off - n) len
    else (d.poisonIn (a + off) (min len (n - off))).or (d.partsPoison rest 0 (len - (n - off)))

/-- A poisoned word in the payload of a descriptor. -/
def Dev.descPoison (d : Dev) (k : Conn) (x : Desc) : Option Nat :=
  match k.msgs.find? (fun m => m.id == x.msg && m.typ == x.typ) with
  | some m =>
    let skip := m.payload.head.length
    if x.off + x.len ≤ skip then none else d.partsPoison m.payload.parts (x.off - skip) (x.off + x.len - max x.off skip)
  | none => none

/-- Send the descriptor at position `i` of a transmit FIFO (R282, R283). -/
def Dev.sendDesc (d : Dev) (c i : Nat) : Dev :=
  match d.conn? c with
  | none => d
  | some k =>
    match k.tx[i]? with
    | none => d
    | some x =>
      let s := d.segment k x.typ x.first x.last false [] x.seq (d.descBytes k x) x.msgLen x.off
      let d := d.wireOf k s x.cls
      let d := if x.sends = 0 then d else d.bump C.hptRetx
      d.modConn c fun k => { k with tx := modAt (fun x => { x with sends := x.sends + 1 }) k.tx i }

/-- Whether a descriptor may be sent now: below the peer's right edge or sent before (R285), its port open to its
priority and its next hop known. -/
def Dev.descOpen (d : Dev) (k : Conn) (x : Desc) : Bool :=
  (before48 x.seq k.peerEdge || decide (0 < x.sends)) && d.portOpen k.port (d.pcpOf x.typ x.cls) && d.resolved k.port k.host

/-- The read pointer moves past segments that a SACK block covers (R283). -/
def Conn.skipSacked (k : Conn) : Conn :=
  { k with rp := k.rp + ((k.tx.drop k.rp).takeWhile Desc.sacked).length }

/-- Send the segment at the read pointer (R282). -/
def Dev.sendNext (d : Dev) (c : Nat) : Dev :=
  let d := d.modConn c Conn.skipSacked
  match d.conn? c with
  | none => d
  | some k =>
    match k.tx[k.rp]? with
    | none => d
    | some x =>
      if d.descOpen k x then ((d.sendDesc c k.rp).modConn c fun k => { k with rp := k.rp + 1 }) else d

end Sys2Proof.Machine
end

