-- ==== Sys2Proof/Machine/Queue.lean ====
section
/-!
DEFINITION. The command queues (chapter 10): the command block, acceptance (R304 to R306), completion, freezing and
the log (R300, R303, R321, R322, R327), and arbitration (R307 to R311).
-/
namespace Sys2Proof.Machine

/-! ## Names -/

def opOpen : Nat := 0x01
def opClose : Nat := 0x02
def opWrite : Nat := 0x03
def opRead : Nat := 0x04
def opLocate : Nat := 0x05
def opFlush : Nat := 0x06
def opQuery : Nat := 0x07
def opReadLog : Nat := 0x08
def opResume : Nat := 0x09
def opLoad : Nat := 0x0A
def opUnload : Nat := 0x0B
def opSnapshot : Nat := 0x0C
def opCalibrate : Nat := 0x40
def opLoop : Nat := 0x41
def opNvm : Nat := 0x42
def opRestart : Nat := 0x43
def opTrace : Nat := 0x44

def stGood : Nat := 0x0000
def stAbsent : Nat := 0x0001
def stDiscarded : Nat := 0x0002
def stNotFrozen : Nat := 0x0003
def stBusy : Nat := 0x0004
def stQueueFull : Nat := 0x0100
def stWrongState : Nat := 0x0101
def stOpcode : Nat := 0x0102
def stParam : Nat := 0x0103
def stTagInUse : Nat := 0x0104
def stStreamInvalid : Nat := 0x0105
def stLate : Nat := 0x0106
def stDenied : Nat := 0x0107
def stSnapFull : Nat := 0x0108
def stNotLoaded : Nat := 0x0200
def stNoCartridge : Nat := 0x0201
def stMedium : Nat := 0x0202
def stNotOpen : Nat := 0x0203
def stStreamLimit : Nat := 0x0204
def stStreamOpen : Nat := 0x0205
def stProtected : Nat := 0x0206
def stFull : Nat := 0x0207
def stIndexFull : Nat := 0x0208
def stGenerations : Nat := 0x0209
def stAppendStopped : Nat := 0x020A
def stUnreadable : Nat := 0x020B
def stGuard : Nat := 0x020C
def stCrc : Nat := 0x020D
def stExpansion : Nat := 0x020E
def stRemoved : Nat := 0x020F
def stTransport : Nat := 0x0210
def stLoopRefused : Nat := 0x0211
def stMember : Nat := 0x0212
def stNvmRefused : Nat := 0x0213
def stCalFailed : Nat := 0x0214

/-- Data commands (R299). -/
def isDataOp (o : Nat) : Bool := [1, 2, 3, 4, 5, 6, 7, 0xA, 0xB].contains o
/-- Service commands (R299). -/
def isServiceOp (o : Nat) : Bool := [8, 9, 0xC].contains o
/-- Maintenance commands (R299). -/
def isMaintOp (o : Nat) : Bool := [0x40, 0x41, 0x42, 0x43, 0x44].contains o

/-! ## Parameters of a command block (R298, R299) -/

/-- A parameter of the command block. -/
def Cmd.par (c : Cmd) (off len : Nat) : Nat := fieldAt c.block off len

/-- ALL of a FLUSH. -/
def Cmd.all (c : Cmd) : Bool := bitAt (c.par 16 1) 0

/-- Whether the command names one stream (R307). -/
def Cmd.oneStream (c : Cmd) : Bool :=
  [opOpen, opClose, opWrite, opRead, opLocate].contains c.opcode || (c.opcode == opFlush && !c.all)

/-- Whether the command names every stream (R308). -/
def Cmd.everyStream (c : Cmd) : Bool :=
  c.opcode == opLoad || c.opcode == opUnload || (c.opcode == opFlush && c.all)

/-! ## Finding and changing -/

def Dev.cmd? (d : Dev) (h : Nat) : Option Cmd := d.cqm.cmds.find? (fun c => c.h == h)

def Dev.modCmd (d : Dev) (h : Nat) (f : Cmd → Cmd) : Dev :=
  { d with cqm := { d.cqm with cmds := d.cqm.cmds.map fun c => if c.h == h then f c else c } }

/-- Change every command. -/
def Dev.mapCmds (d : Dev) (f : Cmd → Cmd) : Dev := { d with cqm := { d.cqm with cmds := d.cqm.cmds.map f } }

def Dev.queue? (d : Dev) (q : Nat) : Option Queue := d.cqm.queues.find? (fun k => k.id == q)

def Dev.modQueue (d : Dev) (q : Nat) (f : Queue → Queue) : Dev :=
  { d with cqm := { d.cqm with queues := d.cqm.queues.map fun k => if k.id == q then f k else k } }

/-- Whether a queue is frozen (R322). -/
def Dev.frozen (d : Dev) (q : Nat) : Bool := match d.queue? q with | some k => k.frozen | none => false

/-- Whether the command still takes a place in the queues: outstanding (R305). -/
def Cmd.outstanding (c : Cmd) : Bool := c.counts

/-- Whether the command has been dispatched and has not completed. -/
def Cmd.inWork (c : Cmd) : Bool :=
  match c.phase with | .dispatched | .started | .finished .. => true | .queued | .accepted | .completed => false

/-- Whether a freeze holds the command: it is not dispatched, and not one of READ_LOG and RESUME, which alone are served while a
queue is frozen (R306, R322; log 22). -/
def Cmd.waiting (c : Cmd) : Bool :=
  c.phase == .queued || (c.phase == .accepted && c.opcode != opReadLog && c.opcode != opResume)

/-- Forget the commands of which `p` holds. -/
def Dev.dropCmds (d : Dev) (p : Cmd → Bool) : Dev :=
  { d with cqm := { d.cqm with cmds := d.cqm.cmds.filter fun c => !p c } }

/-! ## Completion (R300, R303, R321, R322, R327) -/

/-- The 32 bytes of a STATUS message (R300). -/
def statusBytes (tag opcode : Nat) (frozen ew already : Bool) (status : Nat) (seq : Nat) (retry : Nat)
    (detail : List Byte) : List Byte :=
  leBytes 4 tag ++ leBytes 1 opcode ++ leBytes 1 (b2n frozen + 2 * b2n ew + 4 * b2n already) ++ leBytes 2 status
    ++ leBytes 6 seq ++ leBytes 2 retry ++ fitTo 16 detail

/-- A log entry for a command (R327). -/
def Dev.cmdEntry (d : Dev) (kind : Nat) (c : Cmd) (status flags : Nat) (detail : List Byte) : LogEntry :=
  match d.queue? c.queue with
  | some q => ⟨0, 0, 0, q.epochs.headD 0, kind, q.conn.getD 0xFF, q.hostId, c.tag, c.opcode, flags, status, c.stream,
      c.record, detail⟩
  | none => ⟨0, 0, 0, 0, kind, 0xFF, 0, c.tag, c.opcode, flags, status, c.stream, c.record, detail⟩

/-- Send a STATUS or DATA_IN on a command's connection, or keep it with the orphan (R300, R301, R324). Where the orphan
has been discarded, the status is kept in the log (R278). -/
def Dev.sendFor (d : Dev) (c : Cmd) (typ : Nat) (p : Payload) (len : Nat) (status : Option Nat) (bufs : List Nat) : Dev :=
  match d.queue? c.queue with
  | none => if typ = typStatus then d.log (d.cmdEntry 8 c (fieldAt p.head 6 2) 1 (p.head.drop 16)) else d.releaseAll bufs ownHostTx
  | some q =>
    match q.conn with
    | some k => d.sendMsg k typ c.cls p len status bufs
    | none =>
      { (d.modQueue q.id fun q => { q with kept := q.kept ++ [⟨d.hpt.nextMsg, typ, c.cls, p, len, status, bufs⟩] }) with
        hpt := { d.hpt with nextMsg := d.hpt.nextMsg + 1 } }

/-- Freeze a queue (R322): once, with a log entry, for which a restarting cobbler is waited for (R17), and a count; undispatched commands
are held. -/
def Dev.freeze (d : Dev) (c : Cmd) : Dev :=
  if d.frozen c.queue then d
  else
    let d := d.modQueue c.queue fun q => { q with frozen := true }
    let d := d.mapCmds fun k => if k.queue == c.queue && k.waiting then { k with held := true } else k
    let e := d.cmdEntry 2 c 0 0 []
    (if d.flag F.glbCobblerRestarting then { d with cqm := { d.cqm with owed := d.cqm.owed ++ [e] } } else d.log e).bump C.cqmFreeze

/-- Complete a command (R300): log an execution error, freeze on it, send the STATUS, release data granules that
nothing took, charge a READ_RECORD its length (R311). The STATUS waits for its acknowledgement (R305). -/
def Dev.completeNow (d : Dev) (c : Cmd) (status : Nat) (detail : List Byte) (already : Bool) (retry : Nat) : Dev :=
  let err := decide (0x200 ≤ status) && decide (status < 0x300)
  let refusal := decide (0x100 ≤ status) && decide (status < 0x200) && status != stQueueFull
  let froze := err && !d.frozen c.queue
  let d := if err || refusal then d.log (d.cmdEntry 1 c status (if froze then 2 else 0) detail) else d
  let seq := if err || refusal then d.cqm.logSeq.toNat else 0
  let d := if err then d.freeze c else d
  let bs := statusBytes c.tag c.opcode (d.frozen c.queue) (d.flag F.plcStatusEwSeen) already status seq retry detail
  let d := d.releaseAll c.data ownHostRx
  let d := if c.opcode == opRead && status == stGood && decide (c.cls < 4) then
      { d with cqm := { d.cqm with deficit := modAt (· - (fieldAt detail 0 4 : Nat)) d.cqm.deficit c.cls } } else d
  let d := if status == stBusy then d.bump C.cqmBusy else d
  let d := d.modCmd c.h fun c => { c with phase := .completed, data := [] }
  let d := d.sendFor c typStatus (Payload.onDie bs) 32 (some c.h) []
  if c.counts && (d.queue? c.queue).isSome then d else d.dropCmds fun k => k.h == c.h

/-- A finished command may complete when no command of its stream dispatched before it is still in work (R303). -/
def Dev.mayComplete (d : Dev) (c : Cmd) : Bool :=
  !c.oneStream || !(d.cqm.cmds.any fun k => k.oneStream && k.stream == c.stream && decide (k.h < c.h) && k.inWork)

/-- Complete, in handover order, every finished command whose turn has come (R303). -/
def Dev.settle (d : Dev) : Nat → Dev
  | 0 => d
  | n + 1 =>
    match d.cqm.cmds.find? (fun c =>
        (match c.phase with | .finished .. => true | _ => false) && d.mayComplete c) with
    | none => d
    | some c =>
      match c.phase with
      | .finished st det al => Dev.settle (d.completeNow c st det al 0) n
      | _ => d

/-- A command's execution ends with a status (R300); its completion takes its turn (R303). -/
def Dev.finish (d : Dev) (h status : Nat) (detail : List Byte) (already : Bool := false) : Dev :=
  let d := d.modCmd h fun c => { c with phase := .finished status detail already }
  d.settle (d.cqm.cmds.length + 1)

/-! ## Acceptance (R304, R305, R306, R313) -/

/-- Whether CQM admits the opcode in the present state from this connection (R23, R306, R313, R444). -/
def Dev.admits (d : Dev) (c : Cmd) (conn : Nat) : Bool :=
  if isMaintOp c.opcode then
    !(d.isMember && d.cas.joined) && (d.glb.dev == .idle
      || (d.glb.dev == .loaded && d.plc.session.isNone && !(d.cqm.cmds.any fun k => isDataOp k.opcode && k.inWork))
      || (d.glb.dev == .maintenance && d.glb.maintConn == some conn))
  else if isDataOp c.opcode then !d.isMember && d.glb.dev.running
  else if c.opcode == opSnapshot then
    d.glb.dev.hostUp && !(c.par 16 1 == 0 && !d.cart.loaded)
  else d.glb.dev.hostUp

/-- Parameters of maintenance commands that their chapters bound (R396, R397, R494, R495, R523). -/
def Cmd.maintOk (c : Cmd) : Bool :=
  if c.opcode == opLoop then
    decide (c.par 16 1 ≤ 2) && decide (c.par 17 1 ≤ 7)
      && (c.par 16 1 != 2 || (decide (20 ≤ c.par 20 1) && decide (c.par 20 1 ≤ 100) && decide (1 ≤ c.par 22 2)
        && decide (c.par 22 2 ≤ 10000)))
  else if c.opcode == opTrace then
    decide (c.par 16 1 ≤ 2) && decide (c.par 17 1 ≤ 3)
      && (c.par 16 1 != 0 || (decide (c.par 18 1 ≤ 8) && decide (c.par 19 1 ≤ 5) && decide (1 ≤ c.par 26 2)
        && decide (c.par 26 2 ≤ 2048) && decide (1 ≤ c.par 28 1)))
  else if c.opcode == opNvm then decide (c.par 16 1 ≤ 4) && decide (c.par 17 1 ≤ if c.par 16 1 ≤ 1 then 2 else 1)
  else if c.opcode == opCalibrate then decide (c.par 16 1 ≤ 3)
  else decide (c.par 16 1 ≤ 2)

/-- Header and parameters agree with R298 and R299. Every maintenance command uses a block of 32 bytes (R396, R397, R494, R496,
R523). -/
def Cmd.wellMade (c : Cmd) (msgLen : Nat) : Bool :=
  let bl := c.par 8 2
  msgLen == bl + c.dataLen && decide (c.cls ≤ 4)
    && bl == 32
    && (if c.opcode == opWrite then decide (1 ≤ c.dataLen) && decide (c.dataLen ≤ 16777216)
        else c.opcode == opNvm || c.dataLen == 0)
    && (if c.opcode == opQuery then decide (c.par 16 1 ≤ 3) && decide (1 ≤ c.par 24 2) && decide (c.par 24 2 ≤ 4096)
        else if c.opcode == opReadLog then decide (1 ≤ c.par 22 2) && decide (c.par 22 2 ≤ 1024)
        else if c.opcode == opSnapshot then decide (c.par 16 1 ≤ 1)
        else if isMaintOp c.opcode then
          c.maintOk
        else true)

/-- The queue limits of R305: the detail's cause, when a limit refuses the command. -/
def Dev.limitCause (d : Dev) (c : Cmd) : Option Nat :=
  if c.opcode == opReadLog || c.opcode == opResume then none
  else if decide (1024 ≤ (d.cqm.cmds.filter fun k => k.queue == c.queue && k.outstanding).length) then some 0
  else if decide (8192 ≤ (d.cqm.cmds.filter Cmd.outstanding).length) then some 1
  else if c.opcode == opWrite && decide (c.cls < 4) && decide (2 ≤ d.level 0) then some 2
  else none

/-- The first check of R304 that fails: status and detail. -/
def Dev.acceptCheck (d : Dev) (c : Cmd) (conn msgLen : Nat) : Option (Nat × List Byte) :=
  if !(isDataOp c.opcode || isServiceOp c.opcode || isMaintOp c.opcode) then some (stOpcode, [])
  else if !d.admits c conn then some (stWrongState, [])
  else if !c.wellMade msgLen then some (stParam, [])
  else if c.oneStream && c.stream == 0xFFFF then some (stStreamInvalid, [])
  else if d.cqm.cmds.any (fun k => k.queue == c.queue && k.tag == c.tag && k.outstanding) then some (stTagInUse, [])
  else match d.limitCause c with
    | some k => some (stQueueFull, leBytes 1 k)
    | none => none

/-- Whether the cobbler can take a request (R518): it is not restarting and its queue of 16 has room. -/
def Dev.cobblerBusy (d : Dev) : Option Nat :=
  if d.flag F.glbCobblerRestarting then some 2
  else if decide (16 ≤ (d.cqm.cmds.filter fun k => k.phase == .accepted && (k.opcode == opReadLog || k.opcode == opResume)).length)
  then some 1 else none

/-- Refuse a command at acceptance (R304): a STATUS, a log entry unless QUEUE_FULL, nothing queued; QUEUE_FULL is
charged against credit (R286). -/
def Dev.refuse (d : Dev) (c : Cmd) (conn segs status : Nat) (detail : List Byte) : Dev :=
  let d := (d.bump C.cqmRefused)
  let d := if status == stQueueFull then
      (d.bump C.cqmQueueFull).modConn conn fun k => { k with creditCut := k.creditCut + segs } else d
  d.completeNow { c with counts := false } status detail false 0

/-- Handover of a complete CMD message to CQM (R271, R304 to R306, R313): its command block, the P0 granules of its
data, how many segments it had. -/
def Dev.handover (d : Dev) (conn : Nat) (block : List Byte) (msgLen : Nat) (data : List Nat) (segs : Nat) : Dev :=
  match d.conn? conn with
  | none => d.releaseAll data ownHostRx
  | some k =>
    let op := fieldAt block 4 1
    let c : Cmd := ⟨d.cqm.nextH, k.queue, fieldAt block 0 4, op, fieldAt block 5 1 % 8, fieldAt block 6 2, block,
      fieldAt block 12 4, data, if isDataOp op then .queued else .accepted, d.frozen k.queue && op != opReadLog && op != opResume,
      op != opReadLog && op != opResume, d.glb.dev == .maintenance, false,
      if op == opRead || op == opLocate then fieldAt block 16 6 else 0⟩
    let d := { d with cqm := { d.cqm with nextH := d.cqm.nextH + 1 } }
    match d.acceptCheck c conn msgLen with
    | some (st, det) => d.refuse c conn segs st det
    | none =>
      let d := d.bump C.cqmAccepted
      let busy := if op == opReadLog || op == opResume then d.cobblerBusy else none
      match busy with
      | some r => d.completeNow { c with counts := false } stBusy [] false r
      | none =>
        let d := { d with cqm := { d.cqm with cmds := d.cqm.cmds ++ [c] } }
        if isMaintOp op && d.glb.dev != .maintenance then
          let d := { d with glb := { d.glb with maintConn := some conn, beforeMaint := d.glb.dev } }
          d.goState .maintenance
        else d

/-! ## Arbitration (R307 to R311) -/

/-- A queued command held back by a freeze, or behind one so held in its stream (R316, R322). -/
def Dev.blocked (d : Dev) (c : Cmd) : Bool :=
  c.held || (c.oneStream && d.cqm.cmds.any fun k =>
    k.oneStream && k.stream == c.stream && decide (k.h < c.h) && k.phase == .queued && k.held)

/-- Whether a queued command is the head of its stream, or names no stream (R307, R308). A command that names every
stream does not wait for commands that a freeze holds back (R316; log 12). -/
def Dev.isHead (d : Dev) (c : Cmd) : Bool :=
  if c.oneStream then
    !(d.cqm.cmds.any fun k => decide (k.h < c.h) && k.phase == .queued
      && ((k.oneStream && k.stream == c.stream) || k.everyStream))
  else if c.everyStream then
    !(d.cqm.cmds.any fun k => decide (k.h < c.h) && k.phase == .queued && isDataOp k.opcode && !d.blocked k)
  else true

/-- READ_RECORD and LOCATE commands dispatched (R309, R330). -/
def Dev.readsOut (d : Dev) : Nat :=
  (d.cqm.cmds.filter fun k => (k.opcode == opRead || k.opcode == opLocate) && k.inWork).length

/-- Whether an event that waits on the cobbler has arisen while it restarts (R17, R18): a freeze's log entry, READ_LOG or RESUME, a
join, or a hold for index commits. -/
def Dev.cobblerEvent (d : Dev) : Bool :=
  d.flag F.glbCobblerRestarting
    && (!d.cqm.owed.isEmpty || d.cqm.cmds.any (fun k => k.phase == .accepted && (k.opcode == opReadLog || k.opcode == opResume))
      || d.cas.members.any (fun m => m.state == 1 || m.state == 2) || (d.plc.hold && d.plc.holdCause == 1))

/-- Commands whose dispatch is tape work (R18). -/
def isTapeOp (o : Nat) : Bool := [opWrite, opRead, opLocate, opFlush, opLoad, opUnload].contains o

/-- Eligibility (R309); no tape work while an event waits on the cobbler (R18). -/
def Dev.eligible (d : Dev) (c : Cmd) : Bool :=
  c.phase == .queued && !d.frozen c.queue && d.isHead c && d.glb.dev.running && !(isTapeOp c.opcode && d.cobblerEvent)
    && ((c.opcode != opRead && c.opcode != opLocate) || decide (d.readsOut < d.get F.cqmCfgReadDepth))

/-- Order of the classes from the highest down: URGENT, then 0 to 3 (R309; log 13). -/
def classRank (c : Nat) : Nat := if c = 4 then 0 else c + 1

/-- The class of a head for arbitration: the highest of any command of its stream queued behind it (R309). -/
def Dev.arbClass (d : Dev) (c : Cmd) : Nat :=
  if !c.oneStream then c.cls
  else (d.cqm.cmds.filter fun k => k.oneStream && k.stream == c.stream && k.phase == .queued).foldl
    (fun b k => if decide (classRank k.cls < classRank b) then k.cls else b) c.cls

/-- The oldest eligible command of a class. -/
def Dev.oldest (d : Dev) (cls : Nat) : Option Cmd :=
  d.cqm.cmds.find? fun c => d.eligible c && d.arbClass c == cls

/-- W0 to W3 (R329). -/
def Dev.weight (d : Dev) (k : Nat) : Nat :=
  match k with
  | 0 => d.get F.cqmWeightW0 | 1 => d.get F.cqmWeightW1 | 2 => d.get F.cqmWeightW2 | _ => d.get F.cqmWeightW3

/-- The charge of a command at dispatch (R311). -/
def Cmd.charge (c : Cmd) : Nat := if c.opcode == opWrite then c.dataLen else if c.opcode == opRead then 0 else 4096

/-- Deficit round robin (R311): visit classes until one may dispatch; `fuel` bounds the visits. -/
def Dev.visit (d : Dev) : Nat → Option Cmd × Dev
  | 0 => (none, d)
  | n + 1 =>
    let k := d.cqm.visit
    let next := fun (q : Cqm) => { q with visit := (k + 1) % 4, granted := false }
    match d.oldest k with
    | none => Dev.visit { d with cqm := next { d.cqm with deficit := setAt d.cqm.deficit k 0 } } n
    | some c =>
      let df := d.cqm.deficit.getD k 0
      let df := if d.cqm.granted then df
        else df + (d.weight k * d.get F.cqmCfgQuantumKib * 1024 : Nat)
      if 0 < df then
        (some c, { d with cqm := { d.cqm with deficit := setAt d.cqm.deficit k (df - (c.charge : Nat)), granted := true } })
      else Dev.visit { d with cqm := next { d.cqm with deficit := setAt d.cqm.deficit k df } } n

/-- Visits after which some class that is not idle has a positive deficit. -/
def Dev.visitFuel (d : Dev) : Nat := 8 + 4 * d.cqm.deficit.foldl (fun n x => n + x.natAbs / 4096) 0

/-- Which command is dispatched next, if any (R310, R311). -/
def Dev.pick (d : Dev) : Option Cmd × Dev :=
  match d.oldest 4 with
  | some c => (some c, d.bump C.cqmUrgent)
  | none => if (List.range 4).any (fun k => (d.oldest k).isSome) then d.visit d.visitFuel else (none, d)

/-- DISPATCH_COMMAND (R310, R313): one command is dispatched; in idle, a data command other than LOAD and UNLOAD then
fails with NOT_LOADED, which freezes its queue (R322). -/
def Dev.dispatch (d : Dev) : Dev :=
  match d.pick with
  | (none, d) => d
  | (some c, d) =>
    let d := d.modCmd c.h fun c => { c with phase := .dispatched }
    let d := if c.oneStream then { d with strm := { d.strm with ctxs := d.strm.ctxs.map fun x =>
        if x.stream == c.stream then { x with lastUse := d.time } else x } } else d
    if d.glb.dev == .idle && c.opcode != opLoad && c.opcode != opUnload then d.finish c.h stNotLoaded [] else d

/-- The dispatched command `h`, when it has the opcode and no command of its stream dispatched before it has still to
begin (R307). -/
def Dev.ready? (d : Dev) (h op : Nat) : Option Cmd :=
  match d.cmd? h with
  | some c =>
    if c.opcode == op && (c.phase == .dispatched || c.phase == .started)
        && !(c.oneStream && d.cqm.cmds.any fun k =>
          k.oneStream && k.stream == c.stream && decide (k.h < c.h) && k.phase == .dispatched)
    then some c else none
  | none => none

/-- The accepted service or maintenance command `h`, when it has the opcode and no freeze holds it (R322). -/
def Dev.accepted? (d : Dev) (h op : Nat) : Option Cmd :=
  match d.cmd? h with
  | some c => if c.opcode == op && c.phase == .accepted && !(c.waiting && c.held) then some c else none
  | none => none

/-- The effect of an accepted maintenance command `h` of an operation; it waits while the cobbler restarts (R17). One whose
turn comes after maintenance has ended completes with WRONG_STATE (R299; log 16). -/
def Dev.maint (d : Dev) (h op sub : Nat) (f : Cmd → Dev) : Dev :=
  match d.accepted? h op with
  | some c =>
    if c.par 16 1 != sub || d.flag F.glbCobblerRestarting then d
    else if d.glb.dev != .maintenance then d.finish h stWrongState []
    else f c
  | none => d

/-- Send a DATA_IN and then the STATUS of a command that completes GOOD (R301, R303). -/
def Dev.answerData (d : Dev) (c : Cmd) (bytes detail : List Byte) : Dev :=
  let head := leBytes 4 c.tag ++ leBytes 1 c.opcode ++ leBytes 3 0 ++ leBytes 4 bytes.length ++ leBytes 4 0
  let d := d.sendFor c typDataIn (Payload.onDie (head ++ bytes)) (16 + bytes.length) none []
  d.finish c.h stGood detail

/-! ## READ_LOG and RESUME (R323, R328) -/

/-- READ_LOG (R328): up to COUNT entries from FIRST_SEQ, filtered by epoch unless ALL is 1. -/
def Dev.readLog (d : Dev) (h : Nat) : Dev :=
  match d.accepted? h opReadLog with
  | none => d
  | some c =>
    match d.cobblerBusy with
    | some 2 => d
    | _ =>
      let first := c.par 16 6
      let eps := match d.queue? c.queue with | some q => q.epochs | none => []
      let all := bitAt (c.par 24 1) 0
      let es := (d.cqm.log.reverse.filter fun e =>
        decide (first ≤ e.seq.toNat) && (all || eps.contains e.epoch)).take (c.par 22 2)
      let next := match es.getLast? with | some e => e.seq.toNat + 1 | none => first
      d.answerData c (es.map LogEntry.bytes).flatten (leBytes 6 next ++ leBytes 2 es.length)

/-- RESUME (R323): release or discard the held commands of a frozen queue; NOT_FROZEN otherwise. -/
def Dev.resume (d : Dev) (h : Nat) : Dev :=
  match d.accepted? h opResume with
  | none => d
  | some c =>
    if d.flag F.glbCobblerRestarting then d
    else if !d.frozen c.queue then d.finish h stNotFrozen []
    else
      let held := d.cqm.cmds.filter fun k => k.queue == c.queue && k.waiting
      let n := held.length
      let d := d.modQueue c.queue fun q => { q with frozen := false }
      if bitAt (c.par 16 1) 0 then
        let d := d.log (d.cmdEntry 4 c 0 0 (leBytes 2 n))
        let d := held.foldl (fun d k => (d.completeNow k stDiscarded [] false 0).bump C.cqmDiscarded) d
        d.finish h stGood (leBytes 2 n)
      else
        let d := d.mapCmds fun k => if k.queue == c.queue then { k with held := false } else k
        (d.log (d.cmdEntry 3 c 0 0 [])).finish h stGood (leBytes 2 n)

end Sys2Proof.Machine
end

