-- ==== Sys2Proof/Machine/Conns.lean ====
section
/-!
DEFINITION. Connections: closing, resets and orphans (R275 to R278, R324), the rows that send (R280 to R285), the timers
of R288, and the rows of the command queue.
-/
namespace Sys2Proof.Machine

/-! ## Reasons of R277 -/

def rsnConnectionLimit : Nat := 1
def rsnPeerTimeout : Nat := 2
def rsnProtocolError : Nat := 3
def rsnFifoError : Nat := 4
def rsnUnknownConn : Nat := 5
def rsnHostRestart : Nat := 6
def rsnFrozenClose : Nat := 7
def rsnDeviceState : Nat := 8

/-! ## Orphans -/

/-- A log entry about a queue (R326, R327). -/
def Queue.entry (q : Queue) (kind status : Nat) (detail : List Byte) : LogEntry :=
  ⟨0, 0, 0, q.epochs.headD 0, kind, q.conn.getD 0xFF, q.hostId, 0, 0, 0, status, 0, 0, detail⟩

/-- Log a message that was never acknowledged (R324, R327). -/
def Dev.logUndelivered (d : Dev) (q : Queue) (m : Msg) : Dev :=
  let tag := fieldAt m.payload.head 0 4
  let c := d.cqm.cmds.find? fun c => c.queue == q.id && c.tag == tag
  let st := if m.typ = typStatus then fieldAt m.payload.head 6 2 else 0
  let det := if m.typ = typStatus then m.payload.head.drop 16 else []
  d.log ⟨0, 0, 0, q.epochs.headD 0, 8, q.conn.getD 0xFF, q.hostId, tag, fieldAt m.payload.head 4 1, 1, st,
    (c.map Cmd.stream).getD 0, (c.map Cmd.record).getD 0, det⟩

/-- Discard an orphan (R278, R324): undelivered messages are logged and their buffers released, undispatched commands
are discarded and one entry records their number. Work already dispatched goes on. -/
def Dev.discardOrphan (d : Dev) (q : Queue) : Dev :=
  let d := q.kept.foldl (fun d m => (d.logUndelivered q m).releaseAll m.bufs ownHostTx) d
  let gone := d.cqm.cmds.filter fun c => c.queue == q.id && (c.phase == .queued || c.phase == .accepted)
  let d := gone.foldl (fun d c => (d.releaseAll c.data ownHostRx).bump C.cqmDiscarded) d
  let d := d.log (q.entry 6 stDiscarded (leBytes 2 gone.length))
  let d := d.dropCmds fun c => c.queue == q.id && !c.inWork
  { d with cqm := { d.cqm with queues := d.cqm.queues.filter fun k => k.id != q.id } }

/-- Whether a queue is an orphan of a host address and host ID. -/
def Queue.orphanOf (q : Queue) (host : IPv6) (hostId : Nat) : Bool := q.conn.isNone && q.host == host && q.hostId == hostId

/-- A queue whose connection has closed becomes an orphan (R278): frozen, logged and counted, with the messages kept for
an adopter. An older orphan of the same key is discarded (log 17). With ORPHAN_S 0 it is discarded at once (R293). -/
def Dev.orphan (d : Dev) (q : Queue) (kept : List Msg) (status : Nat) : Dev :=
  let d := (d.cqm.queues.filter fun k => k.orphanOf q.host q.hostId).foldl Dev.discardOrphan d
  let d := if q.frozen then d else
      let d := (d.modQueue q.id fun q => { q with frozen := true }).mapCmds fun k =>
        if k.queue == q.id && k.waiting then { k with held := true } else k
      (d.log (q.entry 2 status [])).bump C.cqmFreeze
  let d := (d.log (q.entry 5 status [])).bump C.hptOrphan
  let now := d.time
  let d := d.modQueue q.id fun q => { q with frozen := true, conn := none, kept := kept, orphanAt := now }
  if d.get F.hptTmrCfgOrphanS = 0 then
    match d.queue? q.id with | some q => d.discardOrphan q | none => d
  else d

/-! ## Closing (R275, R277) -/

/-- A slot without feedforward closes as R382 says: no error in its histories, its output in force as its past outputs. -/
def Dev.closeHead (d : Dev) (s : Nat) : Dev :=
  let w := d.get F.tceLoopCtrlClosed
  if bitAt w s then d
  else
    let fix := fun (l : Loop) => { l with e1 := 0, e2 := 0, e3 := 0, u1 := l.y, u2 := l.y, u3 := l.y, ff := 0, runs := [], invRun := 0 }
    ({ d with tce := { d.tce with loops := modAt fix d.tce.loops s } }).set F.tceLoopCtrlClosed (w ||| 2 ^ s)

/-- Maintenance ends: the device returns to idle or loaded, as before (R22); with a cartridge threaded an open CRS or LAT slot
closes (R524). -/
def Dev.endMaint (d : Dev) : Dev :=
  if d.glb.dev = .maintenance then
    let back := d.glb.beforeMaint
    let d := ({ d with glb := { d.glb with maintConn := none } }).goState back
    if d.cart.loaded then (d.closeHead 1).closeHead 0 else d
  else d

/-- Close a connection: its ID is free, granules of messages not handed over are released, maintenance that it held
ends, and its queue is orphaned if it holds any command (R22, R275, R277, R278). -/
def Dev.closeConn (d : Dev) (c status : Nat) : Dev :=
  match d.conn? c with
  | none => d
  | some k =>
    let d := d.releaseAll (k.grans.map Gran.handle) ownHostRx
    let other := fun (x : Nat × Ctrl) => match x.2 with | .ack c' _ => c' != c | .seg _ => true
    let hpt : Hpt := { d.hpt with
      conns := d.hpt.conns.filter fun k => k.id != c
      timers := d.hpt.timers.filter fun t => t.id != c
      ctrl := d.hpt.ctrl.filter other }
    let d := { d with hpt := hpt }
    let d := if d.glb.maintConn == some c then d.endMaint else d
    match d.queue? k.queue with
    | none => d
    | some q =>
      if d.cqm.cmds.any fun x => x.queue == q.id then
        d.orphan q (k.msgs.filter fun m => m.typ == typStatus || m.typ == typDataIn) status
      else
        let d := d.releaseAll (k.msgs.flatMap Msg.bufs) ownHostTx
        { d with cqm := { d.cqm with queues := d.cqm.queues.filter fun x => x.id != q.id } }

/-- An RST for a connection (R277). -/
def Dev.rstSegment (d : Dev) (k : Conn) (reason : Nat) : Seg :=
  d.segment k 5 true true false [] k.nextSeq (leBytes 2 reason) 2 0

/-- Reset a connection (R277). -/
def Dev.resetConn (d : Dev) (c reason : Nat) : Dev :=
  match d.conn? c with
  | none => d
  | some k => (((d.sendCtrl (d.rstSegment k reason) k.flow)).bump C.hptReset).closeConn c
      (if reason = rsnFifoError then 0x0306 else 0)

/-- Every connection is reset with DEVICE_STATE (R277, R291): the device leaves the running states. -/
def Dev.resetAllConns (d : Dev) : Dev :=
  d.hpt.conns.foldl (fun d k => (d.sendCtrl (d.rstSegment k rsnDeviceState) k.flow).bump C.hptReset) d

/-! ## Resets of the units (R469, R472) and standby (R484, R485) -/

/-- A NOR operation cut short leaves what it was writing unstated (R469): free bytes. -/
def Dev.tearNor (d : Dev) : Dev :=
  match d.glb.norOp with
  | some ⟨op, addr, _⟩ =>
    let n := if op = 1 then 256 else if op = 2 then 65536 else 0
    let bs := (List.range n).map fun i => BitVec.ofNat 8 (Config.freeWord (d.freeIx + i)).toNat
    let d := { d with freeIx := d.freeIx + n, glb := { d.glb with norOp := none } }
    d.putNor addr bs
  | none => d

/-- Every unit but the always-on domain is reset; the registers in `keep` stay, as do GLB.BOOT, TRIP_SEEN, the levels at the
balls and the sideband's own state. -/
def Dev.resetUnits (d : Dev) (keep : List Nat) : Dev :=
  let d := d.tearNor
  let trip := d.get F.glbThermalTripSeen
  let r : Dev := { Dev.reset with
    nor := d.nor, feram := d.feram, freeIx := d.freeIx, out := d.out, pin := d.pin
    glb := { d.glb with maintConn := none, beforeMaint := .idle, standbyHeld := false, warnArmed := true, wasCrit := false, wdogTimes := [] } }
  let r := (F.glbBootSlot.addr :: keep).foldl (fun r a => r.putWord a (d.word a)) r
  let r := r.set F.pinGpioInIn (d.get F.pinGpioInIn)
  (r.set F.casStatusFcIn (d.get F.casStatusFcIn)).set F.glbThermalTripSeen trip

/-- The sideband's state is lost with its supply. -/
def Dev.dropSideband (d : Dev) : Dev :=
  { d with pin := { d.pin with dynAddr := none, ibiOn := true, sbStatus := 0, sbUnread := false, sbLost := false } }

/-- An accepted standby request (R485): connections are reset, the wake settings go to the always-on domain, RAIL_EN goes
inactive, and only the always-on domain stays powered, with the roles of GPIO[15:12] (R551). -/
def Dev.enterStandby (d : Dev) : Dev :=
  let d := d.resetAllConns.disableChannels
  let wake : WakeCopy := ⟨d.get F.glbStandbyRailMs, d.get F.glbStandbyWakeS, d.flag F.glbStandbyWakeCart, d.flag F.glbStandbyWakePin⟩
  let d := ({ d with glb := { d.glb with wake := wake, railEn := false, waking := false } }).emit (.pin "RAIL_EN" 0)
  let d := (d.resetUnits ((List.range 4).map fun i => F.pinGpioCfgRole.addr + 12 + i)).dropSideband
  d.goState .standby

/-- A standby request that the STANDBY_REQ role holds acts when the device is idle (R484). -/
def Dev.settleStandby (d : Dev) : Dev := if d.glb.standbyHeld && d.glb.dev == .idle then d.enterStandby else d

/-- What follows at once on the host side: connections in CLOSE_WAIT whose queue has frozen are reset (R275), and
credit is refreshed (R286); a held standby request acts in idle (R484). -/
def Dev.hostSettle (d : Dev) : Dev :=
  (((d.hpt.conns.filter fun k => k.st == .closeWait && d.frozen k.queue).foldl (fun d k => d.resetConn k.id rsnFrozenClose)
    d).refreshCredit).settleStandby

/-! ## The SYN_ACK -/

/-- The SYN_ACK of a connection (R272). -/
def Dev.synAck (d : Dev) (k : Conn) : Seg :=
  let adopted := match d.queue? k.queue with | some q => decide (1 < q.epochs.length) | none => false
  d.segment k 2 true true false [] k.isn
    (leBytes 2 (d.get F.hptPortCfgMtu - 96) ++ leBytes 1 (b2n adopted) ++ leBytes 5 0) 8 0

/-- Send the SYN_ACK of a connection, which advertises its first right edge. -/
def Dev.sendSynAck (d : Dev) (k : Conn) : Dev :=
  let e := d.edge k
  (d.sendCtrl (d.synAck k) k.flow).modConn k.id fun k => { k with rcvEdge := e }

/-! ## A transmit FIFO that fails (R284, R339) -/

/-- A pointer mismatch in a transmit FIFO: the connection is reset with FIFO_ERROR and its queue becomes an orphan. -/
def Dev.txFault (d : Dev) (c : Nat) : Dev := (d.event 0x0306).resetConn c rsnFifoError

/-- A message whose payload is poisoned is not kept for the orphan and is logged as undelivered; the STATUS of its command,
where it is not yet acknowledged, becomes RECORD_UNREADABLE (R339). -/
def Dev.txPoisoned (d : Dev) (k : Conn) (x : Desc) (a : Nat) : Dev :=
  let d := d.memoryError a
  match k.msgs.find? (fun m => m.id == x.msg && m.typ == x.typ), d.queue? k.queue with
  | some m, some q =>
    let d := (d.logUndelivered q m).releaseAll m.bufs ownHostTx
    let tag := m.payload.head.take 4
    let tell := fun (y : Msg) => if y.typ = typStatus && y.payload.head.take 4 == tag then
      { y with payload := ⟨y.payload.head.take 6 ++ leBytes 2 stUnreadable ++ (y.payload.head.drop 8).take 8 ++ leBytes 16 0, []⟩ } else y
    (d.modConn k.id fun k => { k with msgs := (k.msgs.filter fun y => !(y.id == m.id && y.typ == m.typ)).map tell }).txFault k.id
  | _, _ => d.txFault k.id

/-- Send the segment at the read pointer, its payload read from memory. -/
def Dev.sendFrom (d : Dev) (c : Nat) : Dev :=
  match (d.conn? c).map Conn.skipSacked with
  | none => d
  | some k => match k.tx[k.rp]? with
    | none => d.sendNext c
    | some x =>
      if !d.descOpen k x then d.sendNext c
      else match d.descPoison k x with
        | some a => d.txPoisoned k x a
        | none => d.sendNext c

/-! ## Sending rows -/

/-- The first control segment that can go out, its place in the queue removed (R280). -/
def Dev.sendCtrlQueued (d : Dev) : Option Dev :=
  let can := fun (x : Nat × Ctrl) => match x.2 with
    | .ack c _ => (match d.conn? c with | some k => d.ctrlOpen x.1 k.host | none => true)
    | .seg s => d.ctrlOpen x.1 s.src
  match d.hpt.ctrl.find? can with
  | none => none
  | some x =>
    let d := { d with hpt := { d.hpt with ctrl := d.hpt.ctrl.erase x } }
    match x.2 with
    | .ack c now => some (match d.conn? c with | some k => d.wireOf k (d.ackSegment k now) 4 | none => d)
    | .seg s => some (d.wire s (match d.conn? s.srcConn.toNat with | some k => k.flow | none => 0) 4)

/-- The class rank of the segment that a connection would send now, if it may send it (R260, R280). -/
def Dev.sendRank (d : Dev) (k : Conn) : Option Nat :=
  if k.st == .synRcvd then none else match (k.skipSacked).tx[(k.skipSacked).rp]? with
  | some x => if d.descOpen k x then some (classRank x.cls) else none
  | none => none

/-- Round robin within a class: the next connection after the one served last. -/
def afterTurn (last : Option Nat) (ids : List Nat) : Option Nat :=
  let above := ids.filter fun i => match last with | some l => decide (l < i) | none => true
  (if above.isEmpty then ids else above).min?

/-- SEGMENT_TRANSMIT (R280): a control segment first, else the next connection in order of class and round robin. A
segment whose next hop is not known makes the device solicit it (R263). -/
def Dev.transmit (d : Dev) : Dev :=
  match d.sendCtrlQueued with
  | some d => d
  | none =>
    let d := (d.hpt.conns.map Conn.id).foldl Dev.fillTx d
    let ready := d.hpt.conns.filterMap fun k => (d.sendRank k).map fun r => (r, k.id)
    match (ready.map Prod.fst).min? with
    | none =>
      match d.hpt.conns.find? (fun k => !k.tx.isEmpty && !d.resolved k.port k.host) with
      | some k => d.solicit k.port k.host
      | none => d
    | some r =>
      let last := (d.hpt.turn.find? fun t => t.1 == r).map Prod.snd
      match afterTurn last ((ready.filter fun x => x.1 == r).map Prod.snd) with
      | none => d
      | some c => { (d.sendFrom c) with hpt := { (d.sendFrom c).hpt with
          turn := (r, c) :: (d.hpt.turn.filter fun t => t.1 != r) } }

/-- LAST_ACK_CLOSE (R275): in CLOSE_WAIT, with every command complete and every segment acknowledged, the device sends
FIN. -/
def Dev.lastAck (d : Dev) (c : Nat) : Dev :=
  match d.conn? c with
  | none => d
  | some k =>
    if k.st == .closeWait && k.msgs.isEmpty && k.tx.isEmpty && !(d.cqm.cmds.any fun x => x.queue == k.queue) then
      let fin : Desc := ⟨k.sndNext, 0, 4, 4, true, true, 0, 0, 0, 0, false, none⟩
      (d.modConn c fun k => { k with st := .lastAck, tx := [fin], rp := 0, sndNext := k.sndNext + 1 }).sendFrom c
    else d

/-! ## Timers (R288) -/

/-- The computed RTO of a connection in ns: 1 ms before the first sample, else SRTT + 4 × RTTVAR, clamped. -/
def Dev.rtoOf (d : Dev) (srtt : Option Nat) (rttvar : Nat) : Nat :=
  match srtt with
  | none => 1000000
  | some s => clampNat (d.get F.hptTmrCfgRtoMin * 1000) (d.get F.hptTmrCfgRtoMax * 1000000) (s + 4 * rttvar)

/-- A round-trip sample in ns (RFC 6298, α = 1/8, β = 1/4; log 18) and an advance of ACK, which restores the computed
RTO and ends the run of expiries. -/
def Dev.rttSample (d : Dev) (c : Nat) (rtt : Nat) : Dev :=
  d.modTimers c fun t =>
    let (s, v) := match t.srtt with
      | none => (rtt, rtt / 2)
      | some s => ((7 * s + rtt) / 8, (3 * t.rttvar + (max s rtt - min s rtt)) / 4)
    { t with srtt := some s, rttvar := v, rto := d.rtoOf (some s) v, expiries := 0 }

/-- Whether the timers of a connection are frozen: a segment of a paused priority waits on its port (R261). -/
def Dev.timersFrozen (d : Dev) (k : Conn) : Bool := k.tx.any fun x => d.paused k.port (d.pcpOf x.typ x.cls)

/-- The read pointer at the mark, and every segment up to `n` that no SACK block covers sent again in order (R283). -/
def Dev.resend (d : Dev) (c : Nat) : Nat → Dev
  | 0 => d
  | n + 1 => Dev.resend (d.sendFrom c) c n

/-- RETRANSMISSION_TIMEOUT (R283, R288). -/
def Dev.rtoExpiry (d : Dev) (c : Nat) : Dev :=
  match d.conn? c with
  | none => d
  | some k =>
    let sent := k.tx.filter fun x => decide (0 < x.sends)
    if sent.isEmpty || d.timersFrozen k then d
    else
      let d := d.bump C.hptRto
      let exp := ((d.hpt.timers.find? fun t => t.id == c).map Timers.expiries).getD 0 + 1
      let cap := d.get F.hptTmrCfgRtoMax * 1000000
      let d := d.modTimers c fun t => { t with expiries := exp, rto := min (2 * t.rto) cap }
      if d.get F.hptRrtCfgRetryMax ≤ exp then
        if k.st == .lastAck then d.closeConn c 0 else d.resetConn c rsnPeerTimeout
      else
        let again := (sent.filter fun x => !x.sacked).length
        (d.modConn c fun k => { k with rp := 0 }).resend c again

/-- DELAYED_ACK (R280, R288). -/
def Dev.delayedAck (d : Dev) (c : Nat) : Dev :=
  match d.conn? c with
  | some k => if 0 < k.unacked then d.sendAck c false else d
  | none => d

/-- KEEPALIVE_TIMEOUT (R288): three probes, then PEER_TIMEOUT. -/
def Dev.keepalive (d : Dev) (c : Nat) : Dev :=
  match d.conn? c, d.hpt.timers.find? (fun t => t.id == c) with
  | some k, some t =>
    if k.st == .synRcvd then d
    else if 3 ≤ t.probes then d.resetConn c rsnPeerTimeout
    else (d.modTimers c fun t => { t with probes := t.probes + 1 }).sendAck c true
  | _, _ => d

/-- CREDIT_PROBE (R285): a new segment waits and the peer's right edge equals its number. -/
def Dev.creditProbe (d : Dev) (c : Nat) : Dev :=
  let d := d.fillTx c
  match d.conn? c with
  | some k =>
    match k.tx[k.rp]? with
    | some x => if x.sends = 0 ∧ x.seq = k.peerEdge then d.sendAck c true else d
    | none => d
  | none => d

/-- SYN_ACK_TIMEOUT (R275): sent 3 times, then the state ends. -/
def Dev.synAckTimeout (d : Dev) (c : Nat) : Dev :=
  match d.conn? c, d.hpt.timers.find? (fun t => t.id == c) with
  | some k, some t =>
    if k.st != .synRcvd then d
    else if 3 ≤ t.synTries then d.closeConn c 0
    else (d.modTimers c fun t => { t with synTries := t.synTries + 1 }).sendSynAck k
  | _, _ => d

/-- ORPHAN_EXPIRY (R278). -/
def Dev.orphanExpiry (d : Dev) (q : Nat) : Dev :=
  match d.queue? q with
  | some k => if k.conn.isNone then d.discardOrphan k else d
  | none => d

/-! ## Meanings -/

def execDispatchCommand (s : State) : Host.Outcome State Fault Refusal := s.doing fun d => d.dispatch.hostSettle
def execReadLog (h : Nat) (s : State) : Host.Outcome State Fault Refusal := s.doing fun d => (d.readLog h).hostSettle
def execResume (h : Nat) (s : State) : Host.Outcome State Fault Refusal := s.doing fun d => (d.resume h).hostSettle
def execSegmentTransmit (s : State) : Host.Outcome State Fault Refusal := s.doing Dev.transmit
def execLastAckClose (conn : Nat) (s : State) : Host.Outcome State Fault Refusal := s.doing fun d => d.lastAck conn
def execRetransmissionTimeout (conn : Nat) (s : State) : Host.Outcome State Fault Refusal :=
  s.doing fun d => (d.rtoExpiry conn).hostSettle
def execDelayedAck (conn : Nat) (s : State) : Host.Outcome State Fault Refusal := s.doing fun d => d.delayedAck conn
def execKeepaliveTimeout (conn : Nat) (s : State) : Host.Outcome State Fault Refusal :=
  s.doing fun d => (d.keepalive conn).hostSettle
def execCreditProbe (conn : Nat) (s : State) : Host.Outcome State Fault Refusal := s.doing fun d => d.creditProbe conn
def execSynAckTimeout (conn : Nat) (s : State) : Host.Outcome State Fault Refusal :=
  s.doing fun d => (d.synAckTimeout conn).hostSettle
def execOrphanExpiry (orphan : Nat) (s : State) : Host.Outcome State Fault Refusal :=
  s.doing fun d => (d.orphanExpiry orphan).hostSettle

end Sys2Proof.Machine
end

