-- ==== Sys2Proof/Machine/Insole.lean ====
section
/-!
DEFINITION. The insole's commits as bytes (R235, R236): header, entries, and reading them back.
-/
namespace Sys2Proof.Machine

/-- An entry: TYPE, LEN and the bytes after the tag (R236). -/
def entryBytes (typ : Nat) (body : List Byte) : List Byte := leBytes 2 typ ++ leBytes 2 (4 + body.length) ++ body

/-- A SESSION entry. -/
def SessEntry.bytes (e : SessEntry) : List Byte :=
  entryBytes 1 (leBytes 4 e.generation ++ leBytes 1 e.firstWrap ++ leBytes 1 e.lastWrap ++ leBytes 1 e.ended ++ leBytes 1 0
    ++ leBytes 4 e.startSlot ++ leBytes 4 e.endSlot ++ leBytes 6 e.lastCommit.toNat ++ leBytes 6 0)

/-- A stream run. -/
def Run.bytes (r : Run) : List Byte := leBytes 2 r.stream ++ leBytes 2 0 ++ leBytes 6 r.first.toNat ++ leBytes 6 r.last.toNat

/-- One GROUP entry with up to 255 runs. -/
def GroupEntry.part (e : GroupEntry) (runs : List Run) : List Byte :=
  entryBytes 2 (leBytes 1 (e.band % 4 + (e.width - 1) % 4 * 4 + e.member % 4 * 16) ++ leBytes 1 e.wrap ++ leBytes 2 e.group
    ++ leBytes 4 e.firstSlot ++ leBytes 4 e.lastSlot ++ leBytes 4 e.generation ++ leBytes 1 e.count
    ++ leBytes 1 (b2n e.noC3 + 2 * b2n e.sessEnd) ++ leBytes 1 e.segIndex ++ leBytes 1 runs.length ++ runs.flatMap Run.bytes)

/-- GROUP entries for all runs: further entries with the same header fields continue the list (R236). -/
def GroupEntry.parts (e : GroupEntry) : Nat → List Run → List (List Byte)
  | 0, _ => []
  | n + 1, runs => e.part (runs.take 255) :: (if (runs.drop 255).isEmpty then [] else e.parts n (runs.drop 255))

/-- A CHAIN entry. -/
def Chain.bytes (c : Chain) : List Byte :=
  entryBytes 3 (leBytes 2 c.stream ++ leBytes 1 c.index ++ leBytes 1 c.entry ++ leBytes 6 c.first.toNat ++ leBytes 2 0)

/-- A REPLACED or MOVED entry. -/
def Replaced.bytes (r : Replaced) : List Byte :=
  match r.moved with
  | some (tg, wrap, pos, seq) =>
    entryBytes 8 (leBytes 1 tg ++ leBytes 1 wrap ++ leBytes 2 r.oldGroup ++ leBytes 1 r.oldIndex ++ leBytes 1 pos
      ++ leBytes 1 r.newIndex ++ leBytes 1 r.firstEntry ++ leBytes 2 r.entries ++ leBytes 2 0 ++ leBytes 6 seq.toNat ++ leBytes 2 0)
  | none => entryBytes 6 (leBytes 2 r.oldGroup ++ leBytes 1 r.oldIndex ++ leBytes 1 r.newIndex ++ leBytes 1 r.firstEntry ++ leBytes 1 0
    ++ leBytes 2 r.entries ++ leBytes 4 0)

/-- A STREAM entry. -/
def StreamEntry.bytes (e : StreamEntry) : List Byte :=
  entryBytes 4 (leBytes 2 e.stream ++ leBytes 1 (b2n e.open_ + 2 * b2n e.endCut) ++ leBytes 1 e.affinity
    ++ leBytes 6 e.nextRec.toNat ++ leBytes 1 e.chainClicks ++ leBytes 9 0)

/-- An entry kept as bytes. -/
def RawEntry.bytes (e : RawEntry) : List Byte := entryBytes e.typ e.body

/-- The entries of a group: GROUP and its continuations, then CHAIN, then REPLACED and MOVED (R236, R237, R464). -/
def GroupEntry.entries (e : GroupEntry) : List (List Byte) :=
  e.parts (e.runs.length + 1) e.runs ++ e.chains.map Chain.bytes ++ e.replaced.map Replaced.bytes

/-- What a commit header says, apart from lengths and checks (R235). -/
structure CommitHead where
  commit     : Nat
  kind       : Nat
  part       : Nat
  parts      : Nat
  genCeil    : Nat
  generation : Nat
  boot       : Nat
  ref        : BitVec 64
  deriving DecidableEq, Repr

/-- A commit, or one part of a zone commit: header and entries (R235). -/
def CommitHead.bytes (h : CommitHead) (body : List Byte) : List Byte :=
  let head := leBytes 4 0x3153495A ++ leBytes 6 h.commit ++ leBytes 1 h.kind ++ leBytes 1 0 ++ leBytes 2 h.part
    ++ leBytes 2 h.parts ++ leBytes 4 h.genCeil ++ leBytes 4 h.generation ++ leBytes 4 h.boot ++ leBytes 8 h.ref.toNat
    ++ leBytes 4 body.length ++ leBytes 20 0
  head ++ leBytes 4 (crc32c (head ++ body)) ++ body

/-- The header of a commit. -/
def CommitHead.ofBytes (bs : List Byte) : CommitHead :=
  ⟨fieldAt bs 4 6, fieldAt bs 10 1, fieldAt bs 12 2, fieldAt bs 14 2, fieldAt bs 16 4, fieldAt bs 20 4, fieldAt bs 24 4,
    BitVec.ofNat 64 (fieldAt bs 28 8)⟩

/-- Cut a body into entries, as (TYPE, whole entry); none where an entry breaks the limits of R236. -/
def cutEntries : Nat → List Byte → Option (List (Nat × List Byte))
  | 0, bs => if bs.isEmpty then some [] else none
  | n + 1, bs =>
    if bs.isEmpty then some []
    else
      let len := fieldAt bs 2 2
      if len < 8 || len % 8 != 0 || decide (bs.length < len) then none
      else (cutEntries n (bs.drop len)).map fun es => (fieldAt bs 0 2, bs.take len) :: es

/-- The header and entries of a commit or part; none where it is not valid (R236). -/
def readCommit (bs : List Byte) : Option (CommitHead × List (Nat × List Byte)) :=
  let n := fieldAt bs 36 4
  if fieldAt bs 0 4 != 0x3153495A || decide (bs.length < 64 + n)
      || fieldAt bs 60 4 != crc32c (bs.take 60 ++ (bs.drop 64).take n) then none
  else (cutEntries n ((bs.drop 64).take n)).map fun es => (CommitHead.ofBytes bs, es)

/-- A SESSION entry from its bytes. -/
def SessEntry.ofBytes (b : List Byte) : SessEntry :=
  ⟨fieldAt b 4 4, fieldAt b 8 1, fieldAt b 9 1, fieldAt b 10 1, fieldAt b 12 4, fieldAt b 16 4, BitVec.ofNat 48 (fieldAt b 20 6)⟩

/-- A STREAM entry from its bytes. -/
def StreamEntry.ofBytes (b : List Byte) : StreamEntry :=
  ⟨fieldAt b 4 2, bitAt (fieldAt b 6 1) 0, bitAt (fieldAt b 6 1) 1, fieldAt b 7 1, BitVec.ofNat 48 (fieldAt b 8 6), fieldAt b 14 1⟩

/-- A GROUP entry from its bytes, without CHAIN and REPLACED entries. -/
def GroupEntry.ofBytes (b : List Byte) : GroupEntry :=
  let tg := fieldAt b 4 1
  let fl := fieldAt b 21 1
  let run := fun (i : Nat) => (⟨fieldAt b (24 + 16 * i) 2, BitVec.ofNat 48 (fieldAt b (28 + 16 * i) 6),
    BitVec.ofNat 48 (fieldAt b (34 + 16 * i) 6)⟩ : Run)
  ⟨tg % 4, tg / 4 % 4 + 1, tg / 16 % 4, fieldAt b 5 1, fieldAt b 6 2, fieldAt b 8 4, fieldAt b 12 4, fieldAt b 16 4,
    fieldAt b 20 1, bitAt fl 0, bitAt fl 1, fieldAt b 22 1, (List.range (fieldAt b 23 1)).map run, [], []⟩

/-- Whether two GROUP entries are of one group. -/
def GroupEntry.same (a b : GroupEntry) : Bool :=
  a.wrap == b.wrap && a.member == b.member && a.group == b.group && a.generation == b.generation

/-- Put a SESSION entry in a list kept by rising generation. -/
def putSession (e : SessEntry) : List SessEntry → List SessEntry
  | [] => [e]
  | x :: xs =>
    if e.generation < x.generation then e :: x :: xs
    else if e.generation = x.generation then e :: xs else x :: putSession e xs

/-- Put a STREAM entry in a list kept by rising stream. -/
def putStream (e : StreamEntry) : List StreamEntry → List StreamEntry
  | [] => [e]
  | x :: xs => if e.stream < x.stream then e :: x :: xs else if e.stream = x.stream then e :: xs else x :: putStream e xs

/-- Put a group at the end of the list, in write order, or in the place of an entry for the same group. -/
def putGroup (e : GroupEntry) (gs : List GroupEntry) : List GroupEntry :=
  if gs.any (·.same e) then gs.map fun g => if g.same e then e else g else gs ++ [e]

/-- An index with the group that the entries merged last belong to, and whether the entry before was a GROUP entry of 255 runs, which
another may continue (R236). -/
structure Merging where
  ix   : Index
  last : Option GroupEntry
  more : Bool
  deriving DecidableEq, Repr

/-- The nearest group before an entry takes it (R236). -/
def Merging.give (m : Merging) (f : GroupEntry → GroupEntry) : Merging :=
  match m.last with
  | some g => ⟨{ m.ix with groups := putGroup (f g) m.ix.groups }, some (f g), false⟩
  | none => { m with more := false }

/-- Whether a GROUP entry has the header fields of another: it continues the list of runs (R236). -/
def GroupEntry.continues (g p : GroupEntry) : Bool := { g with runs := [] } == { p with runs := [], chains := [], replaced := [] }

/-- A GROUP entry (R236): the continuation of the one before it, or else what the index says of that group from now on. -/
def Merging.group (m : Merging) (g : GroupEntry) : Merging :=
  let more := g.runs.length == 255
  match m.last with
  | some p =>
    let g := if m.more && g.continues p then { p with runs := p.runs ++ g.runs } else g
    ⟨{ m.ix with groups := putGroup g m.ix.groups }, some g, more⟩
  | none => ⟨{ m.ix with groups := putGroup g m.ix.groups }, some g, more⟩

/-- A CHAIN entry from its bytes. -/
def Chain.ofBytes (b : List Byte) : Chain := ⟨fieldAt b 4 2, fieldAt b 6 1, fieldAt b 7 1, BitVec.ofNat 48 (fieldAt b 8 6)⟩

/-- A REPLACED entry from its bytes. -/
def Replaced.ofBytes (b : List Byte) : Replaced := ⟨fieldAt b 4 2, fieldAt b 6 1, fieldAt b 7 1, fieldAt b 8 1, fieldAt b 10 2, none⟩

/-- A MOVED entry from its bytes (R464). -/
def Replaced.ofMoved (b : List Byte) : Replaced :=
  ⟨fieldAt b 6 2, fieldAt b 8 1, fieldAt b 10 1, fieldAt b 11 1, fieldAt b 12 2,
    some (fieldAt b 4 1, fieldAt b 5 1, fieldAt b 9 1, BitVec.ofNat 48 (fieldAt b 16 6))⟩

/-- Merge one entry into the index (R236): CHAIN, REPLACED and MOVED belong to the nearest group before them. An entry of unknown
TYPE is skipped. -/
def Merging.entry (m : Merging) (e : Nat × List Byte) : Merging :=
  match e.1 with
  | 1 => ⟨{ m.ix with sessions := putSession (SessEntry.ofBytes e.2) m.ix.sessions }, m.last, false⟩
  | 2 => m.group (GroupEntry.ofBytes e.2)
  | 3 => m.give fun g => { g with chains := g.chains ++ [Chain.ofBytes e.2] }
  | 4 => ⟨{ m.ix with streams := putStream (StreamEntry.ofBytes e.2) m.ix.streams }, m.last, false⟩
  | 6 => m.give fun g => { g with replaced := g.replaced ++ [Replaced.ofBytes e.2] }
  | 8 => m.give fun g => { g with replaced := g.replaced ++ [Replaced.ofMoved e.2] }
  | t =>
    let r : RawEntry := ⟨t, e.2.drop 4⟩
    let ix := if [5, 7, 9].contains t && !m.ix.raw.contains r then { m.ix with raw := m.ix.raw ++ [r] } else m.ix
    ⟨ix, m.last, false⟩

/-- Merge the entries of a commit, its parts in PART order (R236, R238, R242). -/
def Index.merge (ix : Index) (es : List (Nat × List Byte)) : Index := (es.foldl Merging.entry ⟨ix, none, false⟩).ix

/-- The whole index as entries: a checkpoint (R239). -/
def Index.entries (ix : Index) : List (List Byte) :=
  ix.sessions.map SessEntry.bytes ++ ix.groups.flatMap GroupEntry.entries ++ ix.streams.map StreamEntry.bytes
    ++ ix.raw.map RawEntry.bytes

/-- Bytes of entries. -/
def entriesLength (es : List (List Byte)) : Nat := (es.map List.length).sum

end Sys2Proof.Machine
end

