-- ==== Sys2Proof/Machine/Streams.lean ====
section
/-!
DEFINITION. Streams: contexts (R216 to R220), cutting records into clicks (R187 to R189, R195), OPEN_STREAM, CLOSE_STREAM,
WRITE_RECORD, idle cuts and context transfers.
-/
namespace Sys2Proof.Machine

/-! ## Contexts -/

/-- The context of an open stream. -/
def Dev.ctx? (d : Dev) (stream : Nat) : Option Ctx := d.strm.ctxs.find? fun x => x.stream == stream && !x.closing

/-- Change the context with an ID. -/
def Dev.modCtx (d : Dev) (id : Nat) (f : Ctx → Ctx) : Dev :=
  { d with strm := { d.strm with ctxs := d.strm.ctxs.map fun x => if x.id == id then f x else x } }

/-- Whether a click still has to be coded. -/
def Click.uncoded (c : Click) : Bool := match c.at_ with | .cut | .coding _ => true | .ready _ | .staged | .placed => false

/-- Whether a context has a cut click that is not yet coded. -/
def Dev.uncoded (d : Dev) (id : Nat) : Bool := d.strm.clicks.any fun c => c.ctx == id && c.uncoded

/-- Open streams (R216). -/
def Dev.openStreams (d : Dev) : Nat := (d.strm.ctxs.filter fun x => !x.closing).length

/-- On-die contexts in use (R218). -/
def Dev.onDieCtxs (d : Dev) : Nat := (d.strm.ctxs.filter Ctx.onDie).length

/-- Whether a context may be spilled: no chain of its stream is bound to an engine, and every cut click is coded (R199,
R218, R219). -/
def Dev.spillable (d : Dev) (x : Ctx) : Bool :=
  x.onDie && !x.closing && !d.uncoded x.id && !(d.strm.engines.any fun e => (e.bound.map Prod.fst) == some x.stream)

/-- The least recently used eligible context (R218). -/
def Dev.lru (d : Dev) : Option Ctx :=
  let es := d.strm.ctxs.filter fun x => d.spillable x
  match (es.map Ctx.lastUse).min? with
  | some t => es.find? fun x => x.lastUse == t
  | none => none

/-- Whether a dispatched command waits for an on-die context: an OPEN_STREAM of a stream that is not open, or a command
of a stream whose context is spilled (R218). -/
def Dev.ctxWanted (d : Dev) : Bool :=
  d.cqm.cmds.any fun c => c.oneStream && c.phase == .dispatched &&
    match d.ctx? c.stream with
    | some x => !x.onDie
    | none => c.opcode == opOpen

/-- Free the contexts of closed streams whose cut clicks are all coded (R219). -/
def Dev.freeCtxs (d : Dev) : Dev :=
  let gone := d.strm.ctxs.filter fun x => x.closing && !d.uncoded x.id
  let d := gone.foldl (fun d x => d.releaseAll x.spill ownComp) d
  { d with strm := { d.strm with ctxs := d.strm.ctxs.filter fun x => !(x.closing && !d.uncoded x.id) } }

/-- A context's history slot (R199), latest byte first: on the die, or in the four P4 granules of a spilled one, where the oldest byte
comes first. -/
def Dev.history (d : Dev) (x : Ctx) : List Byte :=
  if x.onDie then x.slot else ((x.spill.flatMap fun h => d.ddrBytes (d.bufAddr h) 65536).take x.histLen).reverse

/-- Write a history into the four P4 granules of a context (R218). -/
def Dev.putGranules (d : Dev) (hs : List Nat) (hist : List Byte) : Dev :=
  hs.zipIdx.foldl (fun (d : Dev) h => d.putDdr (d.bufAddr h.1) ((hist.reverse.drop (65536 * h.2)).take 65536)) d

/-- A click's history goes into its context's slot, on the die or in P4 (R199). -/
def Dev.keepHistory (d : Dev) (x : Ctx) (chain : Nat) (hist : List Byte) : Dev :=
  if x.onDie then d.modCtx x.id fun x => { x with slot := hist, slotChain := chain }
  else (d.putGranules x.spill hist).modCtx x.id fun x => { x with histLen := hist.length, slotChain := chain }

/-- The numbers that a context's 128-byte state holds (R217). -/
def Ctx.numbers (x : Ctx) : List Nat :=
  [x.stream, b2n x.endCut, b2n x.chainSet, x.chainOpt, x.affinity, x.nextRec.toNat, x.owner.toNat, x.inLen, x.sinceReset,
   b2n x.fresh, x.chain, x.chainFrom.toNat, x.member, x.lastUse, x.slotChain, x.histLen] ++ x.ends ++ x.open_.map Span.handle

/-- The lowest place of the spill table that no spilled context takes (R218). -/
def Dev.freeEntry (d : Dev) : Nat :=
  let taken := (d.strm.ctxs.filter fun x => !x.onDie).map Ctx.spillAt
  ((List.range (taken.length + 1)).find? fun n => !taken.contains n).getD 0

/-- A context's 128-byte state goes into its place of the spill table, 512 to a granule (R218). -/
def Dev.putState (d : Dev) (x : Ctx) (n : Nat) : Dev :=
  match d.strm.table[n / 512]? with
  | some h => d.putDdr (d.bufAddr h + 128 * (n % 512)) (fitTo 128 (Config.contextState x.numbers))
  | none => d

/-- CONTEXT_SPILL (R218): the least recently used eligible context is spilled, when a context is wanted and none is free: its state
into the spill table, its history into four P4 granules. With fewer than four it waits and holds nothing (R219). -/
def Dev.spill (d : Dev) (stream : Nat) : Dev :=
  match d.lru with
  | none => d
  | some x =>
    if x.stream != stream || d.onDieCtxs < 256 || !d.ctxWanted then d
    else if (d.roomInP4 4).poolFree 4 < 4 then d
    else
      let d := d.roomInP4 4
      let (hs, d) := (List.range 4).foldl (fun (s : List Nat × Dev) _ =>
        match s.2.allocate 4 ownComp ownComp with
        | (some h, d) => (s.1 ++ [h], d)
        | (none, d) => (s.1, d)) ([], d)
      let n := d.freeEntry
      let d := (d.putState { x with histLen := x.slot.length } n).putGranules hs x.slot
      (d.modCtx x.id fun x =>
        { x with onDie := false, slot := [], spill := hs, histLen := x.slot.length, spillAt := n }).bump C.plcSpill

/-- CONTEXT_RESTORE (R218, R220): a spilled context whose stream has a dispatched command returns to a free on-die
context, its history read back from P4. -/
def Dev.restore (d : Dev) (stream : Nat) : Dev :=
  match d.ctx? stream with
  | none => d
  | some x =>
    let wanted := d.cqm.cmds.any fun c => c.oneStream && c.stream == stream && c.phase == .dispatched
    if x.onDie || 256 ≤ d.onDieCtxs || !wanted then d
    else
      let hist := d.history x
      ((d.releaseAll x.spill ownComp).modCtx x.id fun x =>
        { x with onDie := true, slot := hist, spill := [], histLen := 0, spillAt := 0 }).bump C.plcRestore

/-! ## The stream entries as they stand now -/

/-- A stream's entry as it stands now. -/
def Dev.streamEntry? (d : Dev) (stream : Nat) : Option StreamEntry := d.plc.streams.find? fun e => e.stream == stream

/-- Note that a stream was opened, closed or changed its NEXT_REC (R237). -/
def Dev.noteStream (d : Dev) (e : StreamEntry) : Dev :=
  { d with plc := { d.plc with
      streams := putStream e d.plc.streams
      changed := if d.plc.changed.contains e.stream then d.plc.changed else d.plc.changed ++ [e.stream] } }

/-- The STREAM entry of a context (R236). -/
def Ctx.entry (x : Ctx) (isOpen : Bool) : StreamEntry := ⟨x.stream, isOpen, x.endCut, x.affinity, x.nextRec, x.chainOpt⟩

/-! ## Cutting (R188, R189, R195) -/

/-- The members that take clicks of a stripe cascade: the master and every joined member (R228, R456). -/
def Dev.stripeMembers (d : Dev) : List Nat := 0 :: (d.cas.members.filter fun m => m.state == 3).map CMember.id

/-- The P1 backlog of a stripe member in bytes, as the master has it (R228): coded clicks of the member in its P1, which it keeps until
the member has reported them passed (R456; DEDUCED, log 19). -/
def Dev.memberBacklog (d : Dev) (m : Nat) : Nat :=
  ((d.strm.clicks.filter fun c => c.member == m && c.at_ == .staged).map fun c => c.coded.length - c.sent).sum

/-- The member of a chain that begins now (R228): in stripe cascade, the member first chosen for a non-zero AFFINITY in
the session, else the one with the smallest P1 backlog, the lowest of several. -/
def Dev.chooseMember (d : Dev) (affinity : Nat) : Nat × Dev :=
  if d.casMode != 2 then (0, d)
  else
    let seen := match d.plc.session with | some s => s.affMember.find? (fun a => a.1 == affinity) | none => none
    match (if affinity = 0 then none else seen) with
    | some a => (a.2, d)
    | none =>
      let ms := d.stripeMembers
      let least := ((ms.map fun m => d.memberBacklog m).min?).getD 0
      let m := (ms.find? fun m => d.memberBacklog m == least).getD 0
      let put := fun (s : Session) => { s with affMember := s.affMember ++ [(affinity, m)] }
      (m, if affinity = 0 then d else { d with plc := { d.plc with session := d.plc.session.map put } })

/-- The click that a context's open click becomes (R187, R195). -/
def Ctx.click (x : Ctx) (id : Nat) (reset : Bool) (flush : Bool) : Click :=
  { id := id, ctx := x.id, stream := x.stream, chain := x.chain, reset := reset, record := x.owner, recStart := x.recStart
    spans := x.open_, inLen := x.inLen, ends := x.ends, cutFlush := flush, urgent := x.urgent, affinity := x.affinity
    member := x.member, at_ := .cut, input := [], raw := false, coded := [], sent := 0, pieces := [], redo := [], source := none, remote := none }

/-- The chain length that applies to a stream (R195). -/
def Dev.chainLength (d : Dev) (x : Ctx) : Nat := if x.chainSet then x.chainOpt else d.get F.cmpCfgChainClicks

/-- A stripe master sends the record bytes of a click to the member that codes it (R456). -/
def Dev.sendClick (d : Dev) (c : Click) : Dev :=
  let y : SentClick := ⟨c.id, c.stream, c.chain, c.record, c.reset, c.recStart, c.cutFlush, c.urgent, c.ends, c.affinity⟩
  d.sendLink c.member 2 (.click y (c.spans.flatMap fun s => d.ddrBytes (d.bufAddr s.handle + s.off) s.len))

/-- Cut the open click of a context; an empty one is left alone (R188, R195). -/
def Dev.cut (d : Dev) (id : Nat) (flush : Bool) : Dev :=
  match d.strm.ctxs.find? (fun x => x.id == id) with
  | none => d
  | some x =>
    if x.inLen = 0 then d
    else
      let n := d.chainLength x
      let reset := x.fresh || (n != 0 && decide (n ≤ x.sinceReset)) || !(d.casMode != 2 || d.stripeMembers.contains x.member)
      let (m, d) := if reset then d.chooseMember x.affinity else (x.member, d)
      let x := if reset then
          { x with chain := d.strm.nextChain, chainFrom := x.owner, chainAt := none, sinceReset := 0, member := m, fresh := false }
        else x
      let c := x.click d.strm.nextClick reset flush
      let d := { d with strm := { d.strm with
        clicks := d.strm.clicks ++ [c], nextClick := d.strm.nextClick + 1
        nextChain := if reset then d.strm.nextChain + 1 else d.strm.nextChain } }
      let d := d.modCtx id fun _ => { x with sinceReset := x.sinceReset + 1, open_ := [], inLen := 0, ends := [], urgent := false }
      if d.casMode = 2 && m != 0 then d.sendClick c else d

/-- Cut the open clicks of every stream, as FLUSH does (R188, R222). -/
def Dev.cutAll (d : Dev) : Dev := (d.strm.ctxs.map Ctx.id).foldl (fun d id => d.cut id true) d

/-! ## Joining (R188) -/

/-- The first `n` bytes of a list of spans. -/
def takeSpans : Nat → List Span → List Span
  | _, [] => []
  | n, s :: rest => if n = 0 then [] else if n < s.len then [{ s with len := n }] else s :: takeSpans (n - s.len) rest

/-- The spans without their first `n` bytes. -/
def dropSpans : Nat → List Span → List Span
  | _, [] => []
  | n, s :: rest =>
    if n = 0 then s :: rest
    else if n < s.len then { s with off := s.off + n, len := s.len - n } :: rest
    else dropSpans (n - s.len) rest

/-- The longest input of a click in which `n` records end and another does not (R188). -/
def openBudget (n : Nat) : Nat := if n = 0 then 65536 else 65536 - 2 - 2 * n

/-- How many of `left` remaining bytes of a record join an open click of `i` bytes and `n` ends (R188): all, when the
record's end keeps the budget; else as many of the bytes before its last as do. -/
def joinable (i n left : Nat) : Nat :=
  if i + left + 2 + 2 * (n + 1) ≤ 65536 then left else min (left - 1) (openBudget n - i)

/-- Bytes of record `rec` join the open click of a context, which is cut as often as the budget asks (R188, R189). -/
def Dev.join (d : Dev) (id : Nat) (rec : Word) (urgent : Bool) : Nat → Bool → List Span → Nat → Dev
  | 0, _, _, _ => d
  | fuel + 1, first, spans, left =>
    match d.strm.ctxs.find? (fun x => x.id == id) with
    | none => d
    | some x =>
      let k := joinable x.inLen x.ends.length left
      if k = 0 then (d.cut id false).join id rec urgent fuel first spans left
      else
        let done := k == left
        let ends := if done then x.ends ++ [x.inLen + k - 1] else x.ends
        let x' : Ctx := { x with
          owner := if x.inLen = 0 then rec else x.owner
          recStart := if x.inLen = 0 then first else x.recStart
          open_ := x.open_ ++ takeSpans k spans, inLen := x.inLen + k, ends := ends, urgent := x.urgent || urgent
          lastUse := d.time }
        let d := d.modCtx id fun _ => x'
        let full := decide (openBudget ends.length < x.inLen + k + 1)
        let d := if full || (done && x.endCut) then d.cut id false else d
        if done then d else d.join id rec urgent fuel false (dropSpans k spans) (left - k)

/-! ## Capacity (R252) -/

/-- The width at which a wrap begins now (R34, R228): one track group for each device of a width cascade. -/
def Dev.cascadeWidth (d : Dev) : Nat :=
  let joined := fun (j : Nat) => d.cas.members.any fun m => m.id == j + 1 && m.state == 3
  if d.casMode = 1 then 1 + ((List.range 3).takeWhile joined).length else 1

/-- The data-area slots of a wrap from `next` on, in the direction of its number (R34, R36). -/
def slotsAhead (wrap next : Nat) : Nat := if wrap % 2 = 0 then 936720 - next else next + 1 - 3600

/-- Data-set starts that are armed: slots chosen and not yet written. -/
def Dev.startsArmed (d : Dev) : Nat := (d.pos.entries.filter Entry.isStart).length

/-- Where the next data set goes. -/
def Dev.place (d : Dev) : Place := match d.plc.session with | some s => s.place | none => d.plc.appendAt

/-- The wrap after one (R34): the lanes above it, or the next band from lane 0, with the width that remains; slot numbers
begin at the end from which its direction runs (R224). -/
def Place.next (p : Place) (width : Nat) : Place :=
  let past := decide (38 ≤ p.lane + p.width)
  let lane := if past then 0 else p.lane + p.width
  let wrap := p.wrap + 1
  ⟨wrap, if past then p.band + 1 else p.band, lane, min width (38 - lane), if wrap % 2 = 0 then 3600 else 936719⟩

/-- Where a wrap lies (R34): the wraps before it stand in the index with their widths; one without a group counts as one
track group wide. -/
def Dev.wrapPlace (d : Dev) : Nat → Place
  | 0 => ⟨0, 0, 0, width 0, 3600⟩
  | n + 1 => (d.wrapPlace n).next (width (n + 1))
where
  width (w : Nat) : Nat := max 1 (((d.plc.index.groups.find? fun g => g.wrap == w).map GroupEntry.width).getD 1)

/-- Whether a wrap lies on the cartridge: data bands 0 to 3. -/
def Place.onTape (p : Place) : Bool := decide (p.band < 4)

/-- Wraps not yet ended, this one included, when later ones have width `m`. -/
def Place.wrapsLeft (p : Place) (m : Nat) : Nat :=
  1 + (38 - p.lane - p.width + m - 1) / m + (3 - p.band) * ((38 + m - 1) / m)

/-- D of R252, in data data sets. -/
def Dev.remainDs (d : Dev) : Nat :=
  let p := d.place
  let later := 38 - p.lane - p.width + 38 * (3 - p.band)
  let u := (slotsAhead p.wrap p.slot + d.startsArmed) * p.width + 933120 * later
  if p.onTape then 60 * (u - 10 * p.wrapsLeft (max 1 d.cascadeWidth)) / 64 else 0

/-- Bytes of the click area of a data set. -/
def clickArea : Nat := 1961984

/-- Bytes of clicks that no data set holds yet: open clicks, cut clicks and coded clicks in the engines. -/
def Dev.clickBytes (d : Dev) : Nat :=
  (d.strm.ctxs.map Ctx.inLen).sum
    + (d.strm.clicks.map fun c => match c.at_ with
        | .cut | .coding _ => c.inLen
        | .ready _ => c.coded.length - c.sent
        | .staged => c.coded.length - c.sent
        | .placed => 0).sum

/-- Data data sets closed and not yet written. -/
def Dev.closedSets (d : Dev) : Nat :=
  (d.plc.dsets.filter fun x => x.typ == 1 && x.copies.all fun k => k.step == .closed || k.step == .folded || k.step == .marked).length

/-- Whether a record of `n` bytes finds no room (R312). -/
def Dev.noRoom (d : Dev) (n : Nat) : Bool :=
  decide (d.remainDs < 1 + d.closedSets + (d.clickBytes + n + clickArea - 1) / clickArea)

/-! ## Sessions begin (R221, R243) -/

/-- Streaming when the tape moves for a dispatched command, loaded when it stands (R22). -/
def Dev.streaming (d : Dev) : Dev :=
  if d.glb.dev == .loaded then
    let d := d.goState .streaming
    if d.casMode = 1 then d.tellMembers (.streaming true) else d
  else d

/-- A session begins (R221): its generation is the next one (R243), or, where that lies above the committed GEN_CEIL, none (0) until
the zone commit that it needs has reserved more; its first slot the append point; every stream's first
click of it begins a chain (R195). Nothing is written before a hold ends (R231; log 20). -/
def Dev.beginSession (d : Dev) : Dev :=
  if d.plc.session.isSome then d
  else
    let p := d.plc.appendAt
    let room := decide (d.plc.nextGen ≤ d.get F.plcGenCeilGenCeil)
    let g := if room then d.plc.nextGen else 0
    let group := ((d.plc.groupNext.find? fun x => x.1 == p.wrap).map Prod.snd).getD 0
    let s : Session :=
      { generation := g, firstWrap := p.wrap, startSlot := p.slot, place := p, dsSeq := 0, group := group, index := 0
        count := 0, noParity := false, groupFirst := p.slot, groups := 0, lastGroup := none, dataSets := 0
        ending := false, closing := false, endCommit := 0, heel := none, lastUsed := none, affMember := [], lost := false, owedGaps := 0, atEnd := false }
    let plc : Plc := { d.plc with
      session := some s, nextGen := if room then d.plc.nextGen + 1 else d.plc.nextGen, hold := true, holdDone := true, holdCause := 0 }
    let ctxs := d.strm.ctxs.map fun x => { x with fresh := true }
    let d := { d with plc := plc, strm := { d.strm with ctxs := ctxs } }
    (d.set F.plcSessionWrap p.wrap).set F.plcSessionGeneration g

/-! ## OPEN_STREAM, CLOSE_STREAM, WRITE_RECORD -/

/-- OPEN_STREAM (R215, R216, R218, R299, R300): a stream already open with the same options has its aim met, with others
it is refused. A stream that finds no on-die context waits for one. -/
def Dev.openStream (d : Dev) (h : Nat) : Dev :=
  match d.ready? h opOpen with
  | none => d
  | some c =>
    let endCut := bitAt (c.par 16 1) 0
    let chainSet := bitAt (c.par 16 1) 1
    let affinity := c.par 17 1
    let chain := if chainSet then c.par 18 1 else 0
    let existed := d.plc.index.streams.any fun e => e.stream == c.stream
    let answer := fun (next : Word) => leBytes 6 next.toNat ++ leBytes 1 (b2n existed)
    if !d.cart.loaded then d.finish h stNotLoaded []
    else match d.ctx? c.stream with
      | some x =>
        if x.endCut == endCut && x.chainSet == chainSet && x.chainOpt == chain && x.affinity == affinity
        then d.finish h stGood (answer x.nextRec) true
        else d.finish h stStreamOpen []
      | none =>
        if d.get F.plcCfgOpenMax ≤ d.openStreams then d.finish h stStreamLimit []
        else if 256 ≤ d.onDieCtxs then d
        else
          let next := ((d.streamEntry? c.stream).map StreamEntry.nextRec).getD 0
          let x : Ctx :=
            { id := d.strm.nextChain, stream := c.stream, endCut := endCut, chainSet := chainSet, chainOpt := chain
              affinity := affinity, nextRec := next, owner := next, recStart := true, open_ := [], inLen := 0, ends := []
              urgent := false, sinceReset := 0, fresh := true, chain := d.strm.nextChain, chainFrom := next, chainAt := none
              member := 0, lastUse := d.time, onDie := true, slot := [], slotChain := d.strm.nextChain, spill := []
              histLen := 0, spillAt := 0, closing := false }
          let d := { d with strm := { d.strm with ctxs := d.strm.ctxs ++ [x], nextChain := d.strm.nextChain + 1 } }
          (d.noteStream (x.entry true)).finish h stGood (answer next)

/-- The open stream's context, when it stands on the die. -/
def Dev.ctxReady? (d : Dev) (stream : Nat) : Option Ctx :=
  match d.ctx? stream with
  | some x => if x.onDie then some x else none
  | none => none

/-- CLOSE_STREAM (R216, R219, R316): the open click is cut and the context freed once the cut clicks are coded. A spilled
context is restored first. -/
def Dev.closeStream (d : Dev) (h : Nat) : Dev :=
  match d.ready? h opClose with
  | none => d
  | some c =>
    if !d.cart.loaded then d.finish h stNotLoaded []
    else match d.ctx? c.stream with
      | none => d.finish h stNotOpen []
      | some x =>
        if !x.onDie then d
        else
          let d := (d.cut x.id false).modCtx x.id fun x => { x with closing := true }
          ((d.noteStream (x.entry false)).freeCtxs).finish h stGood (leBytes 6 x.nextRec.toNat)

/-- Why an append command fails now (R312, R319, R325): its status and detail. A cause of R325 with a status of its own
gives it, and any other APPEND_STOPPED with its event code in bytes 16 to 17. -/
def Dev.appendBar (d : Dev) : Option (Nat × List Byte) :=
  if d.cart.readOnly then some (stProtected, [])
  else match d.plc.stopped with
    | some e =>
      if e = stFull || e = stIndexFull || e = stGenerations then some (e, []) else some (stAppendStopped, leBytes 2 e)
    | none => if d.plc.session.isNone && decide (0xFFFFFFFF < d.plc.nextGen) then some (stGenerations, []) else none

/-- WRITE_RECORD (R312): the record takes the stream's next number and its bytes join the open click. -/
def Dev.writeRecord (d : Dev) (h : Nat) : Dev :=
  match d.ready? h opWrite with
  | none => d
  | some c =>
    if !d.cart.loaded then d.finish h stNotLoaded []
    else match d.ctx? c.stream with
      | none => d.finish h stNotOpen []
      | some x =>
        match d.appendBar with
        | some (st, det) => d.finish h st det
        | none =>
          if d.noRoom c.dataLen then d.finish h stFull []
          else if !x.onDie then d
          else
            let d := d.beginSession
            let spans := c.data.zipIdx.map fun g => (⟨g.1, 0, min 65536 (c.dataLen - 65536 * g.2)⟩ : Span)
            let d := c.data.foldl (fun d g => ((d.share g ownComp).2).release g ownHostRx) d
            let d := d.modCmd h fun c => { c with data := [], record := x.nextRec.toNat }
            let d := d.modCtx x.id fun y => { y with nextRec := x.nextRec + 1 }
            let d := d.noteStream { x.entry true with nextRec := x.nextRec + 1 }
            let d := d.join x.id x.nextRec (c.cls == 4) (2 * c.dataLen + 2) true spans c.dataLen
            d.finish h stGood (leBytes 6 x.nextRec.toNat)

/-- IDLE_CUT (R188, R189): not with IDLE_CUT 0. -/
def Dev.idleCut (d : Dev) (stream : Nat) : Dev :=
  match d.ctx? stream with
  | some x => if d.get F.cmpCfgIdleCut = 0 then d else d.cut x.id false
  | none => d

def execOpenStream (h : Nat) (s : State) : Host.Outcome State Fault Refusal :=
  s.doing fun d => (d.openStream h).hostSettle
def execCloseStream (h : Nat) (s : State) : Host.Outcome State Fault Refusal :=
  s.doing fun d => (d.closeStream h).hostSettle
def execWriteRecord (h : Nat) (s : State) : Host.Outcome State Fault Refusal :=
  s.doing fun d => (d.writeRecord h).hostSettle
def execIdleCut (stream : BitVec 16) (s : State) : Host.Outcome State Fault Refusal :=
  s.doing fun d => d.idleCut stream.toNat
def execContextSpill (stream : BitVec 16) (s : State) : Host.Outcome State Fault Refusal :=
  s.doing fun d => d.spill stream.toNat
def execContextRestore (stream : BitVec 16) (s : State) : Host.Outcome State Fault Refusal :=
  s.doing fun d => d.restore stream.toNat

end Sys2Proof.Machine
end

