-- ==== Sys2Proof/Machine/Engines.lean ====
section
/-!
DEFINITION. The sixteen engines (R198 to R209): compression jobs, saved history, decompression jobs, the guards and the
delivery of records.
-/
namespace Sys2Proof.Machine

/-! ## Clicks and engines -/

/-- A click in the device's buffers. -/
def Dev.click? (d : Dev) (id : Nat) : Option Click := d.strm.clicks.find? fun c => c.id == id

/-- Change a click. -/
def Dev.modClick (d : Dev) (id : Nat) (f : Click → Click) : Dev :=
  { d with strm := { d.strm with clicks := d.strm.clicks.map fun c => if c.id == id then f c else c } }

/-- Engine e. -/
def Dev.engine (d : Dev) (e : Nat) : Engine := d.strm.engines.getD e Engine.free

/-- Change engine e. -/
def Dev.modEngine (d : Dev) (e : Nat) (f : Engine → Engine) : Dev :=
  { d with strm := { d.strm with engines := modAt f d.strm.engines e } }

/-- Set bit `e` of a field. -/
def Dev.setBit (d : Dev) (f : Fld) (e : Nat) (v : Bool) : Dev :=
  let w := d.get f
  d.set f (if bitAt w e then (if v then w else w - 2 ^ e) else if v then w + 2 ^ e else w)

/-- An engine in service with no job (R202). -/
def Dev.engineFree (d : Dev) (e : Nat) : Bool :=
  decide (e < 16) && !bitAt (d.get F.cmpStatusEngOut) e && (d.engine e).job == .none

/-- Whether a click is URGENT (R209): it, or a later click of its stream, holds bytes of an URGENT record. -/
def Dev.urgentClick (d : Dev) (c : Click) : Bool :=
  d.strm.clicks.any fun k => k.stream == c.stream && decide (c.id ≤ k.id) && k.urgent

/-- Read mode (R209): a record is being read from tape and no session is open. -/
def Dev.readMode (d : Dev) : Bool := d.plc.session.isNone && !d.strm.reads.isEmpty

/-- A job waits for a buffer: counted once (R201, R213). -/
def Dev.jobWaits (d : Dev) (j : Job) : Dev :=
  if d.strm.waiting.contains j then d
  else ({ d with strm := { d.strm with waiting := j :: d.strm.waiting } }).bump C.cmpJobWait

/-- A job starts: it waits no more. -/
def Dev.jobStarts (d : Dev) (j : Job) : Dev :=
  { d with strm := { d.strm with waiting := d.strm.waiting.filter fun k => k != j } }

/-! ## Compression jobs (R199, R201, R209) -/

/-- Whether a chain is bound to an engine other than `e`. -/
def Dev.boundElsewhere (d : Dev) (e : Nat) (k : Nat × Nat) : Bool :=
  d.strm.engines.zipIdx.any fun x => x.2 != e && x.1.bound == some k

/-- Whether engine `e` may leave the chain it is bound to (R199): the chain is its stream's newest, or all its cut clicks
are coded. -/
def Dev.mayLeave (d : Dev) (e : Nat) : Bool :=
  match (d.engine e).bound with
  | none => true
  | some k =>
    (d.strm.ctxs.any fun x => x.stream == k.1 && x.chain == k.2)
      || !(d.strm.clicks.any fun c => c.stream == k.1 && c.chain == k.2 && c.uncoded)

/-- Whether the history that a click needs is in the engine, empty, or in the slot, on the die or spilled (R199). -/
def Dev.histReady (d : Dev) (e : Nat) (c : Click) : Bool :=
  (d.engine e).bound == some (c.stream, c.chain)
    || (!d.boundElsewhere e (c.stream, c.chain) && d.mayLeave e
      && (c.reset || d.strm.ctxs.any fun x => x.id == c.ctx && x.slotChain == c.chain))

/-- Whether a click's compression could start on engine `e` (R199, R201); other members of a stripe code their own (R456). -/
def Dev.codable (d : Dev) (e : Nat) (c : Click) : Bool :=
  c.at_ == .cut && (d.casMode != 2 || c.member == 0) && d.histReady e c
    && !(d.strm.clicks.any fun k => k.ctx == c.ctx && k.chain == c.chain && decide (k.id < c.id) && k.uncoded)
    && (!c.reset || !(d.strm.clicks.any fun k => k.stream == c.stream && decide (k.chain < c.chain) && k.uncoded
      && !(d.strm.engines.any fun g => g.bound == some (k.stream, k.chain))))

/-- The click that engine `e` takes next (R209). -/
def Dev.nextClick (d : Dev) (e : Nat) : Option Click :=
  let ready := d.strm.clicks.filter fun c => d.codable e c
  match ready.find? fun c => d.urgentClick c with
  | some c => some c
  | none =>
    match ready.find? fun c => (d.engine e).bound == some (c.stream, c.chain) with
    | some c => some c
    | none => ready.head?

/-- The input bytes of a click in P0. -/
def Dev.inputOf (d : Dev) (c : Click) : List Byte := c.spans.flatMap fun s => d.ddrBytes (d.bufAddr s.handle + s.off) s.len

/-- A poisoned word among the input bytes of the click that an engine would take (R339). -/
def Dev.poisonedInput (d : Dev) (e : Nat) : Option Nat :=
  if !d.engineFree e || d.readMode || 2 ≤ (d.engine e).outs.length || 3 ≤ d.level 1 then none
  else match d.nextClick e with
    | some c => c.spans.findSome? fun s => d.poisonIn (d.bufAddr s.handle + s.off) s.len
    | none => none

/-- COMPRESSION_JOB_START (R201): engine `e` takes its next click. With both output buffers full
it takes none and the job waits, and at level 3 of P1 no job starts (R349). -/
def Dev.startCoding (d : Dev) (e : Nat) : Dev :=
  if !d.engineFree e || d.readMode || 3 ≤ d.level 1 then d
  else match d.nextClick e with
    | none => d
    | some c =>
      if 2 ≤ (d.engine e).outs.length then d.jobWaits (.code c.id)
      else
        let g := d.engine e
        let same := g.bound == some (c.stream, c.chain)
        let load := !same && !c.reset
        let slot := ((d.strm.ctxs.find? fun x => x.id == c.ctx).map fun x => d.history x).getD []
        let hist := if same then g.hist else if load then slot else []
        let input := d.inputOf c
        let d := (d.jobStarts (.code c.id)).modClick c.id fun c => { c with at_ := .coding e, input := input }
        let d := d.modEngine e fun g => { g with
          bound := some (c.stream, c.chain), reading := none, pos := if same then g.pos else 0, job := .code c.id, hist := hist }
        if load then d.bump C.cmpHistLoad else d

/-- An uncoded click begins a chain of its own, with the clicks of its chain after it (R195, R202): its history is lost. The chain keeps
its number, which orders it among those of its stream. -/
def Dev.rechain (d : Dev) (c : Click) : Dev :=
  let mine := fun (k : Click) => k.ctx == c.ctx && k.chain == c.chain && decide (c.id ≤ k.id)
  let count := (d.strm.clicks.filter mine).length
  let ctxs := d.strm.ctxs.map fun x => if x.id == c.ctx && x.chain == c.chain
    then { x with chainFrom := c.record, chainAt := none, sinceReset := count } else x
  ({ d with strm := { d.strm with ctxs := ctxs } }).modClick c.id fun k => { k with reset := true }

/-- P0 granules of a coded click that no other click needs any more are released. -/
def Dev.dropInput (d : Dev) (c : Click) : Dev :=
  let used := fun (h : Nat) => (d.strm.clicks.any fun k => k.uncoded && k.spans.any fun s => s.handle == h)
    || d.strm.ctxs.any fun x => x.open_.any fun s => s.handle == h
  ((c.spans.map Span.handle).dedup.filter fun h => !used h).foldl (fun d h => d.release h ownComp) d

/-- A closed stream's engines are free once its context is (R219). -/
def Dev.settleCtxs (d : Dev) : Dev :=
  let d := d.freeCtxs
  let alive := fun (k : Nat × Nat) => d.strm.ctxs.any fun x => x.stream == k.1
  let engines := d.strm.engines.map fun g =>
    if g.job == .none && (match g.bound with | some k => !alive k | none => false) then { g with bound := none, pos := 0, hist := [] } else g
  { d with strm := { d.strm with engines := engines } }

/-- The engine's history SRAM has an uncorrectable error (R202): the job is abandoned and the engine goes out of service.
Where the chain's history lay in the engine alone, the click begins a chain of its own. -/
def Dev.engineFails (d : Dev) (e : Nat) (c : Click) : Dev :=
  let d := (d.setBit F.cmpStatusEngOut e true).bump C.cmpSramErr
  let d := d.modEngine e fun g => { g with bound := none, pos := 0, job := .none, hist := [] }
  let d := d.modClick c.id fun c => { c with at_ := .cut }
  let kept := c.reset || d.strm.ctxs.any fun x => x.id == c.ctx && x.slotChain == c.chain
  if kept then d else d.rechain c

/-- A coded click: its bytes wait in the engine's output buffer, its input joins the history and, unless a later chain of
its stream has a completed click, the history slot (R199, R200, R202). -/
def Dev.coded (d : Dev) (e : Nat) (c : Click) (miscode : Bool) : Dev :=
  let g := d.engine e
  let level := d.get F.cmpCfgLevel
  let head : ClickHead := ⟨c.stream, c.inLen, 0, false, c.reset, !c.ends.isEmpty, c.recStart, c.cutFlush⟩
  let body := fun limited =>
    if miscode then Config.zc1Encode g.hist c.input level limited else zc1Body g.hist c.input level limited
  let r := codeClick head g.hist c.input c.ends (d.flag F.cmpCfgCheckEn) body
  let hist := (c.input.reverse ++ g.hist).take reach
  let d := d.modClick c.id fun c => { c with at_ := .ready e, coded := r.bytes, raw := r.raw }
  let d := d.modEngine e fun g => { g with job := .none, pos := min 255 (g.pos + 1), outs := g.outs ++ [c.id], hist := hist }
  let d := match d.strm.ctxs.find? fun x => x.id == c.ctx && decide (x.slotChain ≤ c.chain) with
    | some x => d.keepHistory x c.chain hist
    | none => d
  let d := (d.bumpBy C.cmpInBytes c.inLen).bumpBy C.cmpOutBytes r.bytes.length
  let d := d.bump C.cmpClicks
  let d := if r.raw then d.bump C.cmpRaw else d
  let d := if r.recode then d.bump C.cmpRecode else d
  let d := if r.miss then (d.bump C.cmpCheckFail).set F.cmpStatusCheckSeen 1 else d
  let d := { d with plc := { d.plc with coded := d.noteBytes d.plc.coded r.bytes.length } }
  let d := match c.remote with | some n => d.sendLink 0 2 (.coded n r.raw r.bytes) | none => d
  (d.dropInput c).settleCtxs

/-- CLICK_CODED (R199, R200, R202). A history slot that fails when it is loaded makes the click begin a chain. -/
def Dev.clickCoded (d : Dev) (e : Nat) (err : EngineErr) : Dev :=
  match (d.engine e).job with
  | .code id =>
    match d.click? id with
    | none => d
    | some c =>
      match err with
      | .sram => d.engineFails e c
      | .historySlot =>
        if c.reset || (d.engine e).pos != 0 then d.coded e c false
        else
          let d := (d.rechain c).bump C.cmpSramErr
          let d := d.modEngine e fun g => { g with hist := [] }
          match d.click? id with
          | some c => d.coded e c false
          | none => d
      | .none => d.coded e c false
      | .miscode => d.coded e c true
  | .none | .decode .. => d

/-! ## Decompression (R203 to R207) -/

/-- Whether a click of a read has HIST_RESET in its header. -/
def RClick.reset (c : RClick) : Bool := (ClickHead.ofBytes c.bytes).reset

/-- Change a read. -/
def Dev.modRead (d : Dev) (h : Nat) (f : Read → Read) : Dev :=
  { d with strm := { d.strm with reads := d.strm.reads.map fun r => if r.h == h then f r else r } }

/-- The index of the first click of the chain of click `i` of a read. -/
def Read.chainStart (r : Read) (i : Nat) : Nat :=
  ((List.range (i + 1)).filter fun j => j == 0 || ((r.clicks[j]?).map RClick.reset).getD false).getLastD 0

/-- The history of click `i` of a read, latest byte first (R194). -/
def Read.histOf (r : Read) (i : Nat) : List Byte :=
  let from_ := r.chainStart i
  (((r.clicks.take i).drop from_).flatMap fun c => (c.out.map Prod.fst).getD []).reverse.take reach

/-- Whether click `i` of a read may be decoded: all its pieces are there, and its predecessor in its chain is decoded
(R201). -/
def Read.decodable (r : Read) (i : Nat) : Bool :=
  match r.clicks[i]? with
  | none => false
  | some c => c.whole && c.refused == 0 && c.out.isNone
      && (r.chainStart i == i || (match r.clicks[i - 1]? with | some p => p.out.isSome | none => false))

/-- Bytes of record `rec` in a click whose first byte belongs to record `first`, whether the record ends there and whether
the click holds any byte of it (R204). -/
def recordPart (rec first : Word) (input : List Byte) (ends : List Nat) : List Byte × Bool :=
  let k := (rec - first).toNat
  if ends.length < k then ([], false)
  else
    let lo := if k = 0 then 0 else ends.getD (k - 1) 0 + 1
    match ends[k]? with
    | some e => ((input.take (e + 1)).drop lo, true)
    | none => (input.drop lo, false)

/-- Whether a click of a read has REC_START in its header. -/
def RClick.recStart (c : RClick) : Bool := (ClickHead.ofBytes c.bytes).recStart

/-- Whether a click can hold the record's bytes next (R204): its first byte where none has come yet, which a click that begins inside
the record does not hold; the next ones where some have, only in a click that begins inside it. -/
def RClick.fits (c : RClick) (rec : Word) (begun : Bool) : Bool :=
  if begun then c.record == rec && !c.recStart else c.record != rec || c.recStart

/-- A record's bytes over the decoded clicks in order, whether its end has come, and whether the guard of R206 refused it:
after each click, O over RATIO_MAX × C. -/
def gather (ratio : Nat) (rec : Word) : List RClick → List Byte → Nat → List Byte × Bool × Bool
  | [], got, _ => (got, false, false)
  | c :: rest, got, cost =>
    match c.out with
    | none => (got, false, false)
    | some (input, ends) =>
      if c.fits rec (!got.isEmpty) then
        let (bs, done) := recordPart rec c.record input ends
        let got := got ++ bs
        let cost := if bs.isEmpty then cost else cost + c.bytes.length
        if ratio * cost < got.length then (got, done, true)
        else if done then (got, true, false)
        else gather ratio rec rest got cost
      else if got.isEmpty then gather ratio rec rest got cost
      else (got, false, false)

/-- The record of a read so far. -/
def Dev.gathered (d : Dev) (r : Read) : List Byte × Bool × Bool :=
  gather (d.get F.cmpCfgRatioMax) r.record r.clicks [] 0

/-- The detail of a read failure (R317). -/
def Origin.detail (o : Origin) : List Byte := leBytes 4 o.slot ++ leBytes 2 o.group ++ leBytes 1 o.index ++ leBytes 1 o.klass

/-- The reads in the order in which an engine serves them: those of URGENT commands first (R209). -/
def Dev.readOrder (d : Dev) : List Read :=
  let urgent := fun (r : Read) => match d.cmd? r.h with | some c => c.cls == 4 | none => false
  d.strm.reads.filter urgent ++ d.strm.reads.filter fun r => !urgent r

/-- The clicks of a read that engine `e` could decode now: the read and the click's place in it. A chain that another engine is bound to
is not taken (R198, R209). -/
def Dev.readyDecodes (d : Dev) (e : Nat) (r : Read) : List (Nat × Nat) :=
  let busy := fun (i : Nat) => d.strm.engines.any fun g => g.job == .decode r.h i
  let elsewhere := fun (i : Nat) => d.strm.engines.zipIdx.any fun g => g.2 != e && g.1.reading == some (r.h, r.chainStart i)
  ((List.range r.clicks.length).filter fun i => r.decodable i && !busy i && !elsewhere i).map fun i => (r.h, i)

/-- The click that engine `e` decodes next (R209): one of an URGENT command, one of the chain to which the engine is bound, else the one
needed earliest. -/
def Dev.nextDecode (d : Dev) (e : Nat) : Option (Nat × Nat) :=
  let ready := d.readOrder.flatMap fun r => d.readyDecodes e r
  let urgent := fun (x : Nat × Nat) => match d.cmd? x.1 with | some c => c.cls == 4 | none => false
  let own := fun (x : Nat × Nat) => match d.strm.reads.find? (fun r => r.h == x.1) with
    | some r => (d.engine e).reading == some (r.h, r.chainStart x.2)
    | none => false
  ((ready.find? urgent).or (ready.find? own)).or ready.head?

/-- Bytes of a P3 buffer. -/
def p3Bytes : Nat := 2097152

/-- Engines that decode clicks of a read. -/
def Dev.decodingOf (d : Dev) (h : Nat) : Nat :=
  (d.strm.engines.filter fun g => match g.job with | .decode h' _ => h' == h | .none | .code _ => false).length

/-- DECOMPRESSION_JOB_START (R201): with 65,536 bytes of output space in a P3 buffer; else the job waits and is counted. -/
def Dev.startDecoding (d : Dev) (e : Nat) : Dev :=
  if !d.engineFree e || !d.readMode || !d.mayLeave e then d
  else match d.nextDecode e with
    | none => d
    | some (h, i) =>
      match d.strm.reads.find? fun r => r.h == h with
      | none => d
      | some r =>
        let need := (d.gathered r).1.length + 65536 * (1 + d.decodingOf h)
        let (ok, d) :=
          if need ≤ p3Bytes * r.out.length then (true, d)
          else match d.allocate 3 ownComp ownComp with
            | (some b, d) => (true, d.modRead h fun r => { r with out := r.out ++ [b] })
            | (none, d) => (false, d.jobWaits (.decode h i))
        if !ok then d
        else
          let chain := (h, r.chainStart i)
          (d.jobStarts (.decode h i)).modEngine e fun g => { g with
            bound := none, hist := [], reading := some chain, pos := if g.reading == some chain then g.pos else 0, job := .decode h i }

/-- Store a record in the P3 buffers of a read, and the runs of DDR that hold it. -/
def Dev.storeRecord (d : Dev) : List Nat → List Byte → List (Nat × Nat) × Dev
  | [], _ => ([], d)
  | b :: bs, bytes =>
    if bytes.isEmpty then ([], d)
    else
      let now := bytes.take p3Bytes
      let d := d.putDdr (d.bufAddr b) now
      let (rest, d) := d.storeRecord bs (bytes.drop p3Bytes)
      ((d.bufAddr b, now.length) :: rest, d)

/-- Engines that decode clicks of a read are bound to its chains no more, and its jobs do not wait. -/
def Dev.freeReaders (d : Dev) (h : Nat) : Dev :=
  let engines := d.strm.engines.map fun g =>
    if (g.reading.map Prod.fst) == some h then { g with job := .none, reading := none, pos := 0 } else g
  let waiting := d.strm.waiting.filter fun j => match j with | .decode h' _ => h' != h | .none | .code _ => true
  { d with strm := { d.strm with engines := engines, waiting := waiting } }

/-- Forget a read that ends. -/
def Dev.dropRead (d : Dev) (h : Nat) : Dev :=
  let d := d.freeReaders h
  { d with strm := { d.strm with reads := d.strm.reads.filter fun r => r.h != h } }

/-- Deliver a record of a read: its DATA_IN from the P3 buffers, then its STATUS (R207, R301). Buffers that hold none of
it are released. -/
def Dev.deliver (d : Dev) (c : Cmd) (bytes : List Byte) (out : List Nat) (klass : Nat) : Dev :=
  let n := (bytes.length + p3Bytes - 1) / p3Bytes
  let (parts, d) := d.storeRecord (out.take n) bytes
  let d := (out.take n).foldl (fun d b => ((d.share b ownHostTx).2).release b ownComp) d
  let d := d.releaseAll (out.drop n) ownComp
  let head := leBytes 4 c.tag ++ leBytes 1 c.opcode ++ leBytes 3 0 ++ leBytes 4 bytes.length ++ leBytes 4 0
  let d := d.sendFor c typDataIn ⟨head, parts⟩ (16 + bytes.length) none (out.take n)
  d.finish c.h stGood (leBytes 4 bytes.length ++ leBytes 1 klass)

/-- A read that fails gives its buffers back, sends no data and completes with its status (R207, R317). -/
def Dev.failRead (d : Dev) (r : Read) (status : Nat) (detail : List Byte) : Dev :=
  ((d.releaseAll r.out ownComp).dropRead r.h).finish r.h status detail

/-- A read whose record is whole is delivered; one whose record was refused fails (R206, R207). -/
def Dev.judgeRead (d : Dev) (h : Nat) : Dev :=
  match d.strm.reads.find? (fun r => r.h == h), d.cmd? h with
  | some r, some c =>
    let (got, done, over64) := d.gathered r
    if over64 then
      let o := (r.clicks.headD ⟨0, 0, [], false, ⟨0, 0, 0, 0⟩, 0, none⟩).origin
      ((d.bump C.cmpRatio).set F.cmpStatusGuardSeen 1).failRead r stExpansion o.detail
    else if done then (d.dropRead h).deliver c got r.out r.klass
    else match r.clicks.find? fun k => k.out.isNone with
      | some k =>
        if k.refused != 0 then d.failRead r k.refused k.origin.detail
        else if !k.whole && r.fail != 0 then d.failRead r r.fail r.failDet else d
      | none => if r.fail != 0 then d.failRead r r.fail r.failDet else d
  | _, _ => d

/-- CLICK_DECODED (R202, R205 to R207): a decoded click's bytes join the record; a refused one refuses the clicks of its
chain after it. After an engine error the chain is decoded again from its first click. -/
def Dev.clickDecoded (d : Dev) (e : Nat) (err : EngineErr) : Dev :=
  match (d.engine e).job with
  | .decode h i =>
    match d.strm.reads.find? fun r => r.h == h with
    | none => d
    | some r =>
      match r.clicks[i]? with
      | none => d
      | some c =>
        let d := d.modEngine e fun g => { g with job := .none, pos := min 255 (g.pos + 1) }
        match err with
        | .sram =>
          let d := (d.setBit F.cmpStatusEngOut e true).bump C.cmpSramErr
          let d := d.modEngine e fun g => { g with reading := none, pos := 0 }
          let a := r.chainStart i
          d.modRead h fun r => { r with clicks := r.clicks.zipIdx.map fun x =>
            if a ≤ x.2 ∧ x.2 ≤ i then { x.1 with out := none } else x.1 }
        | .none | .historySlot | .miscode =>
          let d := match decodeClick c.stream (r.histOf i) c.bytes with
            | .input bs ends =>
              let plc := { d.plc with readIn := d.plc.readIn + c.bytes.length, readOut := d.plc.readOut + bs.length }
              (({ d with plc := plc }).modRead h fun r =>
                { r with clicks := modAt (fun c => { c with out := some (bs, ends) }) r.clicks i }).bumpBy C.cmpDecBytes bs.length
            | .guard =>
              ((d.modRead h fun r => { r with clicks := modAt (fun c => { c with refused := stGuard }) r.clicks i }).bump
                C.cmpGuard).set F.cmpStatusGuardSeen 1
            | .crc =>
              ((d.modRead h fun r => { r with clicks := modAt (fun c => { c with refused := stCrc }) r.clicks i }).bump
                C.cmpCrcFail).set F.cmpStatusGuardSeen 1
          d.judgeRead h
  | .none | .code _ => d

def execClickCoded (engine : Nat) (err : EngineErr) (s : State) : Host.Outcome State Fault Refusal :=
  s.doing fun d => (d.clickCoded engine err).hostSettle
def execDecompressionJobStart (engine : Nat) (s : State) : Host.Outcome State Fault Refusal :=
  s.doing fun d => (d.startDecoding engine).hostSettle
def execClickDecoded (engine : Nat) (err : EngineErr) (s : State) : Host.Outcome State Fault Refusal :=
  s.doing fun d => (d.clickDecoded engine err).hostSettle

end Sys2Proof.Machine
end

