-- ==== Sys2Proof/Machine/Placement.lean ====
section
/-!
DEFINITION. The Last: the P1 backlog, filling and closing data sets (R223 to R228), in-line segments (R237), parity and
heel data sets, holds (R230, R231), durability and waiting FLUSH commands (R315), and the end of a session (R222, R181).
-/
namespace Sys2Proof.Machine

/-- No buffer. -/
def noHandle : Nat := 0xFFFFFFFF

/-! ## Slots and directions -/

/-- Whether a wrap is written in reverse (R34). -/
def wrapReverse (wrap : Nat) : Bool := wrap % 2 == 1 && wrap != 0xFF

/-- The slot `k` slots after `g` in the direction of writing. -/
def slotAfter (rev : Bool) (g k : Nat) : Nat := if rev then g - k else g + k

/-- How many slots `g` lies after `h` in the direction of writing; negative before it. -/
def slotsFrom (rev : Bool) (h g : Nat) : Int := if rev then (h : Int) - g else (g : Int) - h

/-- TPOS of the first channel bit of a slot in the direction of writing (R36). -/
def slotStart (rev : Bool) (g : Nat) : Int := if rev then 76800 * ((g : Int) + 1) - 1 else 76800 * (g : Int)

/-- The last data-area slot of a wrap (R224). -/
def lastSlot (wrap : Nat) : Nat := if wrapReverse wrap then 3600 else 936719

/-- Data-area slots from `g` on to the last of its wrap. -/
def slotsLeft (wrap g : Nat) : Int := slotsFrom (wrapReverse wrap) g (lastSlot wrap) + 1

/-! ## Data sets -/

def Dev.dset? (d : Dev) (id : Nat) : Option DSet := d.plc.dsets.find? fun x => x.id == id

def Dev.modDset (d : Dev) (id : Nat) (f : DSet → DSet) : Dev :=
  { d with plc := { d.plc with dsets := d.plc.dsets.map fun x => if x.id == id then f x else x } }

def Dev.modPlc (d : Dev) (f : Plc → Plc) : Dev := { d with plc := f d.plc }

def Dev.modSession (d : Dev) (f : Session → Session) : Dev := d.modPlc fun p => { p with session := p.session.map f }

/-- The header of a copy of a data set (R43, R179). -/
def DSet.header (x : DSet) (k : Copy) : Header :=
  ⟨x.typ, x.flushEnd, x.band, x.width, x.member, x.lane, x.wrap, k.slot, x.group, x.index, k.copy, x.groupCount, x.generation,
    x.dsSeq.toNat⟩

/-- The latest copy of a data set. -/
def DSet.last? (x : DSet) : Option Copy := x.copies.getLast?

/-- Change the latest copy. -/
def DSet.modLast (x : DSet) (f : Copy → Copy) : DSet := { x with copies := modAt f x.copies (x.copies.length - 1) }

/-- A copy meant for a slot. -/
def Copy.at (slot copy : Nat) (step : Step) : Copy := ⟨slot, copy, step, false, false, false, false, false⟩

/-- A copy that has no verify decision yet, once written. -/
def Copy.undecided (k : Copy) : Bool := match k.step with | .passed | .failed => false | _ => true

/-- Whether some data set of this device awaits a verify decision. -/
def Dev.undecided (d : Dev) : Bool := d.plc.dsets.any fun x => x.copies.any Copy.undecided

/-! ## The P1 backlog (R15 step 1, R229) -/

/-- Bytes of a coded click still to be placed. -/
def Click.left (c : Click) : Nat := c.coded.length - c.sent

/-- Whether a click is coded and not wholly placed. -/
def Click.waits (c : Click) : Bool := match c.at_ with | .ready _ | .staged => true | .cut | .coding _ | .placed => false

/-- Bytes that the backlog holds. -/
def Dev.stagedBytes (d : Dev) : Nat := ((d.strm.clicks.filter fun c => c.at_ == .staged).map Click.left).sum

/-- B of R229: full data sets in the P1 backlog. -/
def Dev.backlog (d : Dev) : Nat :=
  ((d.strm.clicks.filter fun c => c.at_ == .staged && (d.casMode != 2 || c.member == 0)).map Click.left).sum / clickArea

/-- The Last takes coded clicks from the engines into P1 buffers, oldest first, while it gets buffers (R15, R201). -/
def Dev.stage (d : Dev) : Nat → Dev
  | 0 => d
  | n + 1 =>
    match d.strm.clicks.find? (fun c => match c.at_ with | .ready _ => true | _ => false) with
    | none => d
    | some c =>
      let need := (d.stagedBytes + c.left + clickArea - 1) / clickArea
      let (ok, d) :=
        if need ≤ d.plc.staged.length then (true, d)
        else match d.allocate 1 ownLast ownWrite with
          | (some h, d) => (true, d.modPlc fun p => { p with staged := p.staged ++ [h] })
          | (none, d) => (false, d)
      if !ok then d
      else
        let drop := fun (g : Engine) => { g with outs := g.outs.filter fun i => i != c.id }
        let d := { d with strm := { d.strm with engines := d.strm.engines.map drop } }
        (d.modClick c.id fun c => { c with at_ := .staged }).stage n

/-- Take what can be taken. -/
def Dev.stageAll (d : Dev) : Dev := d.stage d.strm.clicks.length

/-- Backlog buffers that the remaining clicks do not need are released. -/
def Dev.trimStage (d : Dev) : Dev :=
  let need := (d.stagedBytes + clickArea - 1) / clickArea
  (d.releaseAll (d.plc.staged.drop need) ownLast).modPlc fun p => { p with staged := p.staged.take need }

/-! ## The order of clicks (R227, R233) -/

/-- Whether a click may be placed before those of `rest`: its stream's clicks are begun in their cut order. A click begun in the
data set of another member of the slot goes on in that member's next one (R228). -/
def firstOfStream (rest : List Click) (c : Click) : Bool :=
  !(rest.any fun k => k.stream == c.stream && decide (k.id < c.id) && k.at_ != .placed && k.sent == 0)

/-- Of clicks to be placed again, the one that lay first: by data set, then by manifest entry (R233). -/
def firstLaid (cs : List Click) : Option Click :=
  let key := fun (c : Click) => match c.source with | some (x, i) => 256 * x + i | none => 0
  let again := cs.filter fun c => !c.redo.isEmpty
  match (again.map key).min? with
  | some k => again.find? fun c => key c == k
  | none => none

/-- The click placed next among the clicks `rest` (all clicks not wholly placed, oldest cut first), after a click of
AFFINITY `aff` in the same data set; `mem` is the member being filled. A click begun in an earlier data set of the member
comes first, then clicks to be placed again, URGENT ones, one of the same AFFINITY within AFF_SKEW, the oldest cut. -/
def pickClick (skew : Nat) (urgent : Click → Bool) (rest : List Click) (mem aff : Nat) : Option Click :=
  let ready := rest.filter fun c => c.waits && firstOfStream rest c && (c.sent == 0 || c.member == mem)
  match ready.find? fun c => c.sent != 0 with
  | some c => some c
  | none =>
    match firstLaid ready with
    | some c => some c
    | none =>
      match ready.find? urgent with
      | some c => some c
      | none =>
        match ready.head? with
        | none => none
        | some o =>
          if aff = 0 || o.affinity == aff then some o
          else (ready.find? fun c => c.affinity == aff && decide (c.id ≤ o.id + skew)).or (some o)

/-- A piece given to a data set: the click, the bytes of it and where they begin in it. -/
structure Given where
  click : Click
  from_ : Nat
  len   : Nat
  deriving DecidableEq, Repr

/-- The highest record with bytes in a click (R204). -/
def Click.lastRecord (c : Click) : Word :=
  let n := if c.ends.getLast? == some (c.inLen - 1) then c.ends.length - 1 else c.ends.length
  c.record + BitVec.ofNat 48 n

/-- Add records of a stream to the runs of a member's open group; the index stream has none (R237). -/
def addRun (mem : Nat) (c : Click) (rs : List (Nat × Run)) : List (Nat × Run) :=
  if c.stream = 0xFFFF then rs
  else if rs.any (fun r => r.1 == mem && r.2.stream == c.stream) then
    rs.map fun r => if r.1 == mem && r.2.stream == c.stream then
      (r.1, ⟨c.stream, if r.2.first.toNat ≤ c.record.toNat then r.2.first else c.record,
        if c.lastRecord.toNat ≤ r.2.last.toNat then r.2.last else c.lastRecord⟩) else r
  else rs ++ [(mem, ⟨c.stream, c.record, c.lastRecord⟩)]

/-- The runs that a group has with the pieces given to its next data set. -/
def runsWith (mem : Nat) (gs : List Given) (rs : List (Nat × Run)) : List (Nat × Run) :=
  gs.foldl (fun rs g => addRun mem g.click rs) rs

/-- CHAIN entries for the chains whose first click begins in a data set, entry by entry. -/
def newChains (mem index : Nat) (gs : List Given) : List (Nat × Chain) :=
  (gs.zipIdx.filter fun g => g.1.click.reset && g.1.from_ == 0 && g.1.click.stream != 0xFFFF).map fun g =>
    (mem, ⟨g.1.click.stream, index, g.2, g.1.click.record⟩)

/-- The superseded data set that a data set becomes. -/
def DSet.old (x : DSet) : Old := ⟨x.band, x.width, x.member, x.wrap, x.group, x.index, x.dsSeq⟩

/-- Entries for clicks placed again, one for each superseded data set in which they lay: REPLACED in the same track group (R233), MOVED
from another one (R464; log 35). -/
def newReplaced (mem wrap index : Nat) (gs : List Given) : List (Nat × Replaced) :=
  ((gs.flatMap fun g => g.click.redo).dedup).map fun (o : Old) =>
    let mine := (gs.zipIdx.filter fun g => g.1.click.redo.contains o).map Prod.snd
    let moved := if o.wrap == wrap && o.member == mem then none
      else some (o.band + 4 * (o.width - 1) + 16 * o.member, o.wrap, 0, o.dsSeq)
    (mem, ⟨o.group, o.index, index, mine.headD 0, mine.length, moved⟩)

/-! ## In-line segments (R237) -/

/-- The input lengths of the clicks of a segment of `n` bytes: one record under R188. -/
def segmentChunks : Nat → Nat → List Nat
  | 0, _ => []
  | fuel + 1, left =>
    let k := joinable 0 0 left
    if left ≤ k then [left] else k :: segmentChunks fuel (left - k)

/-- Bytes that the clicks of a segment of `n` bytes take in a click area. -/
def segmentRoom (n : Nat) : Nat := n + 16 * (segmentChunks (n + 1) n).length + 4

/-- The raw clicks of a segment (R237): each begins a chain; the first starts the record, the last ends it. -/
def segmentClicks (segment : List Byte) : Nat → Bool → List Nat → List (List Byte)
  | _, _, [] => []
  | off, first, n :: rest =>
    let input := (segment.drop off).take n
    let ends := if rest.isEmpty then [n - 1] else []
    let es := endList ends
    let h : ClickHead := ⟨0xFFFF, n, es.length + n, true, true, !ends.isEmpty, first, false⟩
    (h.bytes input ++ es ++ input) :: segmentClicks segment (off + n) false rest

/-- The group entry of a member's open group as it would close with `count` data data sets, the last of them in slot
`slot` with runs, chains and replacements as given. -/
def Session.groupEntry (s : Session) (mem count slot : Nat) (ending : Bool) (rs : List (Nat × Run)) (cs : List (Nat × Chain))
    (ps : List (Nat × Replaced)) : GroupEntry :=
  let own := fun (x : Nat) => x == mem
  ⟨s.place.band, s.place.width, mem, s.place.wrap, s.group, s.groupFirst, slotAfter (wrapReverse s.place.wrap) slot 4, s.generation,
    count, false, ending, count - 1, (rs.filter fun r => own r.1).map Prod.snd, (cs.filter fun c => own c.1).map Prod.snd,
    (ps.filter fun p => own p.1).map Prod.snd⟩

/-- The SESSION entry of the open session (R236). -/
def Session.entry (s : Session) (ended endSlot : Nat) (commit : Word) : SessEntry :=
  ⟨s.generation, s.firstWrap, s.place.wrap, ended, s.startSlot, endSlot, commit⟩

/-- PRESENT of a CASCADE entry: the joined devices (R463). -/
def Dev.present (d : Dev) : Nat :=
  1 + ((d.cas.members.filter fun m => m.state == 3).map fun m => 2 ^ m.id).sum

/-- The CASCADE entry (R463), in a set; DEVICE_REF of a member comes from its IDENTITY entry, and is 0 for an ID never met. -/
def Dev.cascadeEntry (d : Dev) (generation : Nat) : List RawEntry :=
  match d.cas.setId with
  | none => []
  | some id =>
    if d.casMode = 0 then [] else
      let n := d.setSize 0
      let ref := fun (j : Nat) => if j = d.ownId then leBytes 8 deviceRef.toNat else
        match d.cas.members.find? fun m => m.id == j with
        | some m => match m.entries.find? fun e => e.typ == 9 with | some e => (e.body.drop 12).take 8 | none => leBytes 8 0
        | none => leBytes 8 0
      let pos := if d.casMode = 2 then d.ownId else 0
      [⟨7, leBytes 1 d.casMode ++ leBytes 1 n ++ leBytes 1 pos ++ leBytes 1 0 ++ leBytes 8 id.toNat
        ++ leBytes 2 d.present ++ leBytes 2 0 ++ leBytes 4 generation ++ (List.range n).flatMap ref⟩]

/-- The entries of the segment of a member's group (R237), with the CASCADE entry in the first group of a session (R463). -/
def Dev.segmentEntries (d : Dev) (s : Session) (g : GroupEntry) (sess : SessEntry) : List (List Byte) :=
  let before := (d.plc.noC3.filter fun x => x.member == g.member).flatMap GroupEntry.entries
  let streams := (d.plc.changed.filterMap d.streamEntry?).map StreamEntry.bytes
  let cascade := if s.groups = 0 then (d.cascadeEntry s.generation).map RawEntry.bytes else []
  before ++ g.entries ++ streams ++ cascade ++ [sess.bytes]

/-- Bytes of the in-line segment: header and entries. -/
def Dev.segmentLength (d : Dev) (s : Session) (g : GroupEntry) (sess : SessEntry) : Nat :=
  64 + entriesLength (d.segmentEntries s g sess)

/-! ## Filling (R225, R226, R228) -/

/-- What filling a data set gives: the pieces in order, whether clicks ran out before the area or the manifest was full, and whether one
of them is full. -/
structure Filling where
  given : List Given
  dry   : Bool
  full  : Bool
  deriving DecidableEq, Repr

/-- Fill a click area. `rest` are the clicks not wholly placed, `room` says whether pieces fit with what the data set must
hold besides; a click that does not fit is split where `split` allows. -/
def fillArea (skew : Nat) (urgent : Click → Bool) (mem : Nat) (split : Bool) (room : List Given → Bool) :
    Nat → List Click → Nat → Nat → List Given → Filling
  | 0, _, _, used, acc => ⟨acc, false, decide (clickArea ≤ used) || decide (251 ≤ acc.length)⟩
  | n + 1, rest, aff, used, acc =>
    match pickClick skew urgent rest mem aff with
    | none =>
      let full := decide (clickArea ≤ used) || decide (251 ≤ acc.length)
      ⟨acc, !full, full⟩
    | some c =>
      let whole : Given := ⟨c, c.sent, c.left⟩
      let left := clickArea - used
      if c.left ≤ left && room (acc ++ [whole]) then
        fillArea skew urgent mem split room n (rest.filter fun k => k.id != c.id) c.affinity (used + c.left) (acc ++ [whole])
      else if split && c.sent == 0 && decide (0 < left) && decide (left < c.left) && decide (acc.length < 251) then
        ⟨acc ++ [⟨c, 0, left⟩], false, true⟩
      else ⟨acc, false, decide (clickArea ≤ used) || decide (251 ≤ acc.length)⟩

/-- Clicks not wholly placed, oldest cut first, those to be placed again included. -/
def Dev.unplaced (d : Dev) : List Click := d.strm.clicks.filter fun c => c.at_ != .placed && (d.casMode != 2 || c.member == 0)

/-- Whether a click lies in an open group: its parity has not been begun. -/
def Dev.inOpenGroup (d : Dev) (c : Click) : Bool :=
  match d.plc.session with
  | none => false
  | some s => s.index < 60 && c.pieces.any fun p => match d.dset? p.ds with
      | some x => x.wrap == s.place.wrap && x.group == s.group && x.generation == s.generation
      | none => false

/-- Whether a waiting FLUSH or the session's end still needs a click placed. -/
def Dev.needs (d : Dev) (c : Click) : Bool :=
  (match d.plc.session with | some s => s.ending && !s.closing | none => false) || d.cqm.waits.any fun w => w.clicks.contains c.id

/-- Whether the open group must be closed before it is full: a FLUSH waits for clicks not yet placed or in it, or the
session ends (R222, R226, R315). -/
def Dev.wantsShort (d : Dev) : Bool :=
  (match d.plc.session with | some s => s.ending && !s.closing | none => false)
    || d.strm.clicks.any fun c => (d.cqm.waits.any fun w => w.clicks.contains c.id) && (c.at_ != .placed || d.inOpenGroup c)

/-- Whether a data data set that goes in the next slot is the last of its wrap (R224). -/
def Session.wrapEnd (s : Session) : Bool := decide (slotsLeft s.place.wrap s.place.slot ≤ 11)

/-- Whether a data data set may still go in the next slot (R224): at least 10 slots before the wrap's last. Where aborts have taken those
slots from a group that is open (R84), the group still closes, with the last of its data data sets beyond (DESIGN CHOICE, log 50). -/
def Session.roomForData (s : Session) : Bool :=
  decide (11 ≤ slotsLeft s.place.wrap s.place.slot) || (decide (0 < s.index) && decide (1 ≤ slotsLeft s.place.wrap s.place.slot))

/-! ## Reserve and capacity (R251, R252) -/

/-- The early warning (R252). -/
def Dev.checkCapacity (d : Dev) : Dev :=
  let low := decide (d.remainDs * clickArea < d.get F.plcCfgEarlyWarn * 10000000000)
  if low && !d.plc.warned then ((d.set F.plcStatusEwSeen 1).modPlc fun p => { p with warned := true }).event 0x0303
  else if low then d else d.modPlc fun p => { p with warned := false }

/-! ## Holds (R230) -/

/-- A hold begins (R230): counted once. -/
def Dev.beginHold (d : Dev) (cause : Nat) : Dev :=
  if d.plc.hold then d
  else (d.modPlc fun p => { p with hold := true, holdDone := false, holdCause := cause }).bump C.plcHold

/-- The next slot of the wrap. -/
def Session.advance (s : Session) : Session :=
  { s with place := { s.place with slot := slotAfter (wrapReverse s.place.wrap) s.place.slot 1 } }

/-- A data-set start is armed for the next slot (R79); refused, the slot keeps no start. -/
def Dev.armStart (d : Dev) (s : Session) : Dev :=
  let rev := wrapReverse s.place.wrap
  match d.arm ⟨slotStart rev s.place.slot, rev, .dsStart s.place.slot⟩ with
  | some d => d
  | none => d.bump C.posLate

/-- Give the next slot to a gap (R230). -/
def Dev.gapSlot (d : Dev) (s : Session) : Dev := (d.armStart s).modSession fun s => s.advance

/-- The data sets whose copies were meant for a slot whose start was refused (R79): they are placed again. -/
def Dev.misplaced (d : Dev) (g : Nat) : Dev :=
  let mine := fun (x : DSet) => x.member == d.self && match x.last? with
    | some k => k.slot == g && (k.step == .closed || k.step == .folded || k.step == .marked)
    | none => false
  let ids := ((d.plc.dsets.filter mine).map DSet.id).filter fun i => !d.plc.again.contains i
  d.modPlc fun p => { p with again := p.again ++ ids }

/-- Give the next slot to a data set that has a copy meant for it. -/
def Dev.useSlot (d : Dev) (s : Session) : Dev :=
  let rev := wrapReverse s.place.wrap
  match d.arm ⟨slotStart rev s.place.slot, rev, .dsStart s.place.slot⟩ with
  | some d => d.modSession fun t => t.advance
  | none => ((d.bump C.posLate).misplaced s.place.slot).modSession fun t => t.advance

/-! ## Data sets that follow a group -/

/-- The next data set's number (R44). -/
def Session.nextSeq (s : Session) : Session := { s with dsSeq := s.dsSeq + 1 }

/-- A new data set for the next slot, in the buffer `h`. -/
def Dev.newDset (d : Dev) (s : Session) (typ mem group index count h : Nat) : DSet :=
  { id := d.plc.nextDs, typ := typ, flushEnd := false, band := s.place.band, width := s.place.width, member := mem
    lane := s.place.lane, wrap := s.place.wrap, group := group, index := index, groupCount := count, generation := s.generation
    dsSeq := s.dsSeq, first := s.place.slot, handle := h, clicks := [], segment := none, last := false, passed := false
    superseded := false, copies := if mem = d.self then [Copy.at s.place.slot 0 .closed] else [] }

/-- Add a data set. -/
def Dev.addDset (d : Dev) (x : DSet) : Dev :=
  d.modPlc fun p => { p with dsets := p.dsets ++ [x], nextDs := p.nextDs + 1 }

/-- Whether a member still writes its part of the wrap: joined, or leaving (R459, R460). -/
def Dev.takesPart (d : Dev) (j : Nat) : Bool := d.cas.members.any fun m => m.id == j && (m.state == 3 || m.state == 4)

/-- Take `n` P2 buffers for the parity of a group at its close (R20), for the C3 accumulator and the Last; none where too few are
free. -/
def Dev.takeParity (d : Dev) : Nat → Option Dev
  | 0 => some d
  | n + 1 => match d.allocate 2 ownC3 ownC3 with
    | (none, _) => none
    | (some h, d) => ((d.share h ownLast).2.modPlc fun p => { p with parity := p.parity ++ [h] }).takeParity n

/-- P2 buffers that no parity data set has taken go back. -/
def Dev.dropParity (d : Dev) : Dev :=
  ((d.releaseAll d.plc.parity ownC3).releaseAll d.plc.parity ownLast).modPlc fun p => { p with parity := [] }

/-- Parity INDEX 60 + q goes in the next slot (R53, R154), for every member of the wrap, or a gap where the group lost its
C3 (R155). After the fourth, the next group opens. -/
def Dev.placeParity (d : Dev) (s : Session) : Dev :=
  let after := fun (t : Session) => if t.index < 63 then { t with index := t.index + 1 } else
    { t with index := 0, group := t.group + 1, noParity := false }
  if s.noParity then (d.gapSlot s).modSession after
  else
   let d := if d.plc.parity.isEmpty then (d.takeParity 1).getD d else d
   match d.plc.parity with
    | [] => (d.beginHold 2).gapSlot s
    | h :: hs =>
      let d := d.modPlc fun p => { p with parity := hs }
      let d := d.addDset (d.newDset s 2 d.self s.group s.index s.count h)
      let d := ((List.range (if d.follows then 0 else s.place.width - 1)).filter fun j => d.takesPart (j + 1)).foldl (fun d j => d.addDset (d.newDset s 2 (j + 1) s.group s.index s.count noHandle)) d
      (d.useSlot s).modSession fun t => after t.nextSeq

/-- A heel copy goes in the next slot (R55, R181): the first opens the heel's data set. Where its track group has no first copy of the
session before it, LAST_DS_SEQ is 0 (DESIGN CHOICE, log 47: the rule gives no value). -/
def Dev.placeHeel (d : Dev) (s : Session) : Dev :=
  match s.heel.bind d.dset? with
  | some x =>
    let n := ((x.last?).map Copy.copy).getD 0 + 1
    if 16 ≤ n then d
    else (d.modDset x.id fun x => { x with copies := x.copies ++ [Copy.at s.place.slot n .folded] }).useSlot s
  | none =>
    match d.allocate 1 ownLast ownWrite with
    | (none, d) => d.gapSlot s
    | (some h, d) =>
      let d := (d.share h ownC3).2
      let x := d.newDset s 3 d.self 0 0 0 h
      let rec_ := heelBytes (s.dsSeq.toNat - 1) (s.lastGroup.getD 0xFFFF) s.groups s.dataSets s.endCommit.toNat
      let man := manifestBytes 64 s.generation s.dsSeq.toNat d.glb.bootCount deviceRef []
      let d := d.putDdr (d.bufAddr h) (fitTo 1966080 (man ++ rec_))
      let d := if d.casMode = 1 then d.tellMembers (.sessionEnd s.endCommit) else d
      (((d.addDset x).modSession fun t => { t.nextSeq with heel := some x.id })).useSlot s

/-! ## Closing a data data set -/

/-- The data data set that closes a member's group: room is kept for the in-line segment, and no click is split (R225, R237). -/
def Dev.fillLast (d : Dev) (s : Session) (mem : Nat) (rest : List Click) : Filling :=
  let slot := s.place.slot
  let use := fun (gs : List Given) =>
    let g := s.groupEntry mem (s.index + 1) slot false (runsWith mem gs d.plc.runs) (d.plc.chains ++ newChains mem s.index gs)
      (d.plc.replacing ++ newReplaced mem s.place.wrap s.index gs)
    let n := d.segmentLength s g (s.entry 1 slot 0)
    ((gs.map Given.len).sum + segmentRoom n, gs.length + (segmentChunks (n + 1) n).length)
  let room := fun (gs : List Given) => decide ((use gs).1 ≤ clickArea) && decide ((use gs).2 ≤ 251)
  let f := fillArea (d.get F.plcCfgAffSkew) d.urgentClick mem false room (rest.length + 1) rest 0 0 []
  let full := decide (clickArea ≤ (use f.given).1) || decide (251 ≤ (use f.given).2)
  ⟨f.given, f.dry && !full, full⟩

/-- A data data set inside its group: a click that does not fit is split (R225). -/
def Dev.fillPlain (d : Dev) (mem : Nat) (rest : List Click) : Filling :=
  fillArea (d.get F.plcCfgAffSkew) d.urgentClick mem true (fun gs => decide (gs.length ≤ 251)) (rest.length + 1) rest 0 0 []

/-- The clicks left for the other data sets of a slot once one has its pieces. -/
def leftover (mem : Nat) (gs : List Given) (rest : List Click) : List Click :=
  rest.filterMap fun c => match gs.find? fun g => g.click.id == c.id with
    | none => some c
    | some g => if g.from_ + g.len == c.coded.length then none else some { c with sent := g.from_ + g.len, member := mem }

/-- The data sets of one slot filled in member order (R228). -/
def roundFill (fill : Nat → List Click → Filling) : List Nat → List Click → List Filling
  | [], _ => []
  | m :: ms, rest => fill m rest :: roundFill fill ms (leftover m (fill m rest).given rest)

/-- How the data data sets of a slot close: what each holds, whether their groups close with them, and whether every click
that a FLUSH or the session's end needs is then placed. -/
structure Closing where
  fills   : List Filling
  last    : Bool
  covered : Bool
  deriving DecidableEq, Repr

/-- The data data sets of the next slot as they would close now; none where they may not close (R225, R226). The last of a
group or of a wrap keeps room for the in-line segment; at the wrap's end, and for a FLUSH or the session's end, what is ready is
enough. -/
def Dev.wouldClose (d : Dev) (s : Session) (rest : List Click) : Option Closing :=
  let mems := List.range s.place.width
  let lasts := roundFill (d.fillLast s) mems rest
  let plains := roundFill d.fillPlain mems rest
  let given := fun (fs : List Filling) => fs.flatMap Filling.given
  let dry := fun (fs : List Filling) => fs.any Filling.dry
  if d.wantsShort then
    let covered := d.strm.clicks.all fun c => !d.needs c || c.at_ == .placed
      || (given lasts).any fun g => g.click.id == c.id && g.from_ + g.len == g.click.coded.length
    if covered || s.index = 59 || s.wrapEnd then some ⟨lasts, true, covered⟩
    else if (given plains).isEmpty then none
    else some ⟨plains, false, false⟩
  else if s.wrapEnd then (if s.index = 0 && (given lasts).isEmpty then none else some ⟨lasts, true, false⟩)
  else if s.index = 59 then (if dry lasts then none else some ⟨lasts, true, false⟩)
  else if dry plains then none else some ⟨plains, false, false⟩

/-- The piece entry of a piece at an offset (R50). -/
def Given.entry (g : Given) (off : Nat) : PieceEntry :=
  ⟨off, g.from_ == 0, g.from_ + g.len == g.click.coded.length, g.click.raw, !g.click.ends.isEmpty, g.len, g.click.stream,
    g.click.record.toNat⟩

/-- Piece entries of pieces packed end to end. -/
def packEntries : Nat → List Given → List PieceEntry
  | _, [] => []
  | off, g :: gs => g.entry off :: packEntries (off + g.len) gs

/-- Piece entries of the clicks of a segment. -/
def segmentPieces (commit : Word) : Nat → List (List Byte) → List PieceEntry
  | _, [] => []
  | off, c :: cs => ⟨off, true, true, true, cs.isEmpty, c.length, 0xFFFF, commit.toNat⟩ :: segmentPieces commit (off + c.length) cs

/-- A click takes note of a piece placed in a data set of a member, where a split click goes on (R228). -/
def Click.place (c : Click) (mem ds entry off : Nat) (g : Given) : Click :=
  let done := g.from_ + g.len == c.coded.length
  { c with
    sent := g.from_ + g.len
    at_ := if done then .placed else c.at_
    pieces := c.pieces ++ [⟨ds, entry, off, g.len, g.from_ == 0, done⟩]
    member := mem }

/-- Where the first click of a context's chain lies, once it is placed (R217). -/
def Dev.noteChain (d : Dev) (s : Session) (entry : Nat) (g : Given) : Dev :=
  if g.click.reset && g.from_ == 0 then
    { d with strm := { d.strm with ctxs := d.strm.ctxs.map fun x =>
      if x.id == g.click.ctx && x.chain == g.click.chain then { x with chainAt := some (s.place.wrap, 0, s.dsSeq, entry) } else x } }
  else d

/-- A data set's buffer goes back: its named owners release it, verify and the write channel, or the Last for one not yet marked or
a member's (R182, R346). -/
def Dev.freeDset (d : Dev) (x : DSet) : Dev :=
  if x.handle = noHandle then d
  else
    let d := [ownVerify, ownWrite, ownLast, ownC3].foldl (fun (d : Dev) o => d.release x.handle o) d
    d.modDset x.id fun y => { y with handle := noHandle }

/-- Clicks of a superseded data set have all been placed again: the write channel, or the Last, gives its buffer
back (R16, R182). -/
def Dev.freeSuperseded (d : Dev) : Dev :=
  let gone := d.plc.dsets.filter fun x => x.superseded && x.handle != noHandle && !(d.strm.clicks.any fun c =>
    (c.source.map Prod.fst) == some x.id && c.at_ != .placed)
  gone.foldl (fun d x => d.freeDset x) d

/-- Close a data data set of a member (R15 step 2, R225 to R227, R237): its pieces, its in-line segment where the group
closes, manifest and payload. The C3 accumulator takes the buffer; in width cascade, a member's payload is sent to it and
the Last keeps the buffer (R454). -/
def Dev.closeData (d : Dev) (s : Session) (mem : Nat) (gs : List Given) (last sessionEnd flushEnd : Bool) : Dev :=
  let (h, d) := match d.plc.staged with
    | h :: hs => (some h, d.modPlc fun p => { p with staged := hs })
    | [] => d.allocate 1 ownLast ownWrite
  match h with
  | none => (d.beginHold 2).gapSlot s
  | some h =>
    let ids := gs.map fun (g : Given) => g.click.id
    let base := d.newDset s 1 mem s.group s.index 0 h
    let x : DSet := { base with flushEnd := flushEnd, clicks := ids, last := last }
    let runs := runsWith mem gs d.plc.runs
    let chains := d.plc.chains ++ newChains mem s.index gs
    let repl := d.plc.replacing ++ newReplaced mem s.place.wrap s.index gs
    let es := packEntries 0 gs
    let used := (gs.map Given.len).sum
    let data := gs.flatMap fun g => (g.click.coded.drop g.from_).take g.len
    let d := d.modPlc fun p => { p with runs := runs, chains := chains, replacing := repl }
    let commit := d.plc.index.commit + 1
    let g := s.groupEntry mem (s.index + 1) s.place.slot sessionEnd runs chains repl
    let sess := s.entry (b2n sessionEnd) (if sessionEnd then s.place.slot else 0) commit
    let entries := d.segmentEntries s g sess
    let head : CommitHead := ⟨commit.toNat, 2, 0, 1, d.plc.index.genCeil, s.generation, d.glb.bootCount, deviceRef⟩
    let segment := head.bytes entries.flatten
    let segs := if last then segmentClicks segment 0 true (segmentChunks (segment.length + 1) segment.length) else []
    let es := es ++ segmentPieces commit used segs
    let area := data ++ segs.flatten
    let payload := manifestBytes area.length s.generation s.dsSeq.toNat d.glb.bootCount deviceRef es ++ area
    let d := d.putDdr (d.bufAddr h) (fitTo 1966080 payload)
    let x := { x with segment := if last then some commit else none }
    let d := d.addDset x
    let d := (gs.zip es).zipIdx.foldl (fun d y =>
      (d.modClick y.1.1.click.id fun c => c.place mem x.id y.2 y.1.2.off y.1.1).noteChain s y.2 y.1.1) d
    let whole := (gs.filter fun g => g.from_ + g.len == g.click.coded.length).length
    let d := d.bumpBy C.plcClicks (whole + segs.length)
    let again := (gs.filter fun g => !g.click.redo.isEmpty && g.from_ == 0).length
    let d := d.bumpBy C.plcReplaced again
    let aff := match gs.getLast? with | some g => g.click.affinity | none => 0
    let d := d.modPlc fun p => { p with lastAffinity := aff }
    let d := if last then
        let old := d.plc.noC3.filter fun e => e.member == mem
        let c : Commit := ⟨commit, x.id, false, false, old ++ [g], d.plc.changed.filterMap d.streamEntry?, sess⟩
        (d.modPlc fun p => { p with
          index := { p.index with commit := commit }, commits := p.commits ++ [c], noC3 := p.noC3.filter (fun e => e.member != mem), changed := []
          runs := p.runs.filter fun r => r.1 != mem, chains := p.chains.filter fun c => c.1 != mem
          replacing := p.replacing.filter fun r => r.1 != mem }).bump C.plcCommit
      else d
    let d := if mem = 0 then (d.share h ownC3).2
      else
        let y : SentSet := ⟨x.band, x.width, x.lane, x.wrap, x.first, x.group, x.index, x.generation, x.dsSeq, x.flushEnd, x.last⟩
        d.sendPayload mem x.first (.dataSet y (fitTo 1966080 payload))
    (d.freeSuperseded).trimStage

/-- What a data data set does to the session: its number, its place in the group, a group that closes (R226, R251). In a width cascade
the heel's GROUPS and DATA_SETS count one for a slot, those of one track group (DESIGN CHOICE, log 47: R55 does not say whose). -/
def Session.afterData (s : Session) (last sessionEnd : Bool) (commit : Word) : Session :=
  let s := { s with dsSeq := s.dsSeq + 1, dataSets := s.dataSets + 1
                    groupFirst := if s.index = 0 then s.place.slot else s.groupFirst }
  if last then { s with index := 60, count := s.index + 1, groups := s.groups + 1, lastGroup := some s.group
                        closing := s.closing || sessionEnd, endCommit := if sessionEnd then commit else s.endCommit }
  else { s with index := s.index + 1 }

/-- Commits that wait to be merged (R238). -/
def Dev.unmerged (d : Dev) : Nat := (d.plc.commits.filter fun c => !c.merged).length

/-- Whether the close of the groups of a slot, one for each member of the wrap, would leave more than COMMIT_LAG commits unmerged (R238).
Where the wrap alone is wider than that, it waits until none is (DESIGN CHOICE, log 50). -/
def Dev.lagReached (d : Dev) (s : Session) : Bool :=
  decide (d.get F.plcCfgCommitLag < d.unmerged + s.place.width) && d.unmerged != 0

/-- Close the data sets of the next slot, one for each member of the wrap (R228), or begin a hold. A group close that
would leave more than COMMIT_LAG commits unmerged is held for the cobbler (R18, R238), one without four free P2 buffers is
held too (R350). -/
def Dev.closeRound (d : Dev) (s : Session) : Dev :=
  let s0 := { s with groupFirst := if s.index = 0 then s.place.slot else s.groupFirst }
  match d.wouldClose s0 d.unplaced with
  | none => (d.beginHold 0).gapSlot s
  | some c =>
    let last := c.last
    if last && d.lagReached s then (d.beginHold 1).gapSlot s
    else if last && (d.takeParity 4).isNone then (d.beginHold 2).gapSlot s
    else if d.plc.staged.length + d.poolFree 1 < s.place.width then ((d.allocate 1 ownLast ownWrite).2.beginHold 2).gapSlot s
    else if d.plc.staged.isEmpty && (d.allocate 1 ownLast ownWrite).1.isNone then
      ((d.allocate 1 ownLast ownWrite).2.beginHold 2).gapSlot s
    else
      let ends := last && c.covered && s.ending
      let short := d.wantsShort
      let d := if last then (d.takeParity 4).getD d else d
      let d := c.fills.zipIdx.foldl (fun d f => d.closeData s0 f.2 f.1.given last ends (short && (f.1.dry || (c.covered && !f.1.full)))) d
      let commit := d.plc.index.commit
      let d := d.useSlot s0
      let d := d.modSession fun t => { (s0.afterData last ends commit) with place := t.place, lastUsed := t.lastUsed }
      let d := if last then (d.bumpBy C.plcReserve ((60 - (s.index + 1)) * s.place.width)).modPlc fun p => { p with
          groupNext := (s.place.wrap, s.group + 1) :: p.groupNext.filter fun x => x.1 != s.place.wrap } else d
      d.checkCapacity

end Sys2Proof.Machine
end

