-- ==== Sys2Proof/Machine/Tape.lean ====
section
/-!
DEFINITION. What the Last asks of the transport (R391 to R393), the write gate (R104), and how appending starts again
after a hold, a turn or a loss of position (R231, R233).
-/
namespace Sys2Proof.Machine

/-! ## The profile generator's target and state -/

/-- 0.05 m/s in the unit of `Tce.v`. -/
def speedStep : Int := 50000000000

/-- V_CMD in steps of 0.05 m/s, rounded toward zero. -/
def Dev.speedNow (d : Dev) : Nat := d.tce.v.natAbs / speedStep.natAbs

/-- The write limits apply while the write gate is open or a data-set start is armed (R392). -/
def Dev.writeLimits (d : Dev) : Bool := d.flag F.posStatusWriteGate || d.pos.entries.any Entry.isStart

/-- WRITE_OK (R392): at least 1.00 m/s, the acceleration within the write limits, no reaction. -/
def Dev.writeOk (d : Dev) : Bool :=
  decide (1000000000000 ≤ d.tce.v.natAbs) && decide (d.tce.a.natAbs ≤ min (d.get F.tcePgLimAmax * 100000) 2000000)
    && d.tce.reaction == 0 && !d.tce.stopping && !d.flag F.mdrStatusBrake

/-- Whether a position target runs (R393). -/
def PgTarget.isPlace (t : PgTarget) : Bool := match t with | .place .. => true | .stop | .speed _ => false

/-- The Last gives a target (R391, R393): held while its position target runs, ignored while a reaction runs. -/
def Dev.giveTarget (d : Dev) (t : PgTarget) : Dev :=
  if d.tce.reaction != 0 then d
  else if d.tce.target.isPlace then { d with tce := { d.tce with held := some t } }
  else ({ d with tce := { d.tce with target := t, replanned := true } }).bump C.tcePgTarget

/-- Clamp a target speed in 0.05 m/s to V_MIN and V_MAX (R229). -/
def Dev.clampSpeed (d : Dev) (v : Nat) : Nat := clampNat (d.get F.plcSpeedCfgVMin) (d.get F.plcSpeedCfgVMax) v

/-! ## Speed matching (R229, R232) -/

/-- Bytes of the last WINDOW ms. -/
def Dev.windowBytes (d : Dev) (log : List (Nat × Nat)) : Nat :=
  ((log.filter fun x => decide (d.since x.1 ≤ 1000000 * d.get F.plcSpeedCfgWindow)).map Prod.snd).sum

/-- B in read mode (R232): P3 buffers whose content the host has not yet: data sets read, decompressed output, and DATA_IN not
acknowledged. -/
def Dev.readBacklog (d : Dev) : Nat :=
  (d.ecc.decodes.filter fun x => !x.verify).length + (d.strm.reads.map fun r => r.out.length).sum
    + (d.hpt.conns.flatMap fun k => (k.msgs.filter fun m => m.typ == typDataIn).flatMap Msg.bufs).length

/-- Whether an engine compresses a click. -/
def Dev.coding (d : Dev) : Bool :=
  d.strm.engines.any fun g => match g.job with | .code _ => true | .none | .decode .. => false

/-- The bytes that R_in counts over the window: click bytes that left the engines, those of jobs that still run among them (`running`), or
in read mode the record bytes that the host took, over the mean compression ratio of the clicks read so far (R229, R232). -/
def Dev.rateBytes (d : Dev) (running : Nat) : Nat :=
  if d.readMode then
    let n := d.windowBytes d.plc.taken
    if d.plc.readOut = 0 then n else n * d.plc.readIn / d.plc.readOut
  else d.windowBytes d.plc.coded + (if d.coding then running else 0)

/-- The speed of R229 in 0.05 m/s: the least at which 1.536 v covers R_in, 0.25 m/s up or down by the backlog, clamped. -/
def Dev.matchedSpeed (d : Dev) (running : Nat) : Nat :=
  let w := 76800 * max 1 (d.get F.plcSpeedCfgWindow)
  let v := (d.rateBytes running + w - 1) / w
  let b := if d.readMode then d.readBacklog else d.backlog
  d.clampSpeed (if d.get F.plcSpeedCfgBlHi < b then v + 5 else if b < d.get F.plcSpeedCfgBlLo then v - 5 else v)

/-! ## The device state and the tape -/

/-- Whether a dispatched command needs the tape: a read or locate that has begun, LOAD, UNLOAD, or an open session that is
not at rest in a hold. -/
def Dev.needsTape (d : Dev) : Bool :=
  (d.cqm.cmds.any fun c => c.phase == .started && [opRead, opLocate, opLoad, opUnload].contains c.opcode)
    || (d.plc.session.isSome && !d.plc.holdDone)

/-- Streaming ends when the tape stands and no dispatched command needs it (R22). -/
def Dev.standStill (d : Dev) : Dev :=
  if d.glb.dev == .streaming && d.tce.v == 0 && !d.needsTape then
    let d := d.goState .loaded
    if d.casMode = 1 then d.tellMembers (.streaming false) else d
  else d

/-! ## The write gate (R104) -/

/-- The write gate opens. -/
def Dev.openGate (d : Dev) : Dev :=
  if d.flag F.posStatusWriteGate then d else (d.set F.posStatusWriteGate 1).emit (.gate true d.tpos)

/-- The write gate closes. -/
def Dev.closeGate (d : Dev) : Dev :=
  if d.flag F.posStatusWriteGate then (d.set F.posStatusWriteGate 0).emit (.gate false d.tpos) else d

/-- Whether a start is armed for a slot. -/
def Dev.startArmed (d : Dev) (g : Nat) : Bool := d.pos.entries.any fun e => e.owner == .dsStart g

/-- The slot whose start is the next ahead of TPOS in the direction of writing. -/
def Dev.slotAhead (d : Dev) (rev : Bool) : Nat :=
  if rev then (d.tpos / 76800 - 1).toNat else (d.tpos / 76800 + 1).toNat

/-- TPOS moves on to a place: the gate closes after the last channel bit of a slot that no written slot follows (R104). -/
def Dev.reach (d : Dev) (p : Int) : Dev :=
  let rev := d.reverse
  let g := d.slotAhead rev
  let at_ := slotStart rev g
  let past := if rev then decide (p < at_) else decide (at_ < p)
  (if d.flag F.posStatusWriteGate && past && !d.startArmed g && d.pos.regapFrom.isNone then (d.setTpos at_).closeGate else d).setTpos p

/-- Whether TPOS can come to a place: no data-set start, verify window or snapshot is to fire before it (R78). -/
def Dev.clearTo (d : Dev) (p : Int) : Bool :=
  let far := if d.reverse then d.tpos - p else p - d.tpos
  d.pos.entries.all fun e => !((e.isStart || e.isWindow || e.isSnapshot) && e.reverse == d.reverse && decide (0 ≤ d.aheadOf e)
    && decide (d.aheadOf e < far))

/-- TPOS moves on to a place where an event of R15 falls, if it has not come so far (log 7). -/
def Dev.reachAhead (d : Dev) (p : Int) : Dev :=
  if (if d.reverse then decide (p < d.tpos) else decide (d.tpos < p)) then d.reach p else d

/-- The place a number of eyelets before the start of a slot (R15). -/
def placeBefore (rev : Bool) (g n : Nat) : Int := slotStart rev g + (if rev then 512 * (n : Int) else -(512 * (n : Int)))

/-! ## Position states -/

/-- The code of a position state (R73). -/
def PosMode.code : PosMode → Nat
  | .unset => 0 | .count => 1 | .acquire => 2 | .locked => 3 | .uncertain => 4

/-- Change the position state; MODE and UNCERTAIN show it (R73, R87). -/
def Dev.goMode (d : Dev) (m : PosMode) : Dev :=
  (({ d with pos := { d.pos with mode := m } }).set F.posStatusMode m.code).set F.posStatusUncertain (b2n (m == PosMode.uncertain))

/-- POS with no run of marks and no uncertainty: locked afresh. -/
def Pos.fresh (p : Pos) : Pos :=
  { p with runLower := 0, runUpper := 0, sinceFly := 8, uncertainFor := 0, relock := none, lastDiff := none, lastWord := none
           wrongDir := 0, phase := none, words := (0, 0) }

/-- The channel-clock frequency of a speed in 10^-12 m/s, unit 2^-16 MHz (R70). -/
def freqOf (v : Int) : Nat := v.natAbs * 4194304 / 1000000000000

/-- The channel clock that an eyelet interval in ns shows (R70). -/
def Pos.counted (p : Pos) (i : Nat) : Pos := { p with interval := i, freq := 8000 * 4194304 / i, integ := 256 * (8000 * 4194304 / i : Nat) }

/-- The channel clock and the eyelet interval of a tape speed in 10^-12 m/s (R70, R71). -/
def Pos.clocked (p : Pos) (v : Int) : Pos :=
  { p with freq := freqOf v, integ := 256 * (freqOf v : Int), interval := 8000000000000000 / v.natAbs }

/-- Why no tape motion may start, as the detail of TRANSPORT_FAULT: an inactive interlock (R555), or a gate driver left off
after a second fault, for which the spec states no kind (R432; log 28). -/
def Dev.motionBar (d : Dev) : Option (List Byte) :=
  if d.glb.interlock != 0 then some (leBytes 1 0xFF ++ leBytes 1 16)
  else if !d.mdr.gdDead.isEmpty then some (leBytes 1 0xFF ++ [Config.driverKind])
  else none

/-- Whether the Last may set the tape in motion: nothing bars it, no reaction and no Brake runs. -/
def Dev.mayMove (d : Dev) : Bool := d.motionBar.isNone && d.tce.reaction == 0 && !d.tce.stopping && !d.flag F.mdrStatusBrake

/-- The tape runs in a direction at a speed (in 0.05 m/s) with position locked and TPOS as given: the end of a locate
and start that the Last commands (R231, R233; log 23). -/
def Dev.runAt (d : Dev) (rev : Bool) (speed : Nat) (tpos : Int) : Dev :=
  let v : Int := if rev then -(speed * speedStep) else speed * speedStep
  let d := { d with tce := { d.tce with v := v, a := 0, target := .speed (if rev then -(speed : Int) else speed), held := none, replanned := true } }
  let d := { d.closeGate with pos := d.pos.fresh.clocked v }
  (((d.goMode .locked).set F.posStatusDir (b2n rev)).setTpos tpos).bump C.tcePgTarget

/-- The tape stands at an eyelet, position in the count state: the end of a locate (R318, R393; log 23). -/
def Dev.standAt (d : Dev) (eyelet : Int) : Dev :=
  let d := { d with tce := { d.tce with v := 0, a := 0, target := .stop, held := none, replanned := true } }
  let d := { d.closeGate.dropEntries Entry.isLocate with pos := { (d.dropEntries Entry.isLocate).pos.fresh with interval := 0 } }
  ((d.goMode .count).setTpos (512 * eyelet)).bump C.tcePgTarget

/-- The active servo band follows the data band (R31): its change takes POS through the unset state (R74). -/
def Dev.toBand (d : Dev) (b : Nat) : Dev :=
  if d.pos.dataBand = b then d else { (d.goMode .unset) with pos := { (d.goMode .unset).pos.fresh with dataBand := b } }

/-- A locate begins (R78, R393): a position target, and an entry for it, which may be refused (R79). -/
def Dev.toPlace (d : Dev) (e v : Int) : Dev :=
  let d := d.giveTarget (.place e v 0)
  match d.arm ⟨512 * e, decide (e < d.eyelet), .locate⟩ with
  | some d => d
  | none => d.bump C.posLate

/-! ## Slots of the session -/

/-- The slot after the last one of the wrap that holds a data set other than a gap (R231); before any, the session's or the
wrap's first. -/
def Session.resumeSlot (s : Session) : Nat :=
  let rev := wrapReverse s.place.wrap
  match s.lastUsed with
  | some g => slotAfter rev g 1
  | none => if s.place.wrap = s.firstWrap then s.startSlot else if rev then 936719 else 3600

/-- Whether a copy has been begun. -/
def Copy.begun (k : Copy) : Bool := match k.step with | .closed | .folded | .marked => false | _ => true

/-- Cancel the armed data-set starts whose slots have not begun; their data sets will be placed again, in order, with
their COPY unchanged; one whose words the FIFOs hold from their mark keeps them (R84, R388). -/
def Dev.cancelStarts (d : Dev) : Dev :=
  match d.plc.session with
  | none => d.dropEntries Entry.isStart
  | some s =>
    let rev := wrapReverse s.place.wrap
    let slots := d.pos.entries.filterMap fun (e : Entry) => match e.owner with | .dsStart g => some g | _ => none
    let mine := fun (x : DSet) => x.member == d.self && !d.plc.again.contains x.id && match x.last? with
      | some k => slots.contains k.slot && (k.step == .closed || k.step == .folded || k.step == .marked)
      | none => false
    let gone := d.plc.dsets.filter mine
    let at_ := fun (x : DSet) => ((x.last?).map Copy.slot).getD 0
    let sorted := gone.foldr (fun (x : DSet) (acc : List DSet) =>
      (acc.filter fun y => decide (slotsFrom rev (at_ x) (at_ y) < 0)) ++ [x]
        ++ acc.filter fun y => decide (0 ≤ slotsFrom rev (at_ x) (at_ y))) []
    (d.modPlc fun p => { p with again := p.again ++ sorted.map DSet.id }).dropEntries Entry.isStart

/-- Appending starts again (R231): the Last has located back and the tape runs, locked, at a speed chosen under R229, 300 eyelets before
the slot that the next data set takes. -/
def Dev.restart (d : Dev) (s : Session) : Dev :=
  let rev := wrapReverse s.place.wrap
  let g := s.resumeSlot
  let speed := d.matchedSpeed 0
  let ahead : Int := if rev then 512 * 300 else -(512 * 300)
  let d := d.modSession fun s => { s with place := { s.place with slot := g } }
  let d := d.modPlc fun p => { p with hold := false, holdDone := false, holdCause := 0 }
  let d := d.toBand s.place.band
  let d := { d with pos := { d.pos with regapFrom := none }, tce := { d.tce with lane := s.place.lane } }
  ((d.runAt rev speed (slotStart rev g + ahead)).set F.plcStatusSpeedTgt speed).streaming

end Sys2Proof.Machine
end

