-- ==== Sys2Proof/Machine/Stop.lean ====
section
/-!
DEFINITION. Durability and waiting FLUSH commands (R314, R315), data sets that leave the device's buffers (R16, R182),
superseded data sets (R180, R233), the end of a session (R181, R222) and appending stopped (R325).
-/
namespace Sys2Proof.Machine

/-! ## Durability (R315, R238) -/

/-- Whether a group is recorded in the insole (R238): merged, and no commit that names it waits. -/
def Dev.groupRecorded (d : Dev) (x : DSet) : Bool :=
  let is := fun (g : GroupEntry) => g.wrap == x.wrap && g.member == x.member && g.group == x.group && g.generation == x.generation
  d.plc.index.groups.any is && !(d.plc.commits.any fun c => c.group.any is)

/-- Whether a group closed without C3 (R155). -/
def Dev.groupNoC3 (d : Dev) (x : DSet) : Bool :=
  d.plc.index.groups.any fun g => g.wrap == x.wrap && g.member == x.member && g.group == x.group && g.generation == x.generation && g.noC3

/-- The four parity data sets of a group have passed verify, or been superseded, or the group has none (R155, R180). -/
def Dev.parityDone (d : Dev) (x : DSet) : Bool :=
  d.groupNoC3 x ||
    4 ≤ (d.plc.dsets.filter fun y => y.typ == 2 && y.wrap == x.wrap && y.member == x.member && y.group == x.group
      && y.generation == x.generation && (y.passed || y.superseded)).length

/-- Whether a click is safe on tape (R315): every piece lies in a data set that passed, its group's parity passed and
recorded. -/
def Dev.durable (d : Dev) (c : Click) : Bool :=
  c.at_ == .placed && c.pieces.all fun p => match d.dset? p.ds with
    | some x => x.passed && d.parityDone x && d.groupRecorded x
    | none => true

/-- Whether a data set may be forgotten: its buffer is back, its group is settled and recorded or it carries none, and no
click names it. -/
def Dev.forgettable (d : Dev) (x : DSet) : Bool :=
  (x.passed || x.superseded) && x.handle == noHandle
    && !(d.strm.clicks.any fun c => c.pieces.any fun p => p.ds == x.id)
    && match x.typ with
      | 1 => d.follows || d.parityDone x && d.groupRecorded x
      | 2 => !(d.plc.dsets.any fun y => y.typ == 1 && y.wrap == x.wrap && y.group == x.group && y.generation == x.generation
          && y.member == x.member)
      | _ => match d.plc.session with | some s => s.heel != some x.id | none => true

/-- Clicks that are safe leave the device; waiting FLUSH commands take note of the commit (R315). Data sets no longer
needed are forgotten. -/
def Dev.retire (d : Dev) : Dev :=
  let done := (d.strm.clicks.filter fun c => d.durable c).map Click.id
  let rec_ := d.plc.recorded
  let note := fun (w : Wait) => if w.clicks.any done.contains then
    { w with clicks := w.clicks.filter fun i => !done.contains i, commit := rec_ } else w
  let clicks := d.strm.clicks.filter fun c => !done.contains c.id
  let d := { d with strm := { d.strm with clicks := clicks }, cqm := { d.cqm with waits := d.cqm.waits.map note } }
  let keep := d.plc.dsets.filter fun x => !d.forgettable x
  let d := d.modPlc fun p => { p with dsets := keep }
  let keep := d.plc.dsets.filter fun x => !d.forgettable x
  d.modPlc fun p => { p with dsets := keep }

/-- Complete the FLUSH commands whose scope is on tape, in handover order (R315, R316). -/
def Dev.settleWaits (d : Dev) : Dev :=
  let busy := fun (h : Nat) => d.cqm.cmds.any fun k => k.h == h && k.phase != .completed
  let over_ := fun (w : Wait) => w.clicks.isEmpty && !w.covers.any busy
  let done := d.cqm.waits.filter over_
  let d := { d with cqm := { d.cqm with waits := d.cqm.waits.filter fun w => !over_ w } }
  done.foldl (fun d w => d.finish w.h stGood (leBytes 6 w.commit.toNat ++ leBytes 2 w.excluded)) d

/-- What follows when data sets pass or commits are recorded. -/
def Dev.settleTape (d : Dev) : Dev := d.retire.settleWaits

/-! ## Data sets that are superseded (R180, R233) -/

/-- The in-line segment of a data set, as clicks to be placed again (R180, R233): entry by entry from its buffer. -/
def Dev.segmentClicksOf (d : Dev) (x : DSet) (commit : Word) : List Click :=
  let bytes := d.ddrBytes (d.bufAddr x.handle) 1966080
  let all := manifestEntries bytes
  let es := all.filter fun e => e.stream == 0xFFFF
  es.zipIdx.map fun e =>
    { id := d.strm.nextClick + e.2, ctx := 0xFFFFFFFF, stream := 0xFFFF, chain := 0, reset := true, record := commit
      recStart := e.2 == 0, spans := [], inLen := 0, ends := if e.1.recEnd then [0] else [], cutFlush := false, urgent := false
      affinity := 0, member := x.member, at_ := .staged, input := [], raw := true
      coded := (bytes.drop (4096 + e.1.off)).take e.1.len, sent := 0, pieces := []
      redo := [x.old], source := some (x.id, all.length - es.length + e.2), remote := none }

/-- The session goes on with data data sets before it can end (R233). -/
def Session.reopen (s : Session) : Session := if s.lost then s else { s with closing := false, heel := none }

/-- A data set is superseded (R180): verify releases it, its clicks and in-line segment are placed again before any other
(R233), and the write channel keeps the buffer until they are. -/
def Dev.supersede (d : Dev) (x : DSet) : Dev :=
  let seg := match x.segment with | some c => d.segmentClicksOf x c | none => []
  let d := (d.modDset x.id fun y => { y with superseded := true }).bump C.vfySuperseded
  let d := d.modPlc fun p => { p with pendingCopies := p.pendingCopies.filter fun i => i != x.id, again := p.again.filter fun i => i != x.id }
  let d := d.release x.handle ownVerify
  let again := fun (c : Click) => match c.pieces.find? fun p => p.ds == x.id with
    | some p => { c with at_ := .staged, sent := 0, pieces := [], redo := c.redo ++ [x.old], source := some (x.id, p.entry) }
    | none => c
  let some_ := d.strm.clicks.any fun c => c.pieces.any fun p => p.ds == x.id
  let clicks := d.strm.clicks.map again ++ seg
  let d := { d with strm := { d.strm with clicks := clicks, nextClick := d.strm.nextClick + seg.length } }
  let d := if some_ || !seg.isEmpty then d.modSession Session.reopen else d
  let d := if d.follows then d.tellMaster (.superseded x.typ x.dsSeq) else d
  if some_ || !seg.isEmpty then d else d.freeDset x

/-! ## The end of a session -/

/-- The last slot in which a heel copy was written (R56). -/
def DSet.lastWritten (x : DSet) : Option Copy :=
  (x.copies.filter fun k => match k.step with | .closed | .folded | .marked => false | _ => true).getLast?

/-- A session ends: nothing more is written, the gate closes at the end of the slot in progress (R104, R181) and the tape stops. The append point is as `next` says (R56, R248); after
the loss of a width member it is in the next wrap, whose dead tracks are judged afresh (R174), and clicks to be placed again begin the
next session (R460; log 38), where a generation is left for it (R57). -/
def Dev.closeSession (d : Dev) (next : Option Nat) : Dev :=
  match d.plc.session with
  | none => d
  | some s =>
    let d := (d.dropEntries Entry.isStart).dropEntries Entry.isWindow
    let heels := d.plc.dsets.filter fun x => x.typ == 3
    let d := (heels.foldl (fun d x => d.freeDset x) d).dropParity
    let lane := if s.lost then s.place.next (max 1 d.cascadeWidth) else { s.place with slot := next.getD s.place.slot }
    let d := d.modPlc fun p => { p with
      session := none, appendAt := lane, hold := false, holdDone := false, holdCause := 0, pendingCopies := [], again := []
      runs := [], chains := [], replacing := [], noC3 := [], dsets := p.dsets.filter fun x => x.typ != 3 }
    let d := ((d.giveTarget .stop).settleTape).standStill
    let d := if s.lost then
        { d with ecc := { d.ecc with deadRuns := [], deadVfy := [] }, tce := { d.tce with weltTrim := 0 } } else d
    if s.lost && d.plc.stopped.isNone && d.strm.clicks.any (fun c => c.at_ != .placed) then
      if 0xFFFFFFFF < d.plc.nextGen then d.modPlc fun p => { p with stopped := some stGenerations, judged := false } else d.beginSession
    else d

/-- Whether every data set of the session is safe: passed, or superseded with its clicks placed again (R181). -/
def Dev.sessionSafe (d : Dev) : Bool :=
  (d.plc.dsets.all fun x => x.typ == 3 || x.passed || x.superseded)
    && ((match d.plc.session with | some s => s.lost | none => false) || !(d.strm.clicks.any fun c => !c.redo.isEmpty && c.at_ != .placed))

/-- Whether some copy that was begun still awaits its verify decision. -/
def Dev.writtenUndecided (d : Dev) : Bool :=
  d.plc.dsets.any fun x => x.copies.any fun k => match k.step with | .written | .read => true | _ => false

/-- Once every data set and a heel copy that follows the last copy of any data set have passed, nothing more is begun (R181); the session
ends when the heel copies written since have been judged too (R168). -/
def Dev.settleSession (d : Dev) : Dev :=
  match d.plc.session with
  | none => d
  | some s =>
    match s.heel.bind d.dset? with
    | none => d
    | some x =>
      let rev := wrapReverse s.place.wrap
      let lastCopy := (d.plc.dsets.filter fun y => y.typ != 3 && y.wrap == s.place.wrap).flatMap fun y => y.copies.map Copy.slot
      let good := x.copies.any fun k => k.step == .passed && lastCopy.all fun g => decide (0 < slotsFrom rev g k.slot)
      let now := s.closing && good && d.sessionSafe && d.plc.pendingCopies.isEmpty && d.plc.again.isEmpty
      let d := if now then (d.dropEntries Entry.isStart).modSession fun s => { s with atEnd := true } else d
      if (now || s.atEnd) && !d.writtenUndecided then d.closeSession ((x.lastWritten).map Copy.slot) else d

/-! ## Appending stops (R325) -/

/-- The status of a command that fails because appending stopped, and its detail (R325). -/
def stopStatus (code : Nat) : Nat × List Byte :=
  if code = stFull ∨ code = stIndexFull ∨ code = stGenerations then (code, []) else (stAppendStopped, leBytes 2 code)

/-- Whether a click lies in data sets that passed verify. -/
def Dev.present_ (d : Dev) (c : Click) : Bool :=
  c.at_ == .placed && c.pieces.all fun p => match d.dset? p.ds with | some x => x.passed | none => true

/-- Writing has been halted: appending stopped and the session is not being ended with a heel. -/
def Dev.halted (d : Dev) : Bool :=
  d.plc.stopped.isSome && match d.plc.session with | some s => !s.ending | none => true

/-- The first record of a stream with bytes in clicks that are not on tape or in its open click. -/
def Dev.firstLost (d : Dev) (stream : Nat) : Option Word :=
  let cut := (d.strm.clicks.filter fun c => c.stream == stream && !d.present_ c).map Click.record
  let open_ := (d.strm.ctxs.filter fun x => x.stream == stream && x.inLen != 0).map Ctx.owner
  ((cut ++ open_).map BitVec.toNat).min?.map fun n => BitVec.ofNat 48 n

/-- Records that completed and are not present are told, their clicks discarded, and waiting FLUSH and UNLOAD commands fail
(R325), once no session is open and no data set awaits a decision. -/
def Dev.judgeStop (d : Dev) : Dev :=
  match d.plc.stopped with
  | none => d
  | some code =>
    if d.plc.judged || d.plc.session.isSome || d.writtenUndecided || (d.plc.commits.any fun c => c.verified && !c.merged) then d
    else
      let streams := ((d.strm.clicks.map Click.stream ++ (d.strm.ctxs.filter fun x => x.inLen != 0).map Ctx.stream).dedup).filter
        fun s => s != 0xFFFF
      let lost := streams.filterMap fun s => match d.firstLost s, d.streamEntry? s with
        | some f, some e => some (e, f)
        | _, _ => none
      let entries := lost.map fun x => leBytes 2 x.1.stream ++ leBytes 2 0 ++ leBytes 6 x.2.toNat ++ leBytes 6 (x.1.nextRec - 1).toNat
      let d := lost.foldl (fun d x => d.noteStream { x.1 with nextRec := x.2 }) d
      let back := fun (x : Ctx) => match lost.find? (fun l => l.1.stream == x.stream) with
        | some l => { x with nextRec := l.2, open_ := [], inLen := 0, ends := [], fresh := true }
        | none => x
      let hs := ((d.strm.clicks.flatMap fun c => if c.uncoded then c.spans.map Span.handle else [])
        ++ d.strm.ctxs.flatMap fun x => x.open_.map Span.handle).dedup
      let d := d.releaseAll hs ownComp
      let idle := fun (g : Engine) => { g with outs := [], job := match g.job with | .code _ => .none | j => j }
      let d := { d with strm := { d.strm with
        clicks := [], ctxs := d.strm.ctxs.map back, engines := d.strm.engines.map idle
        waiting := d.strm.waiting.filter fun j => match j with | .code _ => false | .none | .decode .. => true } }
      let d := d.releaseAll d.plc.staged ownLast
      let sets := d.plc.dsets
      let d := sets.foldl (fun d x => d.freeDset x) d
      let d := d.modPlc fun p => { p with judged := true, staged := [], dsets := [] }
      let d := if entries.isEmpty then d else
        (d.log (eventEntry stAppendStopped (leBytes 2 code))).notice stAppendStopped entries
      let (st, det) := stopStatus code
      let waiting := d.cqm.waits.map Wait.h ++ (d.cqm.cmds.filter fun c => c.opcode == opUnload && c.phase == .started).map Cmd.h
      let d := { d with cqm := { d.cqm with waits := [] } }
      waiting.foldl (fun d h => d.finish h st det) d

/-- Appending stops, and the open session ends as R222 says. -/
def Dev.stopEnding (d : Dev) (code : Nat) : Dev :=
  if d.plc.stopped.isSome then d
  else
    let d := d.modPlc fun p => { p with stopped := some code, judged := false }
    let d := if d.plc.session.isSome then d.cutAll.modSession fun s => { s with ending := true } else d
    d.judgeStop

/-- Appending stops at once: nothing more is written, and the session ends without a heel (R136, R181). -/
def Dev.stopNow (d : Dev) (code : Nat) : Dev :=
  let d := if d.plc.stopped.isSome then d else d.modPlc fun p => { p with stopped := some code, judged := false }
  let d := d.cancelStarts.modSession fun s => { s with ending := false }
  (if d.writtenUndecided then d else d.closeSession none).judgeStop

/-- What follows a verify decision or a recorded commit: commands, the session's end, a stop that waits. -/
def Dev.settleAppend (d : Dev) : Dev :=
  let d := d.settleTape.settleSession
  (if d.halted && d.plc.session.isSome && !d.writtenUndecided then d.closeSession none else d).judgeStop

end Sys2Proof.Machine
end

