-- ==== Sys2Proof/Machine/Append.lean ====
section
/-!
DEFINITION. Which data set goes in the next slot (R223 to R230, R84, R177, R178, R181), and the rows DATA_SET_CLOSE,
SPEED_MATCH, HOLD_END, SESSION_IDLE_TIMEOUT, FLUSH, QUERY_INDEX and INDEX_COMMIT_MERGE.
-/
namespace Sys2Proof.Machine

/-! ## Moving data sets among slots -/

/-- The data set that an armed slot is to receive; none for a gap. -/
def Dev.occupant (d : Dev) (g : Nat) : Option DSet :=
  if !d.startArmed g then none
  else d.plc.dsets.find? fun x => x.member == d.self && !d.plc.again.contains x.id && !d.plc.pendingCopies.contains x.id
    && match x.last? with | some k => k.slot == g && !k.begun | none => false

/-- The latest copy of a data set goes in another slot (R84, R178). A first copy that moves takes its window along. -/
def Dev.moveTo (d : Dev) (id g : Nat) (keepFirst marked : Bool) : Dev :=
  match d.dset? id with
  | none => d
  | some x =>
    let step := fun (k : Copy) => match k.step with
      | .marked => if marked then Step.marked else .folded
      | .folded => if marked then .marked else .folded
      | t => t
    let isFirst := decide (x.copies.length ≤ 1) && !keepFirst
    let d := d.modDset id fun x => { x.modLast fun k => { k with slot := g, step := step k } with first := if isFirst then g else x.first }
    let d := if d.follows && isFirst then d.tellMaster (.displaced x.dsSeq g) else d
    d.modSession fun s => if isFirst && x.typ == 1 && x.index == 0 && s.group == x.group && s.index != 0 then { s with groupFirst := g } else s

/-- Whether the FIFOs hold a data set from their mark. -/
def Dev.filled (d : Dev) (id : Nat) : Bool :=
  ((d.dset? id).bind DSet.last?).any fun k => k.step == .marked

/-- Give a data set another copy (R179), in a slot. -/
def Dev.addCopy (d : Dev) (id g : Nat) (marked : Bool) : Dev :=
  let add := fun (x : DSet) =>
    let n := ((x.last?).map Copy.copy).getD 0 + 1
    { x with copies := x.copies ++ [Copy.at g n (if marked then .marked else .folded)] }
  (d.modDset id add).bump C.vfyRewrite

/-- Put a failed data set in a slot: a new copy, or the copy that was never begun (R179, R233). -/
def Dev.putCopy (d : Dev) (id g : Nat) (marked : Bool) : Dev :=
  match d.dset? id with
  | none => d
  | some x =>
    match x.last? with
    | some k => if k.begun then d.addCopy id g marked else d.moveTo id g true marked
    | none => d

/-- Whether the copy that a slot is to receive is a rewritten copy, which no other displaces. -/
def DSet.isRewrite (x : DSet) : Bool := x.typ != 3 && decide (1 < x.copies.length)

/-- A displaced first copy or heel copy goes in the next slot, and so on (R177, R178). -/
def Dev.shift (d : Dev) : Nat → Nat → Nat → Dev
  | 0, id, _ => d.modPlc fun p => { p with again := p.again ++ [id] }
  | n + 1, id, g =>
    match d.plc.session with
    | none => d
    | some s =>
      let rev := wrapReverse s.place.wrap
      if g = s.place.slot then (d.moveTo id g false false).useSlot s
      else match d.occupant g with
        | none => d.moveTo id g false false
        | some y =>
          if y.isRewrite then d.shift n id (slotAfter rev g 1)
          else
            let m := match y.last? with | some k => k.step == .marked | none => false
            (d.moveTo id g false m).shift n y.id (slotAfter rev g 1)

/-- A copy of a failed data set takes an armed slot (R177): what the slot was to receive moves on, its FIFO rewound to the
mark and refilled. -/
def Dev.takeSlot (d : Dev) (s : Session) (id g : Nat) : Dev :=
  let rev := wrapReverse s.place.wrap
  let old := d.occupant g
  let m := match old with
    | some y => (match y.last? with | some k => k.step == .marked | none => false)
    | none => false
  let d := d.putCopy id g m
  match old with
  | some y => d.shift 64 y.id (slotAfter rev g 1)
  | none => d

/-! ## Pending copies (R177, R178) -/

/-- The slots n + 3 to n + 6 of a data set. -/
def DSet.window (x : DSet) : List Nat := (List.range 4).map fun j => slotAfter (wrapReverse x.wrap) x.first (3 + j)

/-- Whether what the armed slots from `g` on are to receive may move on by a slot: a data data set stays at least 10 slots before the
wrap's last (R224), which here goes before R178 (DESIGN CHOICE, log 50). -/
def Dev.mayShift (d : Dev) (s : Session) (g : Nat) : Bool :=
  let rev := wrapReverse s.place.wrap
  (d.plc.dsets.filter fun x => x.member == d.self && x.typ == 1 && x.wrap == s.place.wrap && !x.isRewrite).all fun x =>
    match x.last? with
    | some k => k.begun || decide (slotsFrom rev g k.slot < 0) || decide (12 ≤ slotsLeft s.place.wrap k.slot)
    | none => true

/-- The earliest armed slot of a data set's window that may take its copy: its start at least 16 eyelets ahead. -/
def Dev.copySlot (d : Dev) (s : Session) (x : DSet) : Option Nat :=
  let rev := wrapReverse s.place.wrap
  let ahead := fun (g : Nat) => if rev then d.tpos - slotStart rev g else slotStart rev g - d.tpos
  x.window.find? fun g => decide (16 * 512 ≤ ahead g) && d.startArmed g && d.mayShift s g
    && match d.occupant g with | some y => !y.isRewrite | none => true

/-- Whether no slot of a data set's window lies ahead of the slots already chosen. -/
def DSet.windowPast (x : DSet) (s : Session) : Bool :=
  x.wrap != s.place.wrap || decide (0 < slotsFrom (wrapReverse x.wrap) (slotAfter (wrapReverse x.wrap) x.first 6) s.place.slot)

/-- Place the pending copies that an armed slot can take, oldest first; supersede data sets whose window has passed. While the
position is uncertain nothing is armed, and they wait (R85). -/
def Dev.placeCopies (d : Dev) : Dev :=
  if d.pos.mode == .uncertain then d
  else d.plc.pendingCopies.foldl (fun d id =>
    match d.plc.session, d.dset? id with
    | some s, some x =>
      match d.copySlot s x with
      | some g => (d.takeSlot s id g).modPlc fun p => { p with pendingCopies := p.pendingCopies.filter fun i => i != id }
      | none => if x.windowPast s then d.supersede x else d
    | _, _ => d) d

/-- Add a failed data set to those that await a copy, oldest first copy first (R178). -/
def Dev.pend (d : Dev) (x : DSet) : Dev :=
  let rev := wrapReverse x.wrap
  let before := fun (i : Nat) => match d.dset? i with | some y => decide (0 ≤ slotsFrom rev y.first x.first) | none => true
  d.modPlc fun p => { p with pendingCopies := (p.pendingCopies.filter before) ++ [x.id] ++ p.pendingCopies.filter fun i => !before i }

/-- A failed data set is copied or superseded (R177, R180). A heel that fails is followed by its next copy (R181). -/
def Dev.failDset (d : Dev) (x : DSet) : Dev := if x.typ == 3 then d else (d.pend x).placeCopies

/-! ## What the next slot receives -/

/-- The pending data set whose window holds the next slot. -/
def Dev.pendingNext (d : Dev) (s : Session) : Option DSet :=
  d.plc.pendingCopies.findSome? fun id => match d.dset? id with
    | some x => if x.wrap == s.place.wrap && x.window.contains s.place.slot then some x else none
    | none => none

/-- A hold that has drained: every written data set has its decision and no copy is pending (R230). The gate closes and the
tape stops. -/
def Dev.endWriting (d : Dev) : Dev :=
  ((((d.dropEntries Entry.isStart).closeGate).modPlc fun p => { p with holdDone := true }).giveTarget .stop).standStill

/-- A slot of a hold (R230): a gap, until every data set closed before has been written and decided. -/
def Dev.holdSlot (d : Dev) (s : Session) : Dev :=
  if d.undecided || !d.plc.pendingCopies.isEmpty || !d.plc.again.isEmpty then d.gapSlot s else d.endWriting

/-- Whether no click is to be placed before the session may end. -/
def Dev.allPlaced (d : Dev) : Bool := d.strm.clicks.all fun c => c.at_ == .placed

/-- The next slot where a data set aborted is placed again: its start at least 8 eyelets after confirmation and 2 eyelets
ahead of TPOS (R84). -/
def Dev.regapSlot (d : Dev) (s : Session) (from_ : Int) : Nat :=
  let rev := wrapReverse s.place.wrap
  let ok := fun (g : Nat) =>
    let e := slotStart rev g / 512
    (if rev then decide (e ≤ from_ - 8) else decide (from_ + 8 ≤ e))
      && decide (1024 ≤ (if rev then d.tpos - slotStart rev g else slotStart rev g - d.tpos))
  ((List.range 64).map fun j => slotAfter rev s.place.slot j).find? ok |>.getD s.place.slot

/-- Whether an open group must take its last data data set in the next slot (R224), which then goes before a pending copy (DESIGN CHOICE,
log 50). -/
def Session.lastChance (s : Session) : Bool :=
  decide (0 < s.index) && decide (s.index < 60) && slotsLeft s.place.wrap s.place.slot == 11

/-- The next slot of the session is chosen and armed (DATA_SET_CLOSE): a pending copy, a data set to be placed again,
parity, a heel copy, a gap, or a new data data set, in this order (R84, R154, R178, R181, R223, R230). While an event waits on the
cobbler no further data set is closed (R18). -/
def Dev.closeSlot (d : Dev) (s : Session) : Dev :=
  match if s.lastChance && d.plc.again.isEmpty && !d.plc.hold && !d.cobblerEvent && !d.follows then none else d.pendingNext s with
  | some x =>
    let d := (d.putCopy x.id s.place.slot false).useSlot s
    d.modPlc fun p => { p with pendingCopies := p.pendingCopies.filter fun i => i != x.id }
  | none =>
    match d.plc.again with
    | id :: rest => ((d.moveTo id s.place.slot false (d.filled id)).modPlc fun p => { p with again := rest }).useSlot s
    | [] =>
      if 0 < s.owedGaps then (d.gapSlot s).modSession fun s => { s with owedGaps := s.owedGaps - 1 }
      else if d.cobblerEvent && !d.plc.hold then (d.beginHold 1).gapSlot s
      else if decide (60 ≤ s.index) && !d.plc.hold then d.placeParity s
      else if d.plc.hold then d.holdSlot s
      else if s.closing && (d.allPlaced || s.lost) then d.placeHeel s
      else if d.follows then d
      else if s.roomForData then d.closeRound s
      else d.gapSlot s

/-- A heel whose copy 15 is written and judged while the session has not ended, ends the session without one (R181). -/
def Dev.heelLost (d : Dev) (s : Session) : Bool :=
  match s.heel.bind d.dset? with
  | some x => decide (16 ≤ x.copies.length) && !(x.copies.any Copy.undecided)
  | none => false

/-- DATA_SET_CLOSE (R15 step 2, R223 to R231), 300 eyelets before the next slot, or later where the tape has come nearer. Nothing is armed while the position is not locked or WRITE_OK is 0 (R85,
R392), after a hold has come to its end, once the heel sequence has ended (R181), or before the generation is reserved (R243). -/
def Dev.dataSetClose (d : Dev) : Dev :=
  let d := d.stageAll
  match d.plc.session with
  | none => d
  | some s =>
    if d.plc.holdDone || d.halted || d.pos.mode != .locked || !d.writeOk || s.atEnd || (!d.follows && s.generation = 0) then d
    else if d.heelLost s then (d.event 0x0302).stopNow 0x0302
    else
      let d := match d.pos.regapFrom with
        | some e =>
          let g := d.regapSlot s e
          d.modSession fun s => { s with place := { s.place with slot := g } }
        | none => d
      let d := d.placeCopies
      match d.plc.session with
      | none => d
      | some s =>
        if slotsLeft s.place.wrap s.place.slot ≤ 0 then
          if s.heel.isSome && !d.writtenUndecided then (d.event 0x0302).stopNow 0x0302 else d
        else
          let p := placeBefore (wrapReverse s.place.wrap) s.place.slot 300
          if !d.clearTo p then d else
          let d := (d.reachAhead p).closeSlot s
          if d.plc.session.isSome && d.plc.stopped.isNone && d.remainDs = 0 then d.stopEnding stFull else d

/-! ## Speed and holds -/

/-- SPEED_MATCH (R229, R232): every 16 slots written, or read in read mode, the Last computes a speed and commands it where it differs by
0.10 m/s or more from the target, or is a clamp limit that the target is not. -/
def Dev.speedMatch (d : Dev) (running : Nat) : Dev :=
  if d.plc.sinceSpeed < 16 || d.plc.holdDone || (!d.readMode && d.plc.session.isNone) then d
  else
    let v := d.matchedSpeed running
    let now := d.get F.plcStatusSpeedTgt
    let limit := v == d.get F.plcSpeedCfgVMin || v == d.get F.plcSpeedCfgVMax
    let d := d.modPlc fun p => { p with sinceSpeed := 0 }
    if 2 ≤ max v now - min v now || (limit && v != now) then
      let t : PgTarget := .speed (if d.reverse then -(v : Int) else v)
      ((d.set F.plcStatusSpeedTgt v).bump C.plcSpeed).giveTarget t
    else d

/-- Whether a hold may end (R231): enough backlog, clicks that a FLUSH or the session's end needs, data sets to be placed
again, or the cobbler having served the event; after a loss of position or an Observer reaction, at once (R233, R389). -/
def Dev.mayResume (d : Dev) : Bool :=
  d.plc.holdCause == 3 || decide (d.get F.plcCfgResumeDs ≤ d.backlog) || d.wantsShort || !d.plc.pendingCopies.isEmpty || !d.plc.again.isEmpty
    || (match d.plc.session with | some s => s.closing || decide (60 ≤ s.index) | none => false)
    || (d.plc.holdCause == 1 && (match d.plc.session with | some s => !d.lagReached s | none => false))

/-- HOLD_END (R231). -/
def Dev.holdEnd (d : Dev) : Dev :=
  let d := d.stageAll
  match d.plc.session with
  | none => d
  | some s => if d.plc.hold && d.plc.holdDone && !d.halted && !d.cobblerEvent && d.mayMove && d.plc.holdCause != 4 && d.mayResume then d.restart s else d

/-- SESSION_IDLE_TIMEOUT (R222): with no write queued and every accepted write flushed, the session ends. -/
def Dev.sessionIdle (d : Dev) : Dev :=
  let writes := d.cqm.cmds.any fun c => c.opcode == opWrite && (c.phase == .queued || c.phase == .dispatched)
  if d.get F.plcCfgSessionIdle = 0 || d.plc.session.isNone || writes || !d.strm.clicks.isEmpty
      || d.strm.ctxs.any fun x => x.inLen != 0 then d
  else d.cutAll.modSession fun s => { s with ending := true }

/-! ## FLUSH (R315, R316) and QUERY_INDEX -/

/-- FLUSH: cuts, then waits for its scope. -/
def Dev.flush (d : Dev) (h : Nat) : Dev :=
  match d.ready? h opFlush with
  | none => d
  | some c =>
    if c.phase != .dispatched then d
    else if !d.cart.loaded then d.finish h stNotLoaded []
    else
      let mine := fun (k : Cmd) => decide (k.h < h) && (if c.all then isDataOp k.opcode else k.oneStream && k.stream == c.stream)
      let scope := d.cqm.cmds.filter mine
      if c.all && (scope.any fun k => k.oneStream && k.phase == .dispatched) then d
      else
        let d := if c.all then d.cutAll else match d.ctx? c.stream with | some x => d.cut x.id true | none => d
        let covers := (scope.filter Cmd.inWork).map Cmd.h
        let out := (scope.filter fun k => k.phase == .queued).length
        let inScope := fun (k : Click) => c.all || k.stream == c.stream
        let clicks := (d.strm.clicks.filter inScope).map Click.id
        let w : Wait := ⟨h, covers, clicks, out, d.plc.recorded⟩
        let d := d.modCmd h fun c => { c with phase := .started }
        ({ d with cqm := { d.cqm with waits := d.cqm.waits ++ [w] } }).settleAppend

/-- The BOOT entries of the index from a boot count on, each device's IDENTITY entry before its first (R515). -/
def Dev.bootEntries (d : Dev) (first : Nat) : List (List Byte) :=
  let count := fun (e : RawEntry) => fieldAt e.body 12 4
  let ref := fun (e : RawEntry) => (e.body.drop 44).take 8
  let boots := d.plc.index.raw.filter fun e => e.typ == 5 && decide (first ≤ count e)
  let key := fun (e : RawEntry) => count e * 65536 + fieldAt e.body 10 2
  let sorted := boots.foldl (fun acc e => (acc.filter fun x => decide (key x ≤ key e)) ++ [e] ++ acc.filter fun x => decide (key e < key x)) []
  let ids := d.plc.index.raw.filter fun e => e.typ == 9
  (sorted.foldl (fun (acc : List (List Byte) × List (List Byte)) e =>
    let r := ref e
    let id := if acc.2.contains r then [] else (ids.filter fun i => (i.body.drop 12).take 8 == r).map RawEntry.bytes
    (acc.1 ++ id ++ [e.bytes], r :: acc.2)) ([], [])).1

/-- The entries that a QUERY_INDEX returns (R299, R515). -/
def Dev.queryEntries (d : Dev) (kind stream first : Nat) : List (List Byte) :=
  match kind with
  | 0 => (d.plc.index.streams.filter fun e => decide (first ≤ e.stream)).map StreamEntry.bytes
  | 1 => (d.plc.index.groups.filter fun g => g.runs.any fun r => r.stream == stream && decide (first ≤ r.last.toNat)).flatMap
      fun g => g.parts (g.runs.length + 1) g.runs
  | 2 => (d.plc.index.sessions.filter fun e => decide (first ≤ e.generation)).map SessEntry.bytes
  | _ => d.bootEntries first

/-- QUERY_INDEX (R299, R301). -/
def Dev.queryIndex (d : Dev) (h : Nat) : Dev :=
  match d.ready? h opQuery with
  | none => d
  | some c =>
    if !d.cart.loaded then d.finish h stNotLoaded []
    else
      let all := d.queryEntries (c.par 16 1) c.stream (c.par 18 6)
      let es := all.take (c.par 24 2)
      d.answerData c es.flatten (leBytes 4 es.length ++ leBytes 1 (b2n (decide (es.length < all.length))))

/-! ## Merging commits (R238) -/

/-- INDEX_COMMIT_MERGE (R18, R238): the cobbler merges the oldest commit whose data set has passed; the commit is then
recorded. An index that exceeds 90 % of a zone half ends the session (R245). -/
def Dev.mergeCommit (d : Dev) : Dev :=
  if d.flag F.glbCobblerRestarting then d
  else match d.plc.commits.find? fun c => c.verified && !c.merged with
    | none => d
    | some c =>
      let es := c.group.flatMap GroupEntry.entries ++ c.streams.map StreamEntry.bytes ++ [c.session.bytes]
      let tagged := es.map fun e => (fieldAt e 0 2, e)
      let ix := d.plc.index.merge tagged
      let ix := { ix with delta := ix.delta ++ es }
      let d := if d.isMember then d.sendLink 0 3 (.entries es) else d
      let d := d.modPlc fun p => { p with
        index := ix, commits := p.commits.filter fun k => k.commit != c.commit
        recorded := if before48 p.recorded c.commit then c.commit else p.recorded }
      let d := d.settleAppend
      if 3185049600 < entriesLength ix.entries && d.plc.stopped.isNone then d.stopEnding stIndexFull else d

def execDataSetClose (s : State) : Host.Outcome State Fault Refusal := s.doing fun d => d.dataSetClose.hostSettle
def execSpeedMatch (running : Nat) (s : State) : Host.Outcome State Fault Refusal := s.doing fun d => d.speedMatch running
def execHoldEnd (s : State) : Host.Outcome State Fault Refusal := s.doing Dev.holdEnd
def execSessionIdleTimeout (s : State) : Host.Outcome State Fault Refusal := s.doing Dev.sessionIdle
def execFlush (h : Nat) (s : State) : Host.Outcome State Fault Refusal := s.doing fun d => (d.flush h).hostSettle
def execQueryIndex (h : Nat) (s : State) : Host.Outcome State Fault Refusal := s.doing fun d => (d.queryIndex h).hostSettle
def execIndexCommitMerge (s : State) : Host.Outcome State Fault Refusal := s.doing fun d => d.mergeCommit.hostSettle

end Sys2Proof.Machine
end

