-- ==== Sys2Proof/Machine/RegFile.lean ====
section
/-!
DEFINITION. The register file's masked write (R6, R7, R9, R11) and the clamping rules (R583): what a write leaves in the
fields it may set. Who may write what, and what a write triggers, stand in RegWrite.
-/
namespace Sys2Proof.Machine

/-- Where a row's field lies at an address. -/
def FieldRow.at_ (f : FieldRow) (a : Nat) : Fld := ⟨a, f.lo, f.hi - f.lo + 1⟩

/-- Whether a mask addresses a bit of the field. -/
def FieldRow.addressed (f : FieldRow) (mask : Word) : Bool := f.mask &&& mask != 0

/-- The word after a masked write of one field: plain fields take the addressed bits, W1C fields lose those written 1, and a
write leaves the stored bits of RO, RC and WO fields alone (R8, R9). -/
def FieldRow.write (f : FieldRow) (w value mask : Word) : Word :=
  let m := f.mask &&& mask
  match f.acc with
  | .rw | .cfg | .mnt | .lop => (w &&& ~~~m) ||| (value &&& m)
  | .w1c => w &&& ~~~(value &&& m)
  | .ro | .rc | .wo => w

/-- The word after a masked write of every field. -/
def RegRow.write (r : RegRow) (w value mask : Word) : Word := r.fields.foldl (fun w f => f.write w value mask) w

/-- Clamp each field that has a range of its own. -/
def RegRow.clamp (r : RegRow) (a : Nat) (w : Word) : Word :=
  r.fields.foldl (fun w f => match f.range with
    | some (lo, hi) => (f.at_ a).into w (clampNat lo hi ((f.at_ a).of w))
    | none => w) w

/-- Raise a field to at least `v`, as far as its width goes (log 26). -/
def atLeast (f : Fld) (v : Nat) (w : Word) : Word := f.into w (min (2 ^ f.width - 1) (max v (f.of w)))

/-- Lower a field to at most `v`. -/
def atMost (f : Fld) (v : Nat) (w : Word) : Word := f.into w (min v (f.of w))

/-- The period of a motor group in ns (R410). -/
def pwmPeriodNs (g : Nat) : Nat := if g = 2 then 5000 else 25000

/-- Clamping of a field against another field of its register, after every addressed bit is applied (R583). -/
def crossClamp (a : Nat) (w : Word) : Word :=
  if a = 0x050000 then
    let s := F.vfyCfgSyncMin.of w
    let w := if s = 0 then w else F.vfyCfgSyncMin.into w (max 128 s)
    atLeast F.vfyCfgMarginMax (F.vfyCfgBadMax.of w) w
  else if a = 0x070001 then
    let w := F.plcSpeedCfgVMin.into w (clampNat 20 (F.plcSpeedCfgVMax.of w) (F.plcSpeedCfgVMin.of w))
    atMost F.plcSpeedCfgBlLo (F.plcSpeedCfgBlHi.of w) w
  else if a = 0x080004 then
    F.hptPfcCfgXonKib.into w (clampNat 8 (F.hptPfcCfgXoffKib.of w - 8) (F.hptPfcCfgXonKib.of w))
  else if 0x0A0000 ≤ a ∧ a < 0x0A0005 then
    let w := atLeast F.bpmPoolCfgEw2 (F.bpmPoolCfgEw1.of w) w
    let w := atLeast F.bpmPoolCfgEw3 (F.bpmPoolCfgEw2.of w) w
    atMost F.bpmPoolCfgHyst (F.bpmPoolCfgEw1.of w - 1) w
  else if a = 0x0D0001 then atLeast F.fifWeWmHi (F.fifWeWmLo.of w + 2 * F.fifWeWmHyst.of w) w
  else if a = 0x0E0007 then
    let w := atLeast F.tceLatCfgB2 (F.tceLatCfgB1.of w + 1) w
    atLeast F.tceLatCfgB3 (F.tceLatCfgB2.of w + 1) w
  else if 0x0F0002 ≤ a ∧ a < 0x0F0006 then
    atMost F.mdrPwmCfgMinPulse ((pwmPeriodNs (a - 0x0F0002) / 2 - 2 * F.mdrPwmCfgDead.of w) / 2) w
  else if a = 0x000013 then F.glbThermalTjCrit.into w (clampNat (F.glbThermalTjWarn.of w + 1) 115 (F.glbThermalTjCrit.of w))
  else w

/-- Whether a word of RCH.TARGET keeps the sum of magnitudes within 63 (R117). -/
def targetOk (w : Word) : Bool :=
  decide ((signed 8 (F.rchTargetG0.of w)).natAbs + (signed 8 (F.rchTargetG1.of w)).natAbs + (signed 8 (F.rchTargetG2.of w)).natAbs
    + (signed 8 (F.rchTargetG3.of w)).natAbs + (signed 8 (F.rchTargetG4.of w)).natAbs ≤ 63)

/-- What the register at an address holds after a masked write of the fields that may be written, clamped; nothing changes
where no register lies, or where RCH.TARGET would break R117. -/
def Dev.store (d : Dev) (a : Nat) (value mask : Word) : Dev :=
  match rowOf a with
  | none => d
  | some r =>
    let w := crossClamp a (r.clamp a (r.write (d.word a) value mask))
    if a = 0x030001 && !targetOk w then d else d.putWord a w

end Sys2Proof.Machine
end

