-- ==== Sys2Proof/Machine/Image.lean ====
section
/-!
DEFINITION. Image slots in the NOR (R478 to R483, R498) and the calibration set in FeRAM (R487 to R492): reading, checking and
applying them.
-/
namespace Sys2Proof.Machine

/-! ## Slots (R478 to R482) -/

/-- NOR address of a slot. -/
def slotBase (b : Bool) : Nat := if b then 0x1000000 else 0

/-- The 256-byte header of a slot. -/
def Dev.slotHeader (d : Dev) (b : Bool) : List Byte := d.norBytes (slotBase b) 256

/-- A slot's firmware and configuration area. -/
def Dev.slotFirmware (d : Dev) (b : Bool) : List Byte :=
  let h := d.slotHeader b
  d.norBytes (slotBase b + fieldAt h 16 4) (fieldAt h 12 4)

def Dev.slotConfig (d : Dev) (b : Bool) : List Byte :=
  let h := d.slotHeader b
  d.norBytes (slotBase b + fieldAt h 24 4) (16 * fieldAt h 20 4)

/-- The header's fields are within R479 and R480. -/
def headerFieldsOk (h : List Byte) : Bool :=
  let fwLen := fieldAt h 12 4
  let fwAt := fieldAt h 16 4
  let n := fieldAt h 20 4
  let cfgAt := fieldAt h 24 4
  fieldAt h 0 4 == 0x474D495A && fieldAt h 4 2 == 1
    && decide (16 ≤ fwLen) && decide (fwLen ≤ 8388608) && fwLen % 16 == 0 && fwAt % 4096 == 0 && decide (n ≤ 65536) && cfgAt % 4096 == 0
    && decide (256 ≤ fwAt) && decide (256 ≤ cfgAt) && decide (fwAt + fwLen ≤ 0x1000000) && decide (cfgAt + 16 * n ≤ 0x1000000)
    && (n == 0 || decide (fwAt + fwLen ≤ cfgAt) || decide (cfgAt + 16 * n ≤ fwAt))

/-- A configuration record (R481). -/
structure CfgRecord where
  addr  : Nat
  value : Word
  mask  : Word
  deriving DecidableEq, Repr

/-- The records of a configuration area. -/
def cfgRecords : Nat → List Byte → List CfgRecord
  | 0, _ => []
  | n + 1, bs => ⟨fieldAt bs 0 3, BitVec.ofNat 48 (fieldAt bs 4 6), BitVec.ofNat 48 (fieldAt bs 10 6)⟩ :: cfgRecords n (bs.drop 16)

/-- Registers that no record may name (R482). -/
def cfgBarred (a : Nat) : Bool :=
  decide (0x0C0000 ≤ a ∧ a < 0x0D0000) || a == 0x0A0020 || a == 0x0A0021 || a == 0x000008 || decide (0x000040 ≤ a ∧ a < 0x000080)
    || a == 0x000004

/-- Whether a record keeps R482. -/
def CfgRecord.ok (c : CfgRecord) : Bool :=
  match rowOf c.addr with
  | none => false
  | some r => !cfgBarred c.addr && r.fields.all fun f =>
      !f.addressed c.mask || match f.acc with | .ro | .rc | .wo => false | .rw | .w1c | .cfg | .mnt | .lop => true

/-- The cause for which a slot fails in step 4 of R471, or 0 (R480, R482, R498): `readable` says whether the header can be
read and its signature check completes. -/
def Dev.slotFail (d : Dev) (b readable : Bool) : Nat :=
  let h := d.slotHeader b
  let cfg := d.slotConfig b
  if !readable then 3
  else if !headerFieldsOk h then 1
  else if !Config.ecdsaOk Config.firmwareKey (Config.sha384 (h.take 160)) ((h.drop 160).take 96) then 2
  else if Config.sha384 cfg != (h.drop 76).take 48 then 4
  else if !((cfgRecords (fieldAt h 20 4) cfg).all CfgRecord.ok) then 5
  else 0

/-- Whether FW_DIGEST checks. -/
def Dev.firmwareOk (d : Dev) (b : Bool) : Bool := Config.sha384 (d.slotFirmware b) == ((d.slotHeader b).drop 28).take 48

/-- The whole check of a slot that MAINT_NVM verify makes (R495): the code of R498. -/
def Dev.verifySlot (d : Dev) (b : Bool) : Nat :=
  let f := d.slotFail b true
  if f != 0 then f else if d.firmwareOk b then 0 else 8

/-- Apply configuration records in order, each as a masked write (R483). -/
def Dev.applyConfig (d : Dev) (b : Bool) : Dev :=
  (cfgRecords (fieldAt (d.slotHeader b) 20 4) (d.slotConfig b)).foldl (fun d c => d.store c.addr c.value c.mask) d

/-! ## The calibration set (R488 to R490) -/

/-- The calibration set's bytes. -/
def Dev.calSet (d : Dev) : List Byte := d.feramBytes 0 65536

/-- A calibration record. -/
structure CalRecord where
  typ  : Nat
  body : List Byte
  ok   : Bool
  deriving DecidableEq, Repr

/-- Bytes that a record of `n` body bytes takes, 8-byte aligned. -/
def calRecordSize (n : Nat) : Nat := (4 + n + 4 + 7) / 8 * 8

/-- The records of a set's body. -/
def calRecords : Nat → List Byte → List CalRecord
  | 0, _ => []
  | n + 1, bs =>
    let len := fieldAt bs 2 2
    ⟨fieldAt bs 0 2, (bs.drop 4).take len, fieldAt bs (4 + len) 4 == crc32c (bs.take (4 + len))⟩ :: calRecords n (bs.drop (calRecordSize len))

/-- The records of a set. -/
def setRecords (bs : List Byte) : List CalRecord := calRecords (fieldAt bs 24 2) (bs.drop 64)

/-- The record types with their lengths (R489). -/
def calTypes : List (Nat × Nat) := [(1, 7168), (2, 16), (3, 40), (4, 4), (5, 12)]

/-- Whether a set is valid but for its commit word (R490). -/
def calBodyOk (bs : List Byte) : Bool :=
  let rs := setRecords bs
  fieldAt bs 0 4 == 0x314C415A && fieldAt bs 4 2 == 1 && fieldAt bs 60 4 == crc32c (bs.take 60)
    && decide (fieldAt bs 28 4 ≤ 65464) && fieldAt bs 16 8 == deviceRef.toNat && rs.all CalRecord.ok
    && calTypes.all fun t => (rs.filter fun r => r.typ == t.1).length == 1 && rs.all fun r => r.typ != t.1 || r.body.length == t.2

/-- Whether a set is valid (R490). -/
def calSetOk (bs : List Byte) : Bool :=
  calBodyOk bs && fieldAt bs 65528 4 == 0x54494D43 && fieldAt bs 65532 4 == fieldAt bs 60 4

/-- The body of a record type; empty where the set has none. -/
def calBody (bs : List Byte) (t : Nat) : List Byte := ((setRecords bs).find? fun r => r.typ == t).elim [] CalRecord.body

/-- A set from its record bodies (R488, R489), without its commit word. -/
def makeSet (source seq boot : Nat) (bodies : List (Nat × List Byte)) : List Byte :=
  let one := fun (t : Nat × List Byte) =>
    let r := leBytes 2 t.1 ++ leBytes 2 t.2.length ++ t.2
    fitTo (calRecordSize t.2.length) (r ++ leBytes 4 (crc32c r))
  let body := bodies.flatMap one
  let head := leBytes 4 0x314C415A ++ leBytes 2 1 ++ leBytes 1 source ++ leBytes 1 0 ++ leBytes 4 seq ++ leBytes 4 boot
    ++ leBytes 8 deviceRef.toNat ++ leBytes 2 bodies.length ++ leBytes 2 0 ++ leBytes 4 body.length ++ leBytes 28 0
  fitTo 65528 (head ++ leBytes 4 (crc32c head) ++ body)

/-- The commit word of a set. -/
def commitWord (bs : List Byte) : List Byte := leBytes 4 0x54494D43 ++ leBytes 4 (fieldAt bs 60 4)

/-! ## Values of a channel (R138) -/

/-- The 28 bytes of channel n in a body of type 1, or the defaults of R138. -/
def channelBytes (body : Option (List Byte)) (n : Nat) : List Byte :=
  match body with
  | some b => (b.drop (28 * n)).take 28
  | none => leBytes 1 0x60 ++ leBytes 7 0 ++ leBytes 1 0x14 ++ leBytes 1 5 ++ leBytes 1 0x67 ++ leBytes 1 0x60 ++ leBytes 1 0
      ++ leBytes 15 (256 * 2 ^ 48)

/-- The ten taps of a channel's 28 bytes: 12 bits each, tap 0 first. -/
def channelTaps (ch : List Byte) : List Nat := (List.range 10).map fun t => fieldAt ch 13 15 / 2 ^ (12 * t) % 4096

/-- The channel body of the valid set, if there is one. -/
def Dev.channelBody (d : Dev) : Option (List Byte) := if calSetOk d.calSet then some (calBody d.calSet 1) else none

/-- The calibrated taps of a channel (R162 step 2). -/
def Dev.calibratedTaps (d : Dev) (n : Nat) : List Int := (channelTaps (channelBytes d.channelBody n)).map fun v => signed 12 v

/-- Load the values of R138 that have registers, and the group delays (R109, R138); the VGA and the sample phase start from them
(R112, R113). -/
def Dev.loadChannels (d : Dev) : Dev :=
  let b := d.channelBody
  let d := (List.range 256).foldl (fun d n =>
    let ch := channelBytes b n
    let at1 := fun i => fieldAt ch i 1
    let d := ((((((d.set (F.wchPrecompP1q1.ix n) (at1 1)).set (F.wchPrecompP1q2.ix n) (at1 2)).set (F.wchPrecompP2q1.ix n) (at1 3)).set
      (F.wchPrecompP2q2.ix n) (at1 4)).set (F.wchPrecompP3q1.ix n) (at1 5)).set (F.wchPrecompP3q2.ix n) (at1 6)).set
      (F.wchPrecompFineDly.ix n) (at1 7)
    let d := (((d.set (F.rchAfeCtleBoost.ix n) (at1 10 / 16)).set (F.rchAfeCtleZero.ix n) (at1 10)).set (F.rchAfeVgaInit.ix n) (at1 11)).set
      (F.rchAfePhase.ix n) (at1 12)
    let d := (d.set (F.rchLiveVgaNow.ix n) (at1 11)).set (F.rchLivePhaseNow.ix n) (at1 12)
    (channelTaps ch).zipIdx.foldl (fun d t => d.set (F.rchEqTapCoef.ix (16 * n + t.2)) t.1) d) d
  let g := if b.isSome then calBody d.calSet 2 else []
  (List.range 8).foldl (fun d i =>
    (d.set (F.wchGroupDlyDly.ix i) (fieldAt g i 1)).set (F.rchGroupDlyDly.ix i) (fieldAt g (8 + i) 1)) d

/-- The lateral values of a body of type 5. -/
def servoValues (b : List Byte) : List (Bool × Int) :=
  [(fieldAt b 0 1 == 1, signed 32 (fieldAt b 1 4)), (fieldAt b 5 1 == 1, signed 32 (fieldAt b 6 4))]

/-- Apply the values that start-up loads (R492): current-sense, welt and lateral calibration, from the set or as defaults. -/
def Dev.loadStartValues (d : Dev) : Dev :=
  let ok := calSetOk d.calSet
  let cs := if ok then calBody d.calSet 3 else (List.range 10).flatMap fun _ => leBytes 4 0x8000
  let w := if ok then calBody d.calSet 4 else leBytes 4 0x0C80
  let d := { d with chan := { d.chan with servo := servoValues (if ok then calBody d.calSet 5 else []) } }
  let d := (List.range 10).foldl (fun d i =>
    ((d.set (F.mdrCsCalGain8.ix i) (fieldAt cs (4 * i) 2)).set (F.mdrCsCalOfs8.ix i) (fieldAt cs (4 * i + 2) 1)).set
      (F.mdrCsCalOfs1.ix i) (fieldAt cs (4 * i + 3) 1)) d
  (d.set F.tceWeltCalKW (fieldAt w 0 2)).set F.tceWeltCalW0 (fieldAt w 2 2)

/-- The lateral sign (negative) and offset of an input (R372), in 1/1,024 µm. -/
def Dev.lateralCal (d : Dev) (input : Nat) : Bool × Int := d.chan.servo.getD input (false, 0)

/-- CAL.STATUS and CAL.STORED follow the set in FeRAM (R501). -/
def Dev.syncCal (d : Dev) : Dev :=
  let s := d.calSet
  let ok := calSetOk s
  let v := fun (n : Nat) => if ok then n else 0
  (((d.set F.calStatusValid (b2n ok)).set F.calStatusSource (v (fieldAt s 6 1))).set F.calStatusSeq (v (fieldAt s 8 4))).set
    F.calStoredBootCount (v (fieldAt s 12 4))

end Sys2Proof.Machine
end

