-- ==== Sys2Proof/Machine/Attest.lean ====
section
/-!
DEFINITION. Measured boot (R503 to R516): the boot record and its amendments, the boot counter and the boot log in FeRAM, the
entries on tape, and the window of SEC. Digests, keys and signatures are uninterpreted (log 9).
-/
namespace Sys2Proof.Machine

/-! ## The boot counter (R510, R511) -/

/-- A counter copy that checks. -/
def Dev.counterCopy (d : Dev) (i : Nat) : Option Nat :=
  let b := d.feramBytes (0x10000 + 8 * i) 8
  if fieldAt b 4 4 == crc32c (b.take 4) then some (fieldAt b 0 4) else none

/-- A boot log entry's bytes (R512). -/
def Dev.bootEntry (d : Dev) (i : Nat) : List Byte := d.feramBytes (0x10100 + 512 * i) 512

/-- Whether a boot log entry is valid (R512). -/
def bootEntryOk (b : List Byte) : Bool := fieldAt b 0 4 == 0x3152425A && fieldAt b 40 8 == deviceRef.toNat

/-- The valid entries with their places. -/
def Dev.bootLog (d : Dev) : List (Nat × List Byte) :=
  ((List.range 263).map fun i => (i, d.bootEntry i)).filter fun x => bootEntryOk x.2

/-- The newest entry: the highest (BOOT_COUNT, AMEND), the highest index among equals (R512). -/
def Dev.newestEntry (d : Dev) : Option Nat :=
  let key := fun (x : Nat × List Byte) => fieldAt x.2 8 4 * 65536 + fieldAt x.2 6 2
  ((d.bootLog).foldl (fun (acc : Option (Nat × List Byte)) x => match acc with
    | some y => if key y ≤ key x then some x else some y
    | none => some x) none).map Prod.fst

/-- The preferred slot (R474, R510). -/
def Dev.prefSlot (d : Dev) : Bool := fieldAt (d.feramBytes 0x10010 1) 0 1 == 1

/-- Write PREF (R510); GLB.BOOT.PREF shows it. -/
def Dev.setPref (d : Dev) (b : Bool) : Dev := (d.putFeram 0x10010 (leBytes 1 (b2n b))).set F.glbBootPref (b2n b)

/-- Step 2 of R471: the boot counter is incremented in both copies (R473, R511). -/
def Dev.countBoot (d : Dev) : Dev :=
  let copies := [d.counterCopy 0, d.counterCopy 1].filterMap id
  let logged := (d.bootLog.map fun x => fieldAt x.2 8 4).foldl max 0
  let c := if copies.isEmpty then logged else copies.foldl max 0
  let sat := decide (c = 0xFFFFFFFF)
  let n := if sat then c else c + 1
  let w := leBytes 4 n ++ leBytes 4 (crc32c (leBytes 4 n))
  let d := (d.putFeram 0x10000 w).putFeram 0x10008 w
  let d := { d with glb := { d.glb with bootCount := n } }
  (((d.set F.secFlagsRestored (b2n copies.isEmpty)).set F.secFlagsSaturated (b2n sat)).set F.secStatusBootCount n).set
    F.secStatusAmend 0

/-! ## Records (R505 to R509) -/

/-- GLB.IDENT as it reads (R3). -/
def Dev.ident (d : Dev) : Nat := (F.glbIdentTempGrade.into (d.word 0) Config.tempGrade.toNat).toNat

/-- STRAPS of R505. -/
def strapsByte (s : Straps) : Nat := b2n s.role + 2 * s.id.toNat + 32 * b2n s.sbMode

/-- CAL_DIGEST (R505). -/
def Dev.calDigest (d : Dev) : List Byte := if calSetOk d.calSet then Config.sha384 d.calSet else leBytes 48 0

/-- The five digests of R505, for the running slot. -/
def Dev.digests (d : Dev) : List Byte :=
  let h := d.slotHeader (d.flag F.glbBootSlot)
  fitTo 48 Config.romDigest ++ fitTo 48 (Config.sha384 h) ++ (h.drop 28).take 48 ++ (h.drop 76).take 48 ++ fitTo 48 d.calDigest

/-- MEASURE (R506). -/
def Dev.measure (d : Dev) : List Byte := Config.sha384 (leBytes 6 d.ident ++ leBytes 1 (strapsByte d.glb.straps) ++ d.digests)

/-- ALIAS_DIGEST (R506): of the public key derived from the compound device identifier. -/
def Dev.aliasDigest (d : Dev) : List Byte :=
  Config.sha384 (fitTo 97 (Config.p384Pub (privateScalar (Config.hmacSha384 Config.uds d.measure) aliasLabel)))

/-- Sign bytes 0 to 415 of a record (R509). -/
def signRecord (body : List Byte) : List Byte := fitTo 416 body ++ signWith identityScalar (fitTo 416 body)

/-- SEQ and SOURCE of the calibration set in use, 0 with defaults (R508). -/
def Dev.calSeqSource (d : Dev) : List Byte × List Byte :=
  if calSetOk d.calSet then ((d.calSet.drop 8).take 4, (d.calSet.drop 6).take 1) else (leBytes 4 0, leBytes 1 0)

/-- FLAGS of a record (R508). -/
def Dev.recordFlags (d : Dev) : Nat :=
  b2n (d.flag F.glbBootFallback) + 2 * b2n (!calSetOk d.calSet) + 4 * b2n (d.flag F.secFlagsSaturated) + 8 * b2n (d.flag F.secFlagsRestored)

/-- The boot record of this start (R508). -/
def Dev.makeRecord (d : Dev) : List Byte :=
  let cal := d.calSeqSource
  signRecord (leBytes 4 0x3152425A ++ leBytes 1 1 ++ leBytes 1 d.recordFlags ++ leBytes 2 0 ++ leBytes 4 d.glb.bootCount
    ++ leBytes 1 (d.get F.glbBootStartCause) ++ leBytes 1 (d.get F.glbBootSlot) ++ leBytes 6 d.ident
    ++ leBytes 4 (d.get F.glbImageVersion) ++ cal.1 ++ cal.2 ++ leBytes 1 (strapsByte d.glb.straps) ++ leBytes 2 0 ++ leBytes 6 d.time
    ++ leBytes 2 0 ++ leBytes 8 deviceRef.toNat ++ d.digests ++ fitTo 48 d.measure ++ fitTo 48 d.aliasDigest)

/-- An amendment (R508): the boot record with what R508 lets differ. -/
def Dev.makeAmendment (d : Dev) (n : Nat) : List Byte :=
  let r := d.sec.record
  let cal := d.calSeqSource
  let flags := fieldAt r 5 1 - 2 * b2n (bitAt (fieldAt r 5 1) 1) + 2 * b2n (!calSetOk d.calSet)
  signRecord (r.take 4 ++ leBytes 1 2 ++ leBytes 1 flags ++ leBytes 2 n ++ (r.drop 8).take 16 ++ cal.1 ++ cal.2 ++ (r.drop 29).take 3
    ++ leBytes 6 d.time ++ (r.drop 38).take 202 ++ fitTo 48 d.calDigest ++ (r.drop 288).take 128)

/-- Write a record in the boot log, after the newest entry (R512): the one SEC wrote last in this start, else the one that the
search at start finds. -/
def Dev.logRecord (d : Dev) (r : List Byte) : Dev :=
  let last := if d.flag F.secFlagsRecordOk then some (d.get F.secFlagsNewest) else d.newestEntry
  let i := match last with | some n => (n + 1) % 263 | none => 0
  ((d.putFeram (0x10100 + 512 * i) r).set F.secFlagsNewest i).set F.secFlagsRecordOk 1

/-- SEC makes the boot record (R507). -/
def Dev.recordBoot (d : Dev) : Dev :=
  let r := d.makeRecord
  ({ d with sec := { d.sec with record := r } }).logRecord r

/-- SEC makes an amendment (R507). -/
def Dev.amend (d : Dev) : Dev :=
  let n := d.get F.secStatusAmend + 1
  (d.set F.secStatusAmend n).logRecord (d.makeAmendment n)

/-! ## Entries on tape (R513, R514) and the window (R516) -/

/-- The IDENTITY entry of the device, with the endorsement that it got at manufacture (R504, R513). -/
def Dev.identityEntry (d : Dev) : RawEntry :=
  ⟨9, leBytes 6 d.ident ++ leBytes 6 0 ++ leBytes 8 deviceRef.toNat ++ devPub ++ leBytes 7 0
    ++ signWith Config.endorsementKey (devPub ++ leBytes 6 d.ident)⟩

/-- The BOOT entry of a record. -/
def bootRaw (r : List Byte) : RawEntry := ⟨5, leBytes 4 0 ++ fitTo 512 r⟩

/-- The entries of R514 that the index does not yet hold: IDENTITY, the boot record, every amendment of this boot, which stand
in the boot log up to its newest entry. -/
def Dev.bootExtras (d : Dev) : List (List Byte) :=
  let n := min (d.get F.secStatusAmend) 262
  let amends := (List.range n).map fun i => bootRaw (d.bootEntry ((d.get F.secFlagsNewest + 264 + i - n) % 263))
  let es := d.identityEntry :: bootRaw d.sec.record :: amends
  (es.filter fun e => !d.plc.index.raw.contains e).map RawEntry.bytes

/-- The object that SEC.WIN shows (R516). -/
def Dev.secWindow (d : Dev) (sel : Nat) : List Byte :=
  if sel ≤ 262 then d.bootEntry sel else if sel = 0x3FF then d.identityEntry.bytes else []

/-! ## Storing the calibration set (R491) -/

/-- Store a set (R491): the commit word goes first and is written last, if the read-back agrees; SEC then makes an amendment
(R507). -/
def Dev.storeSet (d : Dev) (set : List Byte) (readBack : Bool) : Bool × Dev :=
  let d := (d.putFeram 65528 (leBytes 8 0)).putFeram 0 (fitTo 65528 set)
  if readBack && calBodyOk d.calSet then (true, (d.putFeram 65528 (commitWord d.calSet)).syncCal.amend)
  else (false, d.syncCal)

end Sys2Proof.Machine
end

