-- ==== Sys2Proof/Machine/Snap.lean ====
section
/-!
DEFINITION. Counters and snapshots (R527 to R532).
-/
namespace Sys2Proof.Machine

/-- The counter registers, as (first address, number) (R527, R528; the tables of the chapters). -/
def counterRanges : List (Nat × Nat) := [
  (0x010010, 13), (0x020030, 3), (0x030010, 6), (0x040010, 10), (0x050020, 8), (0x060020, 13), (0x070010, 10),
  (0x080200, 12), (0x090010, 8), (0x0A0030, 5), (0x0A0038, 5), (0x0A0040, 1), (0x0B0010, 4), (0x0C0050, 2),
  (0x0D0010, 2), (0x0E0020, 19), (0x0F0040, 12), (0x100020, 8), (0x120010, 5)]

/-- The shadow number of the counter at an address, if a counter lies there (R528). -/
def shadowOf (a : Nat) : Option Nat :=
  if 0x121000 ≤ a ∧ a < 0x122000 then
    if a % 16 < 12 then some (2688 + 12 * ((a - 0x121000) / 16) + a % 16) else none
  else if counterRanges.any (fun r => decide (r.1 ≤ a) && decide (a < r.1 + r.2)) then some (128 * (a / 0x10000) + a % 128)
  else none

/-- Every counter that is not 0, by shadow number. -/
def Dev.counters (d : Dev) : List (Nat × Word) := d.regs.filterMap fun x => (shadowOf x.1).map fun n => (n, x.2)

/-- Flags of header word 0 (R531). -/
structure ShotFlags where
  jumped    : Bool := false
  missed    : Bool := false
  cancelled : Bool := false
  shared    : Bool := false
  deriving DecidableEq, Repr

/-- The header of a snapshot (R531). COARSE shows a TPOS snapshot that fired in the count state (R73). -/
def Dev.shotHeader (d : Dev) (a : Armed) (f : ShotFlags) : List Word :=
  let coarse := !a.time && d.pos.mode == .count && !f.cancelled
  let w0 := a.id + b2n a.time * 2 ^ 16 + b2n f.jumped * 2 ^ 17 + b2n coarse * 2 ^ 18 + b2n f.missed * 2 ^ 19
    + b2n f.cancelled * 2 ^ 20 + b2n f.shared * 2 ^ 22
  [BitVec.ofNat 48 w0, a.target, BitVec.ofInt 48 d.tposNow, BitVec.ofNat 48 d.time, BitVec.ofNat 48 d.glb.bootCount]

/-- Keep a readout: the last 16 are kept and the oldest is replaced first (R531). -/
def Dev.pushReadout (d : Dev) (r : Shot) : Dev :=
  let all := r :: d.cnt.readouts
  let d := d.releaseAll ((all.drop 16).filterMap Shot.handle) ownDma
  { d with cnt := { d.cnt with readouts := all.take 16 } }

/-- Snapshots fire together (R530): they take one bank, or are missed when both banks wait for readout. -/
def Dev.takeShots (d : Dev) (as : List Armed) (jumped : Bool) : Dev :=
  let d := { d with cnt := { d.cnt with armed := d.cnt.armed.filter fun a => !as.contains a } }
  if as.isEmpty then d
  else if 2 ≤ d.cnt.banks.length then
    as.foldl (fun d a => (d.pushReadout ⟨d.shotHeader a { jumped := jumped, missed := true }, [], none⟩).bump C.cntSnapMissed) d
  else
    let cs := d.counters
    let bank := as.map fun a => (⟨d.shotHeader a { jumped := jumped, shared := decide (1 < as.length) }, cs, none⟩ : Shot)
    ({ d with cnt := { d.cnt with banks := d.cnt.banks ++ [bank] } }).bumpBy C.cntSnap as.length

/-- Cancel the armed TPOS snapshots (R532): each leaves a readout with its header alone. -/
def Dev.cancelShots (d : Dev) : Dev :=
  let gone := d.cnt.armed.filter fun a => !a.time
  let d := { d with cnt := { d.cnt with armed := d.cnt.armed.filter Armed.time } }
  let d := d.dropEntries Entry.isSnapshot
  gone.foldl (fun d a => d.pushReadout ⟨d.shotHeader a { cancelled := true }, [], none⟩) d

/-- SNAPSHOT (R306, R529, R532): armed, or refused when four are armed or the target is not ahead; arming waits for
a restarting cobbler (R17). -/
def Dev.snapshot (d : Dev) (h : Nat) : Dev :=
  match d.accepted? h opSnapshot with
  | none => d
  | some c =>
    if d.flag F.glbCobblerRestarting then d else
    let a : Armed := ⟨c.par 18 2, c.par 16 1 == 1, BitVec.ofNat 48 (c.par 20 6)⟩
    if 4 ≤ d.cnt.armed.length then d.finish h stSnapFull []
    else
      let d' : Option Dev :=
        if a.time then (if before48 (BitVec.ofNat 48 d.time) a.target then some d else none)
        else d.arm ⟨a.target.toInt, d.reverse, .snapshot a.id⟩
      match d' with
      | none => (if a.time then d else d.bump C.posLate).finish h stLate []
      | some d =>
        let d := { d with cnt := { d.cnt with armed := d.cnt.armed ++ [a] } }
        let far := if a.time then [] else d.cas.members.filter fun m => m.state == 3 && d.casMode == 1 && d.isMaster
        let d := far.foldl (fun d m => d.sendLink m.id 1 (.snapshot a.id a.target)) d
        d.finish h stGood (leBytes 2 a.id)

/-- The entry of which `p` holds that fires next in the present direction, with those that share its target. -/
def Dev.nextEntries (d : Dev) (p : Entry → Bool) : List Entry :=
  let es := d.pos.entries.filter fun e => p e && e.reverse == d.reverse
  match es.map (fun e => d.aheadOf e) |>.min? with
  | some m => es.filter fun e => d.aheadOf e == m
  | none => []

/-- The armed snapshots that entries own. -/
def Dev.shotsOf (d : Dev) (es : List Entry) : List Armed :=
  d.cnt.armed.filter fun a => !a.time && es.any fun e => e.owner == .snapshot a.id && e.target == a.target.toInt

/-- SNAPSHOT_FIRE (R78, R529, R530): a TIME snapshot that is due, else the next TPOS snapshot in the present direction,
else the next TIME snapshot; TPOS or TIME stands at the target (log 7). -/
def Dev.snapshotFire (d : Dev) : Dev :=
  let now := BitVec.ofNat 48 d.time
  let times := d.cnt.armed.filter Armed.time
  let due := times.filter fun a => atOrBefore48 a.target now
  if !due.isEmpty then d.takeShots due false
  else
    let es := if d.pos.mode == .unset then [] else d.nextEntries Entry.isSnapshot
    match es with
    | e :: _ =>
      let d := d.setTpos e.target
      let as := d.shotsOf es
      (d.dropEntries fun x => es.contains x).takeShots as false
    | [] =>
      match (times.map fun a => (a.target - now).toNat).min? with
      | none => d
      | some n =>
        let t := now + BitVec.ofNat 48 n
        (d.set F.posTimeTime t.toNat).takeShots (times.filter fun a => a.target == t) false

/-- The bytes of a bank as DMA space 2 shows them (R531). -/
def bankBytes (r : Shot) : List Byte :=
  let word := fun (w : Word) => leBytes 8 w.toNat
  ((List.range 5760).map fun n => word (sparseGet (fun _ => 0) r.counts n)).flatten
    ++ fitTo 64 (r.header.map word).flatten

/-- SNAPSHOT_READOUT (R531): the cobbler copies the oldest waiting bank into a P4 granule, which frees the bank. -/
def Dev.snapshotReadout (d : Dev) : Dev :=
  match d.cnt.banks with
  | [] => d
  | bank :: rest =>
    if d.flag F.glbCobblerRestarting then d
    else
      match (d.roomInP4 1).allocate 4 ownDma ownDma with
      | (none, d) => d
      | (some g, d) =>
        let d := match bank with | r :: _ => d.putDdr (d.bufAddr g) (bankBytes r) | [] => d
        let d := { d with cnt := { d.cnt with banks := rest } }
        match bank with
        | [] => d
        | r :: more => more.foldl (fun d r => d.pushReadout r) (d.pushReadout { r with handle := some g })

def execSnapshot (h : Nat) (s : State) : Host.Outcome State Fault Refusal := s.doing fun d => d.snapshot h
def execSnapshotFire (s : State) : Host.Outcome State Fault Refusal := s.doing Dev.snapshotFire
def execSnapshotReadout (s : State) : Host.Outcome State Fault Refusal := s.doing Dev.snapshotReadout

end Sys2Proof.Machine
end

