-- ==== Sys2Proof/Machine/WritePath.lean ====
section
/-!
DEFINITION. The write path after a data set is closed: C2 parity and the C3 accumulator (R147, R152 to R155), the
write-encode FIFOs (R176, R354, R356), and writing a slot (R83, R84, R92 to R104).
-/
namespace Sys2Proof.Machine

/-! ## Channels (R92 to R94) -/

/-- Whether channel n may be enabled: fitted, with no element fault or faulted module behind it (R93, R108, R136). -/
def Dev.channelFit (d : Dev) (n : Nat) : Bool :=
  bitAt (d.get (F.wchChEnEn.ix (n / 32))) (n % 32) && !d.ecc.deadHfm.contains n && !d.ecc.hfmGone.contains (n / 32)

/-- Whether channel n is enabled, its enable group among those that have been (R93). -/
def Dev.channelOn (d : Dev) (n : Nat) : Bool := d.channelFit n && decide (n / 16 < d.chan.groupsOn)

/-- The enabled channels. -/
def Dev.channelsOn (d : Dev) : List Nat := (List.range 256).filter fun n => d.channelOn n

/-! ## Write-encode FIFOs (R176, R354, R356) -/

/-- A FIFO with nothing in it. -/
def Fifo.zero : Fifo := ⟨0, 0, none⟩

/-- A FIFO by ID. -/
def Dev.fifo (d : Dev) (id : Nat) : Fifo := sparseGet (fun _ => Fifo.zero) d.fifos id

/-- Store a FIFO. -/
def Dev.putFifo (d : Dev) (id : Nat) (f : Fifo) : Dev := { d with fifos := sparsePut (fun _ => Fifo.zero) d.fifos id f }

/-- Words of 64 bits of a segment's content. -/
def segmentWords : Nat := 1193

/-- The words of a FIFO that hold content. -/
def Fifo.fill (f : Fifo) : Nat := (f.wr + 8192 - f.rd) % 8192

/-- A watermark with hysteresis (R353): whether it is asserted, where it was or was not. -/
def highMark (hi hyst fill : Nat) (was : Bool) : Bool := if was then decide (hi ≤ fill + hyst) else decide (hi ≤ fill)
def lowMark (lo hyst fill : Nat) (was : Bool) : Bool := if was then decide (fill ≤ lo + hyst) else decide (fill ≤ lo)

/-- The watermarks of the write-encode FIFOs of enabled channels follow their fill (R353, R357). -/
def Dev.watermarks (d : Dev) : Dev :=
  let hyst := d.get F.fifWeWmHyst
  let high := d.channelsOn.filter fun n => highMark (d.get F.fifWeWmHi) hyst (d.fifo n).fill (d.chan.high.contains n)
  let low := d.channelsOn.filter fun n => lowMark (d.get F.fifWeWmLo) hyst (d.fifo n).fill (d.chan.low.contains n)
  { d with chan := { d.chan with high := high, low := low } }

/-- The flow-control outputs (R357), and in width mode the master's pause (R455): its own low watermark counts inside a data set,
while a slot's content is taken. -/
def Dev.flowControl (d : Dev) : Dev :=
  if d.casMode != 1 then d
  else
    let fc := d.get F.casStatusFcIn
    let low := !d.chan.low.isEmpty && d.chan.taking.isSome
    let level := b2n (bitAt fc 0 || low) + 2 * b2n (bitAt fc 1 || !d.chan.high.isEmpty)
    let d := if level = d.cas.fcOut then d else ({ d with cas := { d.cas with fcOut := level } }).emit (.pin "FC_OUT" level)
    let pause := (bitAt fc 0 || low) && d.isMaster
    let was := d.cas.fcPause
    let d := { d with cas := { d.cas with fcPause := pause } }
    if pause && !was then d.bump C.casFcPause else if was && !pause then d.sendWaiting else d

/-- The watermarks and what follows from them. -/
def Dev.settleFifos (d : Dev) : Dev := d.watermarks.flowControl

/-- Words that the FIFOs hold of a data set displaced by another go: they rewind to the mark and the data set is marked
again (R177, R354). -/
def Dev.unmark (d : Dev) : Dev :=
  let back := fun (k : Copy) => if k.step == .marked then { k with step := .folded } else k
  let d := d.modPlc fun p => { p with dsets := p.dsets.map fun (x : DSet) =>
    if x.member == d.self then { x with copies := x.copies.map back } else x }
  let d := d.channelsOn.foldl (fun d n =>
    let f := d.fifo n
    match f.mark with | some m => d.putFifo n { f with wr := m, mark := none } | none => d) d
  d.settleFifos

/-! ## C2 and C3 encoding -/

/-- The symbols of a run of bytes, low byte first (R47, R152). -/
def symbols : Nat → List Byte → List Nat
  | 0, _ => []
  | n + 1, bs => fieldAt bs 0 2 :: symbols n (bs.drop 2)

/-- Bytes of symbols. -/
def symbolBytes (ss : List Nat) : List Byte := ss.flatMap fun s => leBytes 2 s

/-- The 16 parity tracks of a payload (R47, R147): C2 codeword s over symbol s of the 240 data tracks. -/
def c2Parity (payload : List Byte) : List Byte :=
  let tracks := (List.range 240).map fun l => symbols 4096 ((payload.drop (8192 * l)).take 8192)
  let words := (List.range 4096).map fun s => rsParity 16 (tracks.map fun t => t.getD s 0)
  (List.range 16).flatMap fun j => symbolBytes (words.map fun w => w.getD j 0)

/-- Symbols of a payload (R152). -/
def payloadSymbols : Nat := 983040

/-- Fold a payload at INDEX i into the accumulator (R153). -/
def foldC3 (i : Nat) (payload : List Byte) (acc : List (Nat × BitVec 16)) : List (Nat × BitVec 16) :=
  let b := c3Vector i
  let ss := (symbols payloadSymbols payload).zipIdx
  (List.range 4).foldl (fun acc q =>
    ss.foldl (fun acc s =>
      let k := payloadSymbols * q + s.2
      sparsePut (fun _ => (0 : BitVec 16)) acc k (sparseGet (fun _ => 0) acc k ^^^ BitVec.ofNat 16 (gfMul s.1 (b.getD q 0)))) acc) acc

/-- The parity payload q of the accumulator (R154). -/
def c3Payload (q : Nat) (acc : List (Nat × BitVec 16)) : List Byte :=
  symbolBytes ((List.range payloadSymbols).map fun v => (sparseGet (fun _ => (0 : BitVec 16)) acc (payloadSymbols * q + v)).toNat)

/-- The bytes of a payload in a buffer. -/
def Dev.payload (d : Dev) (h : Nat) : List Byte := d.ddrBytes (d.bufAddr h) 1966080

/-- Write the C2 parity tracks behind a payload. -/
def Dev.encodeC2 (d : Dev) (h : Nat) : Dev := d.putDdr (d.bufAddr h + 1966080) (c2Parity (d.payload h))

/-- The oldest data set of the device that is closed and not folded. -/
def Dev.nextFold (d : Dev) : Option DSet :=
  d.plc.dsets.find? fun x => x.member == d.self && x.copies.length == 1 && x.copies.any fun k => k.step == .closed

/-- The accumulator's content is lost (R155). -/
def Dev.noteAccError (d : Dev) : Dev :=
  let d := (d.set F.eccStatusAccErr 1).bump C.eccAccErr
  { d with ecc := { d.ecc with acc := [], accOpen := none } }

/-- A group whose in-line segment is built loses its C3 (R155): the parity data sets not yet begun are given up, and gaps go in
their slots; its GROUP entry, with NO_C3, goes in the next group's segment too. -/
def Dev.loseParity (d : Dev) (s : Session) (parity : List DSet) : Dev :=
  let n := (parity.head?.map DSet.group).getD s.group
  let is := fun (e : GroupEntry) => e.member == d.self && e.wrap == s.place.wrap && e.group == n && e.generation == s.generation
  let bare := fun (e : GroupEntry) =>
    if is e && !e.noC3 then { e with noC3 := true, lastSlot := slotAfter (!wrapReverse e.wrap) e.lastSlot 4 } else e
  let entry := ((d.plc.commits.flatMap Commit.group ++ d.plc.index.groups).find? is).map bare
  let d := if parity.any fun x => x.copies.any fun k => k.step == .marked then d.unmark else d
  let d := (parity.foldl (fun (d : Dev) x => d.freeDset x) d.noteAccError).dropParity
  let gone := fun (x : DSet) => parity.any fun y => y.id == x.id
  let d := d.modPlc fun p => { p with
    dsets := p.dsets.filter fun x => !gone x
    index := { p.index with groups := p.index.groups.map bare }
    commits := p.commits.map fun (c : Commit) => { c with group := c.group.map bare }
    noC3 := p.noC3 ++ entry.toList }
  d.modSession fun t => { t with
    noParity := t.noParity || decide (60 ≤ t.index)
    dsSeq := if t.index = 0 || decide (60 ≤ t.index) then t.dsSeq - BitVec.ofNat 48 parity.length else t.dsSeq }

/-- The open group ends after the data data sets already folded (R155): its GROUP entry waits for the next group's segment, gaps
go where its parity was to go, after those data sets where the slots are already theirs, which open a new group. -/
def Dev.endUnprotected (d : Dev) (s : Session) (done late : List DSet) : Dev :=
  let folded := done.length
  let lastSlot := (done.map DSet.first).getLastD s.place.slot
  let runsOf := fun (xs : List DSet) =>
    runsWith 0 ((d.strm.clicks.filter fun c => c.pieces.any fun p => xs.any fun y => y.id == p.ds).map fun c => (⟨c, 0, 0⟩ : Given)) []
  let lateRuns := runsOf late
  let cs := d.plc.chains.filter fun c => c.1 == 0
  let rs := d.plc.replacing.filter fun r => r.1 == 0
  let g := s.groupEntry 0 folded lastSlot false (runsOf done)
    (cs.filter fun c => decide (c.2.index < folded)) (rs.filter fun r => decide (r.2.newIndex < folded))
  let g := { g with noC3 := true, lastSlot := lastSlot }
  let lateCs := (cs.filter fun c => decide (folded ≤ c.2.index)).map fun c => (0, { c.2 with index := c.2.index - folded })
  let lateRs := (rs.filter fun r => decide (folded ≤ r.2.newIndex)).map fun r => (0, { r.2 with newIndex := r.2.newIndex - folded })
  let renum := fun (x : DSet) => if late.any fun y => y.id == x.id then { x with group := s.group + 1, index := x.index - folded } else x
  let d := d.noteAccError.modPlc fun p => { p with
    noC3 := p.noC3 ++ [g], dsets := p.dsets.map renum, runs := lateRuns, chains := lateCs, replacing := lateRs
    groupNext := (s.place.wrap, s.group + 1) :: p.groupNext.filter fun x => x.1 != s.place.wrap }
  d.modSession fun s =>
    let s := { s with groups := s.groups + 1, lastGroup := some s.group }
    if late.isEmpty then { s with index := 60, count := folded, noParity := true }
    else { s with group := s.group + 1, index := late.length, groupFirst := (late.map DSet.first).headD s.place.slot, owedGaps := 4 }

/-- An uncorrectable error in the accumulator before the parity moves of its group are complete (R155). -/
def Dev.accError (d : Dev) : Dev :=
  match d.plc.session with
  | none => d
  | some s =>
    let closed := fun (x : DSet) => x.copies.any fun k => k.step == .closed
    let sets := d.plc.dsets.filter fun x => x.member == d.self && x.wrap == s.place.wrap && x.generation == s.generation
    let parity := sets.filter fun x => x.typ == 2 && x.copies.all fun k => !k.begun
    if parity.any closed || (decide (60 ≤ s.index) && !s.noParity) then d.loseParity s parity
    else if 60 ≤ s.index then d
    else
      let data := sets.filter fun x => x.typ == 1 && x.group == s.group
      let done := data.filter fun x => !closed x
      if done.isEmpty then d else d.endUnprotected s done (data.filter closed)

/-- C3_FOLD (R15 step 3, R153, R154): C2 parity and the fold of the oldest closed data data set, after which the C3
accumulator gives up its buffer; the C2 parity of a heel; or the move of a parity payload into its P2 buffer. A poisoned
payload stops appending before the data set is written (R339). -/
def Dev.c3Fold (d : Dev) (bad : Bool) : Dev :=
  let d := if bad then d.accError else d
  match d.nextFold with
  | none => d
  | some x => match d.poisonIn (d.bufAddr x.handle) 1966080 with
   | some a => (d.memoryError a).stopNow 0x0308
   | none =>
    if x.typ = 2 then
      let q := x.index - 60
      let d := (d.putDdr (d.bufAddr x.handle) (c3Payload q d.ecc.acc)).encodeC2 x.handle
      let d := (if q = 3 then { d with ecc := { d.ecc with acc := [], accOpen := none } } else d).release x.handle ownC3
      d.modDset x.id fun x => x.modLast fun k => { k with step := .folded }
    else
      let acc := if x.typ = 1 then foldC3 x.index (d.payload x.handle) (if x.index = 0 then [] else d.ecc.acc) else d.ecc.acc
      let n := if x.index = 0 then 0 else ((d.ecc.accOpen.map Prod.snd).getD 0)
      let d := { d with ecc := { d.ecc with acc := acc, accOpen := if x.typ = 1 then some (x.group, n + 1) else d.ecc.accOpen } }
      let d := (d.encodeC2 x.handle).release x.handle ownC3
      d.modDset x.id fun x => x.modLast fun k => { k with step := .folded }

/-! ## Marks (R15, R176, R354) -/

/-- The data set whose start is the next armed one that is not for a gap, with the slot. -/
def Dev.nextStart (d : Dev) : Option (Nat × DSet) :=
  let of := fun (e : Entry) => match e.owner with | .dsStart g => (d.occupant g).map fun x => (d.aheadOf e, g, x) | _ => none
  let nearer := fun (a b : Int × Nat × DSet) => if b.1 < a.1 then b else a
  match d.pos.entries.filterMap of with
  | [] => none
  | x :: xs => some (xs.foldl nearer x).2

/-- The data set whose words are marked next and its slot: it is folded, and its start is the next that is armed (R176). A FIFO
has one mark (R354), so one that is marked must be begun or displaced first. -/
def Dev.markNext (d : Dev) : Option (Nat × DSet) :=
  d.nextStart.filter fun x => (x.2.last?).any fun k => k.step == .folded

/-- The marks are released as the first channel bit of a slot is written, and its content is taken from then on (R176, R354). -/
def Dev.releaseMarks (d : Dev) (g : Nat) : Dev :=
  let d := d.channelsOn.foldl (fun d n => d.putFifo n { d.fifo n with mark := none }) d
  ({ d with chan := { d.chan with taking := some (g, 0) } }).settleFifos

/-- The words of a slot's content that have been written when TPOS stands at `p` (R38, R100). -/
def wordsBy (rev : Bool) (g : Nat) (p : Int) : Nat :=
  let n := (if rev then slotStart rev g - p else p - slotStart rev g).toNat
  let welts := (List.range 150).countP fun j =>
    let e := if rev then 149 - j else j
    (150 * g + e) % 32 == 0 && decide (512 * j + 480 ≤ n)
  min segmentWords ((n - 96 * welts) / 64)

/-- The write channels take the words of the slot that have come due. -/
def Dev.takeWords (d : Dev) : Dev :=
  match d.chan.taking with
  | none => d
  | some (g, n) =>
    let m := max n (wordsBy d.reverse g d.tpos)
    if m = n then d
    else
      let d := d.channelsOn.foldl (fun d c => let f := d.fifo c; d.putFifo c { f with rd := (f.rd + (m - n)) % 8192 }) d
      ({ d with chan := { d.chan with taking := if segmentWords ≤ m then none else some (g, m) } }).settleFifos

/-- What is left of the slot's content goes with its end. -/
def Dev.endTaking (d : Dev) : Dev :=
  match d.chan.taking with
  | none => d
  | some (_, n) =>
    let d := d.channelsOn.foldl (fun d c => let f := d.fifo c; d.putFifo c { f with rd := (f.rd + (segmentWords - n)) % 8192 }) d
    ({ d with chan := { d.chan with taking := none } }).settleFifos

/-- FIFO_MARK (R15 step 4, R176, R182, R346): 150 eyelets before its slot, the write-encode FIFOs are marked at the first word
of the next data set and filled; the write channel and verify take its buffer, and the Last releases it. A poisoned word stops
appending (R339). -/
def Dev.fifoMark (d : Dev) : Dev :=
  match d.markNext with
  | none => d
  | some (g, x) =>
    let p := placeBefore d.reverse g 150
    if !d.clearTo p then d else
    let d := (d.reachAhead p).unmark
    let d := match d.poisonIn (d.bufAddr x.handle) 2097152 with
      | some a => (d.memoryError a).stopEnding 0x0308
      | none => d
    let d := d.channelsOn.foldl (fun d n =>
      let f := d.fifo n
      d.putFifo n { f with mark := some f.wr, wr := (f.wr + segmentWords) % 8192 }) d
    let d := d.settleFifos
    let d := if x.copies.length = 1 then ((d.share x.handle ownWrite).2.share x.handle ownVerify).2 else d
    let d := if x.copies.length = 1 then d.release x.handle ownLast else d
    d.modDset x.id fun x => x.modLast fun k => { k with step := .marked }

/-- The FIFOs rewind to their marks, which stay (R83, R176): the next word taken is the marked one, and the data set is held
from it (R84, which keeps what a rewind of R354 would discard; log 43). -/
def Dev.rewindFifos (d : Dev) : Dev :=
  d.channelsOn.foldl (fun d n =>
    let f := d.fifo n
    match f.mark with | some m => d.putFifo n { f with rd := m } | none => d) d

/-! ## Writing a slot -/

/-- The gap header of a slot (R102): its other fields are 0, but for those that make it a header, FORMAT and HCRC (R43; DESIGN CHOICE, log
47: R102 says 0 of all others). -/
def Session.gapHeader (s : Session) (member g : Nat) : Header :=
  ⟨5, false, s.place.band, s.place.width, member, s.place.lane, s.place.wrap, g, 0, 0, 0, 0, s.generation, 2 ^ 48 - 1⟩

/-- The level that a run of channel bits leaves (R103). -/
def levelAfter (level : Bool) (bits : List Bool) : Bool := bits.foldl (fun l b => l != b) level

/-- The channel bits of each enabled channel for a slot, in the order of writing (R38, R95, R100, R101): `content` gives a
channel's content. -/
def Dev.slotTracks (d : Dev) (s : Session) (g : Nat) (content : Nat → List Bool) : List (Nat × List Bool) :=
  let places := passOrder (wrapReverse s.place.wrap)
  d.channelsOn.map fun n => (n, layBits g ((s.place.lane + d.self) % 2 == 1) places (content n) 0)

/-! ## Precompensation and write timing (R92, R106, R109, R110) -/

/-- The precompensation of channel n for a transition p channel bits after the one before it and q before the next. -/
def Dev.classDelay (d : Dev) (n p q : Nat) : Int :=
  let f : Fld := match p, q with
    | 1, 1 => F.wchPrecompP1q1 | 1, _ => F.wchPrecompP1q2
    | 2, 1 => F.wchPrecompP2q1 | 2, _ => F.wchPrecompP2q2
    | _, 1 => F.wchPrecompP3q1 | _, _ => F.wchPrecompP3q2
  if d.flag F.wchCtrlPrecompEn then signed 6 (d.get (f.ix n)) else 0

/-- The delay of every transition of channel n: that of its timing group and its own. -/
def Dev.writeDelay (d : Dev) (n : Nat) : Int := (d.get (F.wchGroupDlyDly.ix (n / 32)) : Int) + signed 6 (d.get (F.wchPrecompFineDly.ix n))

/-- The times of transitions at channel bits in 1/64 channel bit, at least 32 apart; `last` is the transition before, as (bit, time),
and `next` the bit of the one after. One with none before it or after it within the writing is of the farthest class (DEDUCED,
log 44). -/
def shifted (delay : Nat → Nat → Int) (next : Option Int) : Option (Int × Int) → List Int → List Int
  | _, [] => []
  | last, k :: ks =>
    let p := match last with | some l => (k - l.1).toNat | none => 3
    let q := match ks.head?.or next with | some n => (n - k).toNat | none => 2
    let t := 64 * k + delay p q
    let t := match last with | some l => max t (l.2 + 32) | none => t
    t :: shifted delay next (some (k, t)) ks

/-- The channel bits with a transition (R103). -/
def transitionsOf (bits : List Bool) : List Int := (bits.zipIdx.filter Prod.fst).map fun b => (b.2 : Int)

/-- The transitions of a track's channel bits as they leave (R106). -/
def Dev.edgesOf (d : Dev) (last : Option (Int × Int)) (follows : Bool) (t : Nat × List Bool) : List Int :=
  shifted (fun p q => d.writeDelay t.1 + d.classDelay t.1 p q) (if follows then some 76800 else none) last (transitionsOf t.2)

/-- A slot goes out on the write channels, its first channel bit at the start of the slot, and the gate opens with it (R103,
R104). -/
def Dev.putSlot (d : Dev) (g : Nat) (tracks : List (Nat × List Bool)) : Dev :=
  let d := d.endTaking
  let opened := !d.flag F.posStatusWriteGate
  let start := fun (n : Nat) => if opened then false else d.chan.levels.getD n false
  let levels := tracks.foldl (fun ls t => setAt ls t.1 (levelAfter (start t.1) t.2)) d.chan.levels
  let follows := d.pos.regapFrom.isSome || d.startArmed (slotAfter d.reverse g 1)
  let last := fun (n : Nat) => if opened then none else (d.chan.edges.find? fun e => e.1 == n).map Prod.snd
  let edges := tracks.map fun t => (t.1, d.edgesOf (last t.1) follows t)
  let ends := (tracks.zip edges).filterMap fun (t : (Nat × List Bool) × (Nat × List Int)) =>
    match (transitionsOf t.1.2).getLast?, t.2.2.getLast? with
    | some k, some x => some (t.1.1, k - 76800, x - 64 * 76800)
    | _, _ => none
  let d := ((d.openGate).emit (.slot g tracks)).emit (.edges g edges)
  let d := { d with chan := { d.chan with levels := levels, edges := ends } }
  (d.modPlc fun p => { p with sinceSpeed := p.sinceSpeed + 1 }).checkCapacity

/-- A gap data set is written in a slot (R84, R102, R230, R251). -/
def Dev.putGap (d : Dev) (s : Session) (g : Nat) : Dev :=
  let h := s.gapHeader d.self g
  (d.putSlot g (d.slotTracks s g fun n => segmentContent h n [])).bumpBy C.plcReserve 15

/-- A copy is written in its slot: the content of its FIFOs, with the tail pad after an underrun (R101), as which a channel
also takes a poisoned track (R339). A data set whose FIFOs were never filled underruns whole. -/
def Dev.putData (d : Dev) (s : Session) (x : DSet) (k : Copy) (under : List Nat) : Dev :=
  let bad := (List.range 256).filter fun n => d.poisoned (d.bufAddr x.handle + trackOffset (logicalTrack k.slot n)) 8192
  let under := (under ++ bad).dedup
  let (w, d) := if under.isEmpty then (0, d) else d.fresh
  let filled := k.step == .marked
  let h := x.header k
  let content := fun (n : Nat) =>
    let l := logicalTrack k.slot n
    let bits := segmentContent h n (d.ddrBytes (d.bufAddr x.handle + trackOffset l) 8192)
    if !filled then [] else if under.contains n then bits.take (w.toNat % bits.length) else bits
  let dry := if filled then under.filter d.channelOn else d.channelsOn
  let d := (d.putSlot k.slot (d.slotTracks s k.slot content)).bumpBy C.wchUnderrun dry.length
  let d := if filled then d.releaseMarks k.slot else d
  let d := if 0 < k.copy then d.bumpBy C.plcReserve 15 else if x.typ = 3 then d.bumpBy C.plcReserve 15 else d
  let prov := decide (d.pos.sinceFly ≤ 6)
  let d := if prov then d.bump C.posProvisional else d
  let d := d.modSession fun s => { s with lastUsed := some k.slot }
  d.modDset x.id fun x => x.modLast fun k => { k with step := .written, wProv := prov, underrun := k.underrun || !dry.isEmpty }

/-- The verify window of a slot just begun is armed (R61, R79): 200 eyelets behind the write elements. A refusal leaves the
copy without a window. -/
def Dev.armWindow (d : Dev) (s : Session) (g id : Nat) : Dev :=
  let rev := wrapReverse s.place.wrap
  let t := slotStart rev g + (if rev then -(200 * 512) else 200 * 512)
  match d.arm ⟨t, rev, .window g⟩ with
  | some d => d
  | none => (d.bump C.posLate).modDset id fun x => x.modLast fun k => { k with noWindow := true }

/-- A data-set start is aborted (R83): the FIFOs rewind, the data set and those that follow it are placed again in order,
and while the position is uncertain a gap goes in the slot. -/
def Dev.abortStart (d : Dev) (s : Session) (e : Entry) (g : Nat) : Dev :=
  let here := d.eyelet
  let d := (d.cancelStarts.rewindFifos).bump C.posAbort
  let d := { d with pos := { d.pos with regapFrom := some here } }
  let d := d.dropEntries fun x => x == e
  if d.pos.mode == .uncertain then (d.putGap s g).modSession fun s => { s with place := { s.place with slot := slotAfter e.reverse g 1 } }
  else d.modSession fun s => { s with place := { s.place with slot := g } }

/-- DATA_SET_START (R78, R83, R84, R104): the next armed start fires and its slot is written, or is aborted; while a data
set aborted waits to be placed again, the gate stays open and every other slot gets a gap. -/
def Dev.dataSetStart (d : Dev) (under : List Nat) : Dev :=
  match d.plc.session with
  | none => d
  | some s =>
    let rev := wrapReverse s.place.wrap
    let g0 := d.slotAhead rev
    let waiting := d.pos.regapFrom.isSome && d.flag F.posStatusWriteGate && !d.startArmed g0
    if waiting then
      let d := d.reach (slotStart rev g0)
      let d := d.modSession fun s => if slotsFrom rev s.place.slot g0 < 0 then s
        else { s with place := { s.place with slot := slotAfter rev g0 1 } }
      d.putGap s g0
    else match d.nextEntries Entry.isStart with
      | [] => d
      | (e : Entry) :: _ =>
        match e.owner with
        | .dsStart g =>
          if d.pos.mode == .unset then d
          else
            let d := d.reach e.target
            if d.pos.mode != .locked then d.abortStart s e g
            else
              let x := d.occupant g
              let d := d.dropEntries fun y => y == e
              let d := { d with pos := { d.pos with regapFrom := none } }
              match x.bind fun y => y.last?.map fun k => (y, k) with
              | none => d.putGap s g
              | some (y, k) => (d.putData s y k under).armWindow s g y.id
        | _ => d

/-- COMPRESSION_JOB_START (R201, R339): poisoned input abandons the job and stops appending. -/
def Dev.compressionStart (d : Dev) (e : Nat) : Dev :=
  match d.poisonedInput e with
  | some a => (d.memoryError a).stopNow 0x0308
  | none => d.startCoding e

def execCompressionJobStart (engine : Nat) (s : State) : Host.Outcome State Fault Refusal :=
  s.doing fun d => (d.compressionStart engine).hostSettle
def execC3Fold (accError : Bool) (s : State) : Host.Outcome State Fault Refusal := s.doing fun d => (d.c3Fold accError).hostSettle
def execFifoMark (s : State) : Host.Outcome State Fault Refusal := s.doing fun d => d.fifoMark.hostSettle
def execDataSetStart (underrun : List Nat) (s : State) : Host.Outcome State Fault Refusal :=
  s.doing fun d => d.dataSetStart underrun

end Sys2Proof.Machine
end

