-- ==== Sys2Proof/Machine/ReadChannel.lean ====
section
/-!
DEFINITION. The read channels (R111 to R124): front end, equaliser, detector, sync search, header words, timing loss, defect spans,
erasure pointers, the LLRs of a codeword, and the retained samples. The analogue front end and the gains of the timing loop are
uninterpreted (log 10).
-/
namespace Sys2Proof.Machine

/-- Samples before the predicted first bit (R115). -/
def lead : Nat := 64

/-- The taps of a channel's equaliser. -/
def Dev.taps (d : Dev) (n : Nat) : List Int := (List.range 10).map fun t => signed 12 (d.get (F.rchEqTapCoef.ix (16 * n + t)))

/-- A defect detector that has seen nothing. -/
def DefectScan.zero : DefectScan := ⟨[], 0, 0, 0, 0, 0, none⟩

/-- The defect detector of a channel as a slot finds it (R121): it runs on from the slot that this one follows; else its reference
alone is kept. -/
def Dev.scanFor (d : Dev) (n : Nat) (slot : Int) : DefectScan :=
  match d.chan.scans.find? fun x => x.1 == n with
  | some (_, g, s) => if g = slot then s else { DefectScan.zero with ref := s.ref }
  | none => DefectScan.zero

/-- A channel's live parameters for a slot. -/
def Dev.readSet (d : Dev) (n slot : Nat) : ReadSet :=
  ⟨d.taps n, d.get F.rchCtrlEqMain, d.word F.rchTargetG0.addr, d.scanFor n slot⟩

/-- Whether a place of a slot, counted in the order of passing, lies in a welt (R37), and the welt bit there (R40). -/
def weltAt (slot : Nat) (rev : Bool) (p : Int) : Bool :=
  decide (0 ≤ p) && decide (p < 76800) && inWelt slot (if rev then 76799 - p.toNat else p.toNat)
def weltBitAt (rev odd : Bool) (p : Int) : Bool := weltBit odd ((if rev then 76799 - p.toNat else p.toNat) % 512)

/-! ## Equaliser (R116) -/

/-- A sum of products. -/
def dot : List Int → List Int → Int
  | a :: as, b :: bs => a * b + dot as bs
  | _, _ => 0

/-- The FIR output over `n` samples, in 1/256 ADC step; the list begins `EQ_MAIN` samples before the first. -/
def firRun (taps : List Int) : Nat → List Int → List Int
  | 0, _ => []
  | n + 1, xs => dot taps (xs.take 10) :: firRun taps n xs.tail

/-- The FIR output of every sample. -/
def ReadSet.equalise (r : ReadSet) (xs : List Int) : List Int :=
  firRun r.taps xs.length (List.replicate r.main 0 ++ xs)

/-! ## Defect detector (R121) -/

/-- Thresholds of the detector (R128). -/
structure DefectCfg where
  dropTh    : Nat
  dropLen   : Nat
  clipCount : Nat
  margin    : Int
  deriving DecidableEq, Repr

def Dev.defectCfg (d : Dev) : DefectCfg :=
  ⟨d.get F.rchDefectDropTh, d.get F.rchDefectDropLen, d.get F.rchDefectClipCount, d.get F.rchDefectMargin⟩

/-- A sample at either end of the range is clipped (R114). -/
def clipped (x : Int) : Bool := x == 63 || x == -64

/-- One channel bit: its place, the magnitude of the FIR output and whether its sample is clipped; with a span that closes. The
reference is the mean of whole blocks of 4,096 channel bits outside defects (log 24). -/
def DefectScan.next (c : DefectCfg) (s : DefectScan) (x : Int × Nat × Bool) : DefectScan × Option (Int × Int) :=
  let last := (x.2 :: s.last).take 16
  let low := decide (last.length = 16) && decide ((last.map Prod.fst).sum < c.dropTh * s.ref)
  let below := if low then s.below + 1 else 0
  let clips := decide (c.clipCount ≤ (last.filter Prod.snd).length)
  let bad := (low && decide (c.dropLen ≤ below)) || clips
  match s.opened with
  | some o =>
    let quiet := if bad then 0 else s.quiet + 1
    if 16 ≤ quiet then
      ({ s with last := last, below := below, quiet := 0, opened := none }, some (o - c.margin, x.1 + c.margin))
    else ({ s with last := last, below := below, quiet := quiet }, none)
  | none =>
    let full := decide (4096 ≤ s.count + 1)
    let sum := s.sum + x.2.1
    let s := { s with last := last, below := below, ref := if full then sum / 4096 else s.ref
                      sum := if full then 0 else sum, count := if full then 0 else s.count + 1 }
    (if bad then { s with opened := some x.1, quiet := 0 } else s, none)

/-- The defect spans of a run of channel bits, and the detector after it. -/
def defectRun (c : DefectCfg) : DefectScan → List (Int × Nat × Bool) → List (Int × Int) × DefectScan
  | s, [] => ([], s)
  | s, x :: xs =>
    let (s, sp) := s.next c x
    let (spans, s) := defectRun c s xs
    (sp.toList ++ spans, s)

/-- The defect spans of a segment, in places counted from the predicted first bit, and the detector after it; a defect still open
at the end runs to it, and on into the next segment. -/
def defectSpans (c : DefectCfg) (s : DefectScan) (ys xs : List Int) : List (Int × Int) × DefectScan :=
  let zs := ((ys.zip xs).drop lead).take 76800
  let (spans, s) := defectRun c s (zs.zipIdx.map fun z => ((z.2 : Nat), z.1.1.natAbs, clipped z.1.2))
  match s.opened with
  | some o => (spans ++ [(o - c.margin, 76800)], { s with opened := some (o - 76800) })
  | none => (spans, s)

/-- Whether a place lies in a defect span. -/
def inSpans (spans : List (Int × Int)) (p : Int) : Bool := spans.any fun s => decide (s.1 ≤ p) && decide (p ≤ s.2)

/-! ## Front end, gain and timing (R112 to R114) -/

/-- What a slot's front end works with: the CTLE's zero and boost (R112), the place of channel bit 0 in 1/64 channel bit (R113), the
equaliser and defect thresholds, and where the welts lie. -/
structure FrontCfg where
  zero   : Nat
  boost  : Nat
  base   : Int
  set    : ReadSet
  defect : DefectCfg
  slot   : Nat
  rev    : Bool

/-- The front end between two blocks of 32 channel bits: VGA gain, timing loop, the place where timing was lost, the last nine
samples, what the eyelet's FIR output sums to and over how many bits, the defect detector, and what has been taken so far, in
reverse. -/
structure Front where
  gain    : Nat
  loop    : Int × Int
  lost    : Option Int
  recent  : List Int
  mag     : Nat × Nat
  scan    : DefectScan
  samples : List Int
  gains   : List Nat
  phases  : List Int

/-- The AGC's step at the end of an eyelet (R112): one step of 0.125 dB toward a mean magnitude of 24 ADC steps, which is 6,144 in the
unit of the FIR output. -/
def agcStep (gain : Nat) (mag : Nat × Nat) : Nat :=
  if mag.1 < 6144 * mag.2 then min 255 (gain + 1) else if 6144 * mag.2 < mag.1 then gain - 1 else gain

/-- The front end takes 32 channel bits from the place `p` on. FIR output comes as soon as its samples are there; welt bits and bits
inside a defect move neither the gain nor the timing (R114). A loop past 2 channel bits is lost for the rest of the slot. -/
def Front.block (c : FrontCfg) (signal : List Int) (f : Front) (p : Int) : Front :=
  let xs := (List.range 32).map fun i =>
    satInt (-64) 63 (Config.frontEnd c.zero c.boost f.gain signal (64 * (p + (i : Nat)) + c.base + f.loop.1))
  let all := f.recent ++ xs
  let ys := (firRun c.set.taps 32 all).zipIdx.map fun y =>
    (p - 9 + ((y.2 + c.set.main : Nat) : Int), y.1, clipped (all.getD (y.2 + c.set.main) 0))
  let scan := (defectRun c.defect f.scan (ys.map fun y => (y.1, y.2.1.natAbs, y.2.2))).2
  let use := (ys.filter fun y => !weltAt c.slot c.rev y.1).map fun y => y.2.1
  let use := if scan.opened.isSome || f.scan.opened.isSome then [] else use
  let loop := if use.isEmpty || f.lost.isSome then f.loop else Config.timingStep f.loop use
  let gone := decide (128 < loop.1.natAbs)
  let mag := (f.mag.1 + (use.map Int.natAbs).sum, f.mag.2 + use.length)
  let f := { f with loop := if gone then (0, 0) else loop, lost := if gone then f.lost.or (some (p + 32)) else f.lost
                    recent := all.drop 32, mag := mag, scan := scan, samples := xs.reverse ++ f.samples }
  if (p + 32) % 512 = 0 && decide (0 < p) then
    { f with gain := agcStep f.gain mag, mag := (0, 0), gains := f.gain :: f.gains, phases := f.loop.1 :: f.phases }
  else f

/-- The front end takes `n` blocks. -/
def frontRun (c : FrontCfg) (signal : List Int) : Nat → Int → Front → Front
  | 0, _, f => f
  | n + 1, p, f => frontRun c signal n (p + 32) (f.block c signal p)

/-- A channel's front end as a slot finds it: the gain that its AGC holds, its timing loop, and what follows from `AFE` (R112,
R113, R130). -/
def Dev.frontCfg (d : Dev) (n slot : Nat) (rev : Bool) : FrontCfg :=
  { zero := d.chan.ctleFreq * (d.get (F.rchAfeCtleZero.ix n) + 1) / 64, boost := d.get (F.rchAfeCtleBoost.ix n)
    base := (d.get (F.rchGroupDlyDly.ix (n / 32)) : Int) + signed 8 (d.get (F.rchAfePhase.ix n))
    set := d.readSet n slot, defect := d.defectCfg, slot := slot, rev := rev }

/-- The timing loop of a channel. -/
def Dev.loopOf (d : Dev) (n : Nat) : Int × Int := ((d.chan.loops.find? fun x => x.1 == n).map Prod.snd).getD (0, 0)

/-- A channel takes the samples of a slot (R111 to R114): what is retained of it (R123), and the front end after it. -/
def Dev.sampleSlot (d : Dev) (slot : Nat) (rev : Bool) (t : TrackSignal) : TrackRead × Front :=
  let c := d.frontCfg t.channel slot rev
  let f := frontRun c t.signal 2404 (-64)
    ⟨d.get (F.rchLiveVgaNow.ix t.channel), d.loopOf t.channel, none, List.replicate 9 0, (0, 0), c.set.scan, [], [], []⟩
  (⟨t.channel, f.samples.reverse, f.gains.reverse, f.phases.reverse, f.lost⟩, f)

/-! ## Detector (R117, R118) -/

/-- The coefficients G0 to G4 of a target word (R127). -/
def targetOf (w : Word) : List Int := (List.range 5).map fun i => signed 8 (w.toNat / 256 ^ i % 256)

/-- The response of a target to the write-current levels a_k, a_(k−1) and so on (R117). -/
def response (g levels : List Int) : Int := dot g levels

/-- A level as +1 or −1. -/
def levelOf (a : Bool) : Int := if a then 1 else -1

/-- An equalised sample with the channel bit, where it is known. -/
abbrev Observed := Int × Option Bool

/-- A cost that no path of the detector prefers. -/
def wall : Nat := 2 ^ 64

/-- The cost of level `a` after state `s`, whose bit i is a_(k−1−i): the square of the error, and no path against a known bit. -/
def branchCost (g : List Int) (x : Observed) (s : Nat) (a : Bool) : Nat :=
  let e := x.1 - 256 * response g (levelOf a :: (List.range 4).map fun i => levelOf (bitAt s i))
  (e * e).natAbs + if x.2.any fun b => b != (a != bitAt s 0) then wall else 0

/-- The state after level `a`. -/
def stateAfter (s : Nat) (a : Bool) : Nat := (2 * s + b2n a) % 16

/-- The least costs of the 16 states after a channel bit, from those before it. -/
def forwardStep (g : List Int) (al : List Nat) (x : Observed) : List Nat := (List.range 16).map fun t =>
  let a := bitAt t 0
  min (al.getD (t / 2) 0 + branchCost g x (t / 2) a) (al.getD (t / 2 + 8) 0 + branchCost g x (t / 2 + 8) a)

/-- The least costs to the end of the 16 states before a channel bit, from those after it. -/
def backwardStep (g : List Int) (be : List Nat) (x : Observed) : List Nat := (List.range 16).map fun s =>
  min (branchCost g x s false + be.getD (stateAfter s false) 0) (branchCost g x s true + be.getD (stateAfter s true) 0)

/-- The costs before every channel bit. -/
def forwardRun (g : List Int) : List Nat → List Observed → List (List Nat)
  | _, [] => []
  | al, x :: xs => al :: forwardRun g (forwardStep g al x) xs

/-- The costs to the end before every channel bit, and after the last. -/
def backwardRun (g : List Int) : List Observed → List (List Nat)
  | [] => [List.replicate 16 0]
  | x :: xs => let be := backwardRun g xs; backwardStep g (be.headD []) x :: be

/-- What max-log-MAP says of a channel bit: the LLR that it is 0, in units of 0.5 and 6 bits, and the level. -/
def softOf (g : List Int) (al be : List Nat) (x : Observed) : Int × Bool :=
  let paths := (List.range 16).flatMap fun s => [false, true].map fun a =>
    (a, a != bitAt s 0, al.getD s 0 + branchCost g x s a + be.getD (stateAfter s a) 0)
  let best := fun (p : Bool × Bool × Nat → Bool) => (((paths.filter p).map fun y => y.2.2).min?).getD 0
  let llr : Int := (best fun y => y.2.1) - (best fun y => !y.2.1 : Nat)
  (satInt (-32) 31 (llr / (Config.llrUnit + 1 : Nat)), decide ((best fun y => y.1) < best fun y => !y.1))

/-- The detector over one window. -/
def softRun (g : List Int) (xs : List Observed) : List (Int × Bool) :=
  let al := forwardRun g (List.replicate 16 0) xs
  let be := (backwardRun g xs).tail
  ((al.zip be).zip xs).map fun y => softOf g y.1.1 y.1.2 y.2

/-- The detector (R118): windows of 256 channel bits with 64 of overlap on each side. -/
def detect (g : List Int) (xs : List Observed) : List (Int × Bool) :=
  (List.range ((xs.length + 255) / 256)).flatMap fun w =>
    let pre := min 64 (256 * w)
    ((softRun g ((xs.drop (256 * w - pre)).take (pre + 320))).drop pre).take 256

/-- The channel bits that are known at a place of a segment (R118): the sync pattern and the welts. -/
def knownBit (slot : Nat) (rev odd : Bool) (p : Nat) : Option Bool :=
  if p < 40 then syncBits[p]? else if weltAt slot rev p then some (weltBitAt rev odd p) else none

/-! ## Sync and header (R115) -/

/-- Whether the sync pattern stands at a place of hard decisions: its second transition and both runs, with or without the first
transition. -/
def syncAt (hard : List Bool) (k : Nat) : Bool :=
  hard.getD (k + 20) false && (List.range 19).all fun i => !hard.getD (k + 1 + i) false && !hard.getD (k + 21 + i) false

/-- The offset of the sync pattern from the predicted first bit; of several matches the earliest counts (DESIGN CHOICE, log 44: the
rule names none). -/
def findSync (hard : List Bool) : Option Int :=
  ((List.range 129).find? fun k => syncAt hard k).map fun (k : Nat) => (k : Int) - lead

/-- The header words from hard decisions: the bytes, where every word is valid, and how many are not. -/
def headerWords (hard : List Bool) : Option (List Byte) × Nat :=
  let ws := (cutBits 33 7 ((hard.drop 40).take 231)).map demodWord
  let bad := ws.countP Option.isNone
  (if bad = 0 then some (bitsToBytes 28 (ws.flatMap fun w => w.getD [])) else none, bad)

/-! ## A segment as a channel sees it -/

/-- What the channel makes of a segment's samples: sync, the detector's output from the segment's first bit on, the header's bytes and
its invalid words, defect spans and the place from which timing was lost, both counted from that first bit, the equalised samples
from it on, its place among the samples, and the defect detector after the slot. -/
structure SegView where
  sync   : Option Int
  soft   : List (Int × Bool)
  header : Option (List Byte)
  badWords : Nat
  spans  : List (Int × Int)
  lost   : Option Int
  ys     : List Int
  first  : Nat
  scan   : DefectScan

/-- View a segment (R111, R115); `odd` says that the track lies at an odd lane. -/
def segView (r : ReadSet) (c : DefectCfg) (slot : Nat) (rev odd : Bool) (t : TrackRead) : SegView :=
  let g := targetOf r.target
  let ys := r.equalise t.samples
  let hard := fun (xs : List (Int × Bool)) => xs.map fun x => decide (x.1 < 0)
  let sync := findSync (hard (detect g ((ys.take 256).map fun y => (y, none))))
  let off := sync.getD 0
  let first := ((lead : Int) + off).toNat
  let mine := (ys.drop first).take 76800
  let soft := detect g (mine.zipIdx.map fun y => (y.1, knownBit slot rev odd y.2))
  let hw := headerWords (hard soft)
  let ds := defectSpans c r.scan ys t.samples
  ⟨sync, soft, hw.1, hw.2, ds.1.map fun s => (s.1 - off, s.2 - off), t.lost.map fun l => l - off, mine, first, ds.2⟩

/-- The LLR of the channel bit at a place (R113, R118). -/
def SegView.llr (v : SegView) (p : Nat) : Int :=
  if v.lost.any fun l => decide (l ≤ (p : Int)) then 0 else (v.soft.getD p (0, false)).1

/-- Whether the bit at a place adapts: it lies neither in a welt nor in a defect (R114). -/
def SegView.keeps (v : SegView) (slot : Nat) (rev : Bool) (p : Nat) : Bool := !weltAt slot rev p && !inSpans v.spans p

/-- What the LMS errors of a segment sum to for each tap (R116): over the bits that adapt, the error of the FIR output against the
target's response to the detected levels, times the tap's sample. `xs` begins at the first tap's sample of the first bit and
`levels` with the four levels before it, latest first. -/
def lmsSums (g : List Int) : List Int → List Int → List (Int × Bool × Bool) → List Int → List Int
  | _, _, [], acc => acc
  | xs, levels, (y, a, keep) :: rest, acc =>
    let levels := (levelOf a :: levels).take 5
    let e := y - 256 * response g levels
    let acc := if keep then List.zipWith (fun s x => s + e * x) acc (xs.take 10) else acc
    lmsSums g xs.tail levels rest acc

/-- The taps after a segment (R116), with steps of 2^−(10 + ADAPT_MU). DESIGN CHOICE, log 44: the steps of a segment are summed,
rounded down and taken together at its end, and a tap saturates. -/
def SegView.adapt (v : SegView) (r : ReadSet) (taps : List Int) (mu slot : Nat) (rev : Bool) (samples : List Int) : List Int :=
  let xs := (List.replicate r.main 0 ++ samples).drop v.first
  let zs := (v.ys.zip v.soft).zipIdx.map fun z => (z.1.1, z.1.2.2, v.keeps slot rev z.2)
  let sums := lmsSums (targetOf r.target) xs [] zs (List.replicate 10 0)
  List.zipWith (fun t s => satInt (-2048) 2047 (t - s / 2 ^ (10 + mu))) taps sums

/-! ## Codewords (R120, R122) -/

/-- The places of the channel bits of codeword c (R38). -/
def codewordPlaces (slot : Nat) (rev : Bool) (c : Nat) : List Nat :=
  ((contentPlaces slot rev).drop (272 + 9504 * c)).take 9504

/-- The code-bit LLRs of a word of 33 channel bits, and whether the word was invalid (R120): a form flag of LLR 0 or above
counts as 1, as the rule says (log 25). Code bits in a defect span take 0. -/
def demodLLR (modLlr : Int) (spans : List (Int × Int)) (places : List Nat) (llrs : List Int) : List Int × Bool :=
  let hole := fun (p : Nat) => inSpans spans p
  if 0 ≤ llrs.headD 0 then (List.zipWith (fun p l => if hole p then 0 else l) places.tail llrs.tail, false)
  else
    let cs := false :: llrs.tail.map fun l => decide (l < 0)
    match demodWord cs with
    | some ds => (if places.any hole then List.replicate 32 0 else ds.map fun b => if b then -modLlr else modLlr, false)
    | none => (List.replicate 32 0, true)

/-- Cut a list into `n` runs of `k`. -/
def cutList {α : Type} (k : Nat) : Nat → List α → List (List α)
  | 0, _ => []
  | n + 1, xs => xs.take k :: cutList k n (xs.drop k)

/-- The 9,216 LLRs that C1 takes for codeword c of a track (R120) and the invalid words among its 288. -/
def SegView.codeword (v : SegView) (modLlr : Int) (slot : Nat) (rev : Bool) (c track member : Nat) : List Int × Nat :=
  let ps := codewordPlaces slot rev c
  let ws := (cutList 33 288 ps).map fun w => demodLLR modLlr v.spans w (w.map fun p => v.llr p)
  let llrs := ws.flatMap Prod.fst
  (List.zipWith (fun (o : Bool) l => if o then -l else l) (scramOf c track slot member) llrs, ws.countP Prod.snd)

/-- An erasure pointer (R122): the code bits of a codeword that a defect span has set to LLR 0, or the whole codeword. -/
structure Pointer where
  channel  : Nat
  slot     : Nat
  codeword : Nat
  bits     : Option (Nat × Nat)
  deriving DecidableEq, Repr

/-- The code bits of a codeword that a span sets to 0: those whose own channel bit lies in it, and all 32 of a word of the long form
that it touches (R120, R121). -/
def SegView.struck (v : SegView) (places : List Nat) (span : Int × Int) : List Nat :=
  let hole := fun (p : Nat) => inSpans [span] p
  ((cutList 33 288 places).zipIdx.map fun w =>
    if 0 ≤ v.llr (w.1.headD 0) then (w.1.tail.zipIdx.filter fun p => hole p.1).map fun p => 32 * w.2 + p.2
    else if w.1.any hole then (List.range 32).map fun i => 32 * w.2 + i else []).flatten

/-- The erasure pointers of codeword c: one for each span that strikes it, or past MAX_PTR one that marks all of it as erased. -/
def SegView.pointers (v : SegView) (maxPtr channel slot : Nat) (rev : Bool) (c : Nat) : List Pointer :=
  let ps := codewordPlaces slot rev c
  let each := v.spans.filterMap fun s =>
    let bits := v.struck ps s
    match bits.head?, bits.getLast? with
    | some a, some b => some (⟨channel, slot, c, some (a, b)⟩ : Pointer)
    | _, _ => none
  if maxPtr < each.length then [⟨channel, slot, c, none⟩] else each

/-! ## Retention (R123) -/

/-- Keep a slot's samples: the two most recent, a pinned one kept. -/
def Dev.retain (d : Dev) (slot : Nat) (reads : List TrackRead) (sets : List (Nat × ReadSet)) : Dev :=
  let pinned := d.chan.retained.filter fun x => d.ecc.pin == some x.slot
  let others := d.chan.retained.filter fun x => d.ecc.pin != some x.slot
  let keep := (⟨slot, reads, sets⟩ : Retained) :: (if pinned.isEmpty then others.take 1 else pinned)
  ({ d with chan := { d.chan with retained := keep } }).set F.rchRetainLatestSlot slot

/-- Pin a retained slot, where none is pinned; a slot no longer retained is refused and counted. -/
def Dev.pinSlot (d : Dev) (slot : Nat) : Bool × Dev :=
  if d.ecc.pin.isNone && d.chan.retained.any fun x => x.slot == slot then
    (true, (({ d with ecc := { d.ecc with pin := some slot } }).set F.rchRetainPinValid 1).set F.rchRetainPinSlot slot)
  else (false, d.bump C.rchPinRefused)

/-- Give the pin up. -/
def Dev.unpin (d : Dev) : Dev := ({ d with ecc := { d.ecc with pin := none } }).set F.rchRetainPinValid 0

/-! ## A slot passes the read elements -/

/-- Whether the tracks that the heads follow lie at odd lanes (R33). -/
def Dev.oddLane (d : Dev) : Bool := (d.tce.lane + d.self) % 2 == 1

/-- What reading a slot leaves in a channel's registers and counters (R112 to R116, R121): live gain and phase, sync and
timing losses, defects, clipped samples, the adapted taps. -/
def Dev.channelPassed (d : Dev) (t : TrackRead) (f : Front) (r : ReadSet) (v : SegView) (slot : Nat) (rev : Bool) : Dev :=
  let n := t.channel
  let phase := satInt (-128) 127 (signed 8 (d.get (F.rchAfePhase.ix n)) + f.loop.1)
  let d := (d.set (F.rchLivePhaseNow.ix n) (unsigned 8 phase)).set (F.rchLiveVgaNow.ix n) f.gain
  let d := if v.sync.isNone then (d.set (F.rchLiveSyncMissSeen.ix n) 1).bump C.rchSyncMiss else d
  let d := if t.lost.isSome then (d.set (F.rchLiveTimingLostSeen.ix n) 1).bump C.rchTimingLost else d
  let opened := v.spans.length - b2n (r.scan.opened.isSome)
  let d := if opened = 0 then d else (d.set (F.rchLiveDefectSeen.ix n) 1).bumpBy C.rchDefect opened
  let d := d.bumpBy C.rchClip (((t.samples.drop lead).take 76800).countP clipped)
  let d := d.bumpBy C.rchModInvalid v.badWords
  let g : Int := if rev then (slot : Int) - 1 else slot + 1
  let scans := (n, g, v.scan) :: d.chan.scans.filter fun x => x.1 != n
  let loops := (n, f.loop) :: d.chan.loops.filter fun x => x.1 != n
  let d := { d with chan := { d.chan with scans := scans, loops := loops } }
  if d.flag F.rchCtrlAdaptEn then
    (v.adapt r r.taps (d.get F.rchCtrlAdaptMu) slot rev t.samples).zipIdx.foldl (fun (d : Dev) k =>
      d.set (F.rchEqTapCoef.ix (16 * n + k.2)) (unsigned 12 k.1)) d
  else d

/-- What one channel makes of a slot. -/
structure Passed where
  read  : TrackRead
  front : Front
  set   : ReadSet
  view  : SegView

/-- A channel sees a slot pass. -/
def Dev.channelSees (d : Dev) (slot : Nat) (rev : Bool) (t : TrackSignal) : Passed :=
  let x := d.sampleSlot slot rev t
  let r := d.readSet t.channel slot
  ⟨x.1, x.2, r, segView r d.defectCfg slot rev d.oddLane x.1⟩

/-- A slot passes: every enabled channel's view of it, its registers, and the samples kept. -/
def Dev.slotPassed (d : Dev) (slot : Nat) (rev : Bool) (reads : List TrackSignal) : List Passed × Dev :=
  let ps := (reads.filter fun t => d.channelOn t.channel).map fun t => d.channelSees slot rev t
  let d' := ps.foldl (fun (e : Dev) p => e.channelPassed p.read p.front p.set p.view slot rev) d
  (ps, d'.retain slot (ps.map Passed.read) (ps.map fun p => (p.read.channel, p.set)))

end Sys2Proof.Machine
end

