-- ==== Sys2Proof/Machine/Verify.lean ====
section
/-!
DEFINITION. Reading a slot for verify or for a read (R61, R111, R146, R149 to R151), and the decision of verify with the dead
tracks (R168 to R175).
-/
namespace Sys2Proof.Machine

/-! ## The data-set header (R45) -/

/-- The valid headers of a decode: track and header. -/
def Decode.valid (x : Decode) : List (Nat × Header) :=
  x.headers.filterMap fun h => (Header.ofTrack h.2 h.1).map fun k => (h.1, k)

/-- The value that most valid headers hold; ties go to the higher GENERATION, then COPY, and in verify then to the header that
was placed. -/
def majority (hs : List Header) (placed : Option Header) : Option Header :=
  let votes := hs.dedup.map fun h => (h, hs.countP fun k => k == h)
  let top := (votes.map Prod.snd).foldl max 0
  let best := (votes.filter fun v => v.2 == top).map Prod.fst
  let g := (best.map Header.generation).foldl max 0
  let best := best.filter fun h => h.generation == g
  let c := (best.map Header.copy).foldl max 0
  let best := best.filter fun h => h.copy == c
  match best with
  | [] => none
  | [h] => some h
  | _ => placed.bind fun p => if best.contains p then some p else none

/-! ## Where reading is -/

/-- The slot that the read elements reach next: they follow the write elements by 200 eyelets (R61). -/
def Dev.readSlot (d : Dev) (rev : Bool) : Nat :=
  if rev then ((d.tpos + 102400 + 1) / 76800 - 1).toNat else ((d.tpos - 102400 + 76799) / 76800).toNat

/-- TPOS when the read elements reach the first channel bit of a slot (R61). -/
def readStart (rev : Bool) (g : Nat) : Int := slotStart rev g + (if rev then -102400 else 102400)

/-- The data set and copy that verify awaits in a slot. -/
def Dev.writtenAt (d : Dev) (g : Nat) : Option (DSet × Copy) :=
  d.plc.dsets.findSome? fun x => if x.member != d.self then none else
    (x.copies.find? fun k => k.slot == g && k.step == .written).map fun k => (x, k)

/-- A slot has been read into a new P3 buffer: headers, sync offsets, nothing decoded yet. -/
def newDecode (slot wrap member : Nat) (verify : Bool) (h : Nat) (vs : List Passed) : Decode :=
  { slot := slot, wrap := wrap, member := member, verify := verify
    headers := vs.filterMap fun v => v.view.header.map fun b => (v.read.channel, b)
    syncs := vs.filterMap fun v => v.view.sync.map fun o => (v.read.channel, o)
    reports := [], handle := h, c2Bad := none, head := none, headerBad := [], group := 0, index := 0, corrected := false
    content := true, klass := none, step := 0, merged := [] }

/-- Add a decode. -/
def Dev.addDecode (d : Dev) (x : Decode) : Dev := { d with ecc := { d.ecc with decodes := d.ecc.decodes ++ [x] } }

/-- Change the decode in a P3 buffer. -/
def Dev.modDecode (d : Dev) (h : Nat) (f : Decode → Decode) : Dev :=
  { d with ecc := { d.ecc with decodes := d.ecc.decodes.map fun x => if x.handle == h then f x else x } }

/-- Forget a decode and give its buffer back. -/
def Dev.dropDecode (d : Dev) (x : Decode) : Dev :=
  ({ d with ecc := { d.ecc with decodes := d.ecc.decodes.filter fun y => y.handle != x.handle } }).release x.handle ownVerify

/-- The slot of a verify window passes the read elements (R170 step 1): its data set is read into a P3 buffer of verify, of
which there are at most three (R169). -/
def Dev.verifyRead (d : Dev) (e : Entry) (g : Nat) (reads : List TrackSignal) : Dev :=
  if d.pos.mode != .locked && d.pos.mode != .uncertain then d
  else if 3 ≤ (d.ecc.decodes.filter Decode.verify).length then d
  else match d.allocate 3 ownVerify ownVerify with
    | (none, d) => d
    | (some h, d) =>
      let d := (d.reach e.target).dropEntries fun x => x == e
      let (vs, d) := d.slotPassed g e.reverse reads
      match d.writtenAt g with
      | none => d.release h ownVerify
      | some (x, k) =>
        let prov := decide (d.pos.sinceFly ≤ 6) || d.pos.mode == .uncertain
        let d := if prov && !k.wProv then d.bump C.posProvisional else d
        let mark := fun (y : Copy) => if y.slot == g && y.step == .written then { y with step := .read, rProv := prov } else y
        let d := d.modDset x.id fun y => { y with copies := y.copies.map mark }
        d.addDecode (newDecode g x.wrap d.self true h vs)

/-! ## C1 (R144 to R146) -/

/-- The next decode that lacks a codeword's report; a disabled channel reports too, and so does one that has no samples of the slot
(R94, R169). -/
def Dev.wantsC1 (d : Dev) (n c : Nat) : Option Decode :=
  d.ecc.decodes.find? fun x => x.c2Bad.isNone && !(x.reports.any fun r => r.channel == n && r.codeword == c)

/-- The WRAP of insole data sets, which are written forward at lane 37 (R239, R240). -/
def insoleWrap : Nat := 0xFF
def insoleLane : Nat := 37

/-- Whether a track of a decode lies at an odd lane (R33, R40). -/
def Dev.oddTrack (d : Dev) (x : Decode) : Bool :=
  ((if x.wrap = insoleWrap then insoleLane else (d.wrapPlace x.wrap).lane) + x.member) % 2 == 1

/-- What C1 makes of a codeword: the report, the invalid words, and the information bytes where it ran. -/
def decodeC1 (norm limit maxPtr : Nat) (modLlr : Int) (v : SegView) (x : Decode) (n c : Nat) :
    C1Report × Nat × Option (List Byte) :=
  let rev := wrapReverse x.wrap
  let ptrs := v.pointers maxPtr n x.slot rev c
  let ptr := ptrs.length
  let (llrs, bad) := v.codeword modLlr x.slot rev c n x.member
  if ptrs.any fun p => p.bits.isNone then (⟨n, c, false, 0, 0, ptr⟩, bad, none)
  else
    let res := c1Decode norm limit llrs
    (⟨n, c, res.ok, res.iters, res.flips, ptr⟩, bad, some res.bytes)

/-- Write a codeword's bytes in a decode's buffer (R48, R146). -/
def Dev.putCodeword (d : Dev) (x : Decode) (n c : Nat) (bs : List Byte) : Dev :=
  d.putDdr (d.bufAddr x.handle + trackOffset (logicalTrack x.slot n) + 1024 * c) bs

/-- A codeword of a disabled channel: every LLR is 0 (R94). -/
def blankC1 (norm limit n c : Nat) : C1Report × Nat × Option (List Byte) :=
  let res := c1Decode norm limit (List.replicate 9216 0)
  (⟨n, c, res.ok, res.iters, res.flips, 0⟩, 0, some res.bytes)

/-- A codeword's report enters its data set and the counters; one that was wholly erased was not decoded (R145, R167). -/
def Dev.noteC1 (d : Dev) (x : Decode) (r : C1Report × Nat × Option (List Byte)) : Dev :=
  let d := match r.2.2 with | some bs => (d.putCodeword x r.1.channel r.1.codeword bs).bump C.eccC1Cw | none => d
  let d := (d.bumpBy C.eccC1Iter r.1.iters).bumpBy C.rchModInvalid r.2.1
  let d := if r.1.ok then d else d.bump C.eccC1Fail
  d.modDecode x.handle fun x => { x with reports := x.reports ++ [r.1] }

/-- A codeword of a decode is decoded from the samples of its slot and reported. -/
def Dev.c1One (d : Dev) (x : Decode) (n c : Nat) : Dev :=
  let norm := d.get F.eccC1CfgNorm
  let limit := d.get F.eccC1CfgIterMax
  match d.chan.retained.find? fun r => r.slot == x.slot with
  | none => d
  | some s =>
    match s.reads.find? (fun t => t.channel == n), s.sets.find? (fun t => t.1 == n) with
    | some t, some r =>
      let v := segView r.2 d.defectCfg x.slot (wrapReverse x.wrap) (d.oddTrack x) t
      d.noteC1 x (decodeC1 norm limit (d.get F.rchDefectMaxPtr) (d.get F.rchCtrlModLlr) v x n c)
    | _, _ => if n < 256 then d.noteC1 x (blankC1 norm limit n c) else d

/-- C1_CODEWORD_DECODED (R144 to R146): the codeword is decoded from the samples of its slot and reported. -/
def Dev.c1Decoded (d : Dev) (n c : Nat) : Dev :=
  if 8 ≤ c then d else
  match d.wantsC1 n c with
  | none => d
  | some x => d.c1One x n c

/-- Every codeword of a decode is decoded. -/
def Dev.c1All (d : Dev) (x : Decode) : Dev :=
  (List.range 256).foldl (fun (d : Dev) n => (List.range 8).foldl (fun (d : Dev) c => d.c1One x n c) d) d

/-! ## C2 (R147 to R151) -/

/-- Whether a track's symbols are erased as a whole (R149); tracks that verify has declared dead count while it judges
(R172; log 42). -/
def Dev.trackErased (d : Dev) (x : Decode) (n : Nat) : Bool :=
  !d.channelOn n || (x.verify && d.ecc.deadVfy.contains n) || x.headerBad.contains n

/-- The erasures of column c, by logical track. -/
def Dev.columnErasures (d : Dev) (x : Decode) (c : Nat) : List Bool :=
  let bad := fun (n : Nat) => d.trackErased x n || !(x.reports.any fun r => r.channel == n && r.codeword == c && r.ok)
  (List.range 256).map fun l => bad ((l + 16 + 16 * (x.slot % 16)) % 256)

/-- A C2 codeword after decoding: its symbols, the errors corrected, and whether it failed and held erasures. -/
structure C2Word where
  symbols : List Nat
  errors  : Nat
  failed  : Bool
  erased  : Bool

/-- Decode one C2 codeword (R150); a failed one is left unchanged. -/
def c2Word (tMax : Nat) (word : List Nat) (es : List Bool) : C2Word :=
  match rsDecode 16 tMax c2Exps word es with
  | some w => ⟨w.1, w.2, false, es.any id⟩
  | none => ⟨word, 0, true, es.any id⟩

/-- What C2 makes of a buffer: the tracks corrected, the codewords that failed, the symbols corrected as errors and whether
anything was corrected or erased. -/
structure C2Run where
  tracks  : List (List Nat)
  bad     : List Nat
  errors  : Nat
  touched : Bool

/-- Decode the 4,096 codewords of a data set. -/
def c2Run (tMax : Nat) (tracks : List (List Nat)) (erased : Nat → List Bool) : C2Run :=
  let one := fun (s : Nat) => c2Word tMax (tracks.map fun t => t.getD s 0) (erased (s / 512))
  let ws : List C2Word := (List.range 4096).map one
  let errs := (ws.map C2Word.errors).sum
  ⟨(List.range 256).map fun l => ws.map fun w => w.symbols.getD l 0,
    (ws.zipIdx.filter fun w => w.1.failed).map Prod.snd, errs, decide (0 < errs) || ws.any C2Word.erased⟩

/-- The tracks of a buffer, as symbols. -/
def Dev.bufferTracks (d : Dev) (h : Nat) : List (List Nat) :=
  (List.range 256).map fun l => symbols 4096 (d.ddrBytes (d.bufAddr h + trackOffset l) 8192)

/-- Write tracks back. -/
def Dev.putTracks (d : Dev) (h : Nat) (ts : List (List Nat)) : Dev :=
  ts.zipIdx.foldl (fun d t => d.putDdr (d.bufAddr h + trackOffset t.2) (symbolBytes t.1)) d

/-- The content checks of R151: MF_CRC for data data sets and heels, HRCRC for heels. -/
def Dev.contentOk (d : Dev) (h typ : Nat) : Bool :=
  if typ = 1 then manifestOk (d.ddrBytes (d.bufAddr h) 4096)
  else if typ = 3 then manifestOk (d.ddrBytes (d.bufAddr h) 4096) && heelOk (d.ddrBytes (d.bufAddr h + 4096) 64)
  else true

/-- Whether every C1 report of a decode is there: 2,048, of which no two are of one codeword (R169). -/
def Decode.c1Done (x : Decode) : Bool := decide (2048 ≤ x.reports.length)

/-- Decode a buffer with C2 and check its content; `x` has its header. A poisoned buffer fails in every codeword (R339). -/
def Dev.runC2 (d : Dev) (x : Decode) (first : Bool) : Dev :=
  let r := c2Run (d.get F.eccC2CfgTMax) (d.bufferTracks x.handle) (d.columnErasures x)
  let poison := d.poisonIn (d.bufAddr x.handle) 2097152
  let d := match poison with | some a => d.memoryError a | none => d
  let bad := if poison.isSome then List.range 4096 else r.bad
  let d := d.putTracks x.handle r.tracks
  let d := d.bumpBy C.eccC2Sym r.errors
  let d := if first then d.bumpBy C.eccC2Fail bad.length else d
  let typ := (x.head.map Header.typ).getD (if x.wrap = insoleWrap then 4 else 1)
  let content := !bad.isEmpty || d.contentOk x.handle typ
  let d := if content then d else d.bump C.eccMiscorrect
  let bad := if content || x.verify then bad else List.range 4096
  d.modDecode x.handle fun y => { y with
    c2Bad := some bad, corrected := r.touched, content := content, head := x.head, headerBad := x.headerBad
    group := x.group, index := x.index }

/-- The data-set header of a decode and the tracks that disagree (R45). -/
def Decode.settle (x : Decode) (placed : Option Header) : Decode :=
  let h := majority (x.valid.map Prod.snd) placed
  let good := fun (n : Nat) => x.valid.any fun v => v.1 == n && some v.2 == h
  { x with head := h, headerBad := (List.range 256).filter fun n => !good n }

/-! ## Dead tracks (R174, R175) -/

/-- The dead tracks: channels that are never enabled or that are faulted, and those that verify declared. -/
def Dev.deadTracks (d : Dev) : List Nat := (List.range 256).filter fun n => !d.channelFit n || d.ecc.deadVfy.contains n

/-- The dead-track limit, judged whenever the dead set changes; it acts once per load (R175, R325). -/
def Dev.judgeDead (d : Dev) : Dev :=
  if d.deadTracks.length ≤ d.get F.vfyCfgDeadMax || d.ecc.limit || !d.cart.loaded then d
  else
    let d := { d with ecc := { d.ecc with limit := true } }
    let d := ((d.set F.vfyStatusDeadLimitSeen 1).fault F.glbFaultDeadLimit).event 0x0300
    d.stopEnding 0x0300

/-! ## Grades and counts (R171) -/

/-- A bad codeword. -/
def C1Report.bad (r : C1Report) : Bool := !r.ok

/-- A weak codeword. -/
def C1Report.weak (r : C1Report) (weakIter weakFlip : Nat) : Bool :=
  r.ok && (decide (weakIter < r.iters) || decide (weakFlip < r.flips) || decide (1 ≤ r.pointers))

/-- E_c: dead tracks, tracks with a bad header, and bad codewords. -/
def Dev.erasureCount (d : Dev) (x : Decode) (c : Nat) : Nat := (d.columnErasures x c).countP id

/-- W_c: weak codewords on the remaining tracks. -/
def Dev.weakCount (d : Dev) (x : Decode) (c : Nat) : Nat :=
  x.reports.countP fun r => r.codeword == c && !d.trackErased x r.channel && r.weak (d.get F.vfyCfgWeakIter) (d.get F.vfyCfgWeakFlip)

/-- The largest E_c and E_c + W_c. -/
def Dev.margins (d : Dev) (x : Decode) : Nat × Nat :=
  let es := (List.range 8).map fun c => d.erasureCount x c
  let ws := (List.range 8).map fun c => d.erasureCount x c + d.weakCount x c
  (es.foldl max 0, ws.foldl max 0)

/-- Check 4: the header is what the Last placed in the slot. -/
def headerPlaced (x : DSet) (k : Copy) (h : Option Header) : Bool :=
  match h with
  | none => false
  | some h => h.slot == k.slot && h.copy == k.copy && h.typ == x.typ && h.group == x.group && h.index == x.index
      && h.dsSeq == x.dsSeq.toNat

/-- Check 6: enough tracks found sync close to its place. -/
def Dev.alignmentOk (d : Dev) (k : Copy) (x : Decode) : Bool :=
  let off := (List.range 256).countP fun n => !d.channelOn n
  let m := d.get F.vfyCfgSyncMin
  let near := x.syncs.countP fun s => decide (s.2.natAbs ≤ 8) && d.channelOn s.1
  !k.wProv || decide ((if m = 0 then 256 else m) - off ≤ near)

/-- The checks of R172 in order, from 1 to 8. -/
def Dev.checks (d : Dev) (x : DSet) (k : Copy) (y : Decode) : List Bool :=
  let m := d.margins y
  [(y.c2Bad.getD []).isEmpty, decide (m.1 ≤ d.get F.vfyCfgBadMax), decide (m.2 ≤ d.get F.vfyCfgMarginMax), headerPlaced x k y.head,
    y.content, d.alignmentOk k y, !k.underrun, !(k.noWindow || k.lost)]

/-- REASON: the number of the first check that fails, 0 for a pass; check 8 goes before the others. -/
def reasonOf (checks : List Bool) : Nat :=
  if !(checks.getD 7 true) then 8
  else match checks.zipIdx.find? fun c => !c.1 with | some c => c.2 + 1 | none => 0

/-! ## The decision (R170 step 4, R172) -/

/-- VFY.LAST and the counters of a decision. -/
def Dev.noteDecision (d : Dev) (k : Copy) (reason : Nat) (m : Nat × Nat) : Dev :=
  let d := ((((((d.set F.vfyLastWriteProv (b2n k.wProv)).set F.vfyLastReadProv (b2n k.rProv)).set F.vfyLastReason reason).set
    F.vfyLastCopy k.copy).set F.vfyLastEMax (min m.1 255)).set F.vfyLastEwMax (min m.2 255)).set F.vfyLastSlot k.slot
  let d := d.bump C.vfyDs
  if reason = 0 then d else d.bump C.vfyFail

/-- Commits whose in-line segment has passed verify (R238): in its data set, or placed again. -/
def Dev.verifyCommits (d : Dev) : Dev :=
  let passed := fun (c : Commit) => match d.dset? c.ds with | some x => x.passed | none => false
  let again := fun (c : Commit) =>
    let cs := d.strm.clicks.filter fun k => k.stream == 0xFFFF && k.record == c.commit
    !cs.isEmpty && cs.all fun k => d.present_ k
  d.modPlc fun p => { p with commits := p.commits.map fun (c : Commit) => { c with verified := c.verified || passed c || again c } }

/-- What a member of a set tells its master of a data set that passed: the decision (R454), or the clicks whose last piece it
holds (R456). -/
def Dev.tellPass (d : Dev) (x : DSet) : Dev :=
  if d.follows then d.tellMaster (.verdict x.typ x.dsSeq true)
  else if d.isMember then
    let done := d.strm.clicks.filter fun c => c.pieces.any fun p => p.ds == x.id && p.tail
    (done.filterMap Click.remote).foldl (fun d n => d.tellMaster (.placed n)) d
  else d

/-- A copy of a data set passes: its buffer goes back, but a heel's (R182), and what waited for it goes on. -/
def Dev.passDset (d : Dev) (x : DSet) (slot copy : Nat) : Dev :=
  let mark := fun (k : Copy) => if k.slot == slot && k.copy == copy then { k with step := .passed } else k
  let d := d.modDset x.id fun y => { y with copies := y.copies.map mark, passed := true }
  let d := (if x.typ = 3 then d else d.freeDset x).tellPass x
  d.verifyCommits.settleAppend

/-- A copy of a data set fails (R177, R180). -/
def Dev.failCopy (d : Dev) (x : DSet) (slot copy : Nat) : Dev :=
  let mark := fun (k : Copy) => if k.slot == slot && k.copy == copy then { k with step := .failed } else k
  let d := d.modDset x.id fun y => { y with copies := y.copies.map mark }
  let d := if d.follows then d.tellMaster (.verdict x.typ x.dsSeq false) else d
  (match d.dset? x.id with | some y => d.failDset y | none => d).settleAppend

/-- Runs of first copies with a track bad in 4 or more columns, and the tracks declared dead (R174). -/
def Dev.trackRuns (d : Dev) (x : DSet) (k : Copy) (y : Decode) : Dev :=
  if k.copy != 0 || x.typ == 4 then d
  else
    let badOn := fun (n : Nat) => y.reports.countP fun r => r.channel == n && r.bad
    let run := fun (n : Nat) => ((d.ecc.deadRuns.find? fun r => r.1 == n).map Prod.snd).getD 0
    let runs := (d.channelsOn.filter fun n => decide (4 ≤ badOn n)).map fun n => (n, run n + 1)
    let new := (runs.filter fun r => decide (d.get F.vfyCfgDeadRun ≤ r.2) && !d.ecc.deadVfy.contains r.1).map Prod.fst
    let d := { d with ecc := { d.ecc with deadRuns := runs, deadVfy := d.ecc.deadVfy ++ new } }
    if new.isEmpty then d else (d.bumpBy C.vfyDead new.length).judgeDead

/-- The REASON of a data set that has been read back, and what the decision leaves (R172 to R174). -/
def Dev.judged (d : Dev) (y : Decode) (x : DSet) (k : Copy) : Nat × Dev :=
  let cs := d.checks x k y
  let reason := reasonOf cs
  let m := if reason = 8 then (0, 0) else d.margins y
  let weak := y.reports.countP fun r => r.weak (d.get F.vfyCfgWeakIter) (d.get F.vfyCfgWeakFlip)
  let bad := y.reports.countP C1Report.bad
  let d := d.noteDecision k reason m
  let d := if reason = 8 then d else (d.bumpBy C.vfyWeakCw weak).bumpBy C.vfyBadCw bad
  let d := if reason = 6 && cs.getD 6 true then d.bump C.vfyProvFail else d
  let d := d.dropDecode y
  (reason, if reason = 8 then d else d.trackRuns x k y)

/-- Judge a data set that has been read back. -/
def Dev.decide_ (d : Dev) (y : Decode) (x : DSet) (k : Copy) : Dev :=
  let r := d.judged y x k
  if r.1 = 0 then r.2.passDset x k.slot k.copy else r.2.failCopy x k.slot k.copy

/-- The oldest written copy that has no verify window, or lost its position (check 8). -/
def Dev.windowless (d : Dev) : Option (DSet × Copy) :=
  d.plc.dsets.findSome? fun x => (x.copies.find? fun k =>
    (k.noWindow || k.lost) && (k.step == .written || k.step == .read)).map fun k => (x, k)

/-- VERIFY_DECISION (R170, R172). -/
def Dev.verifyDecision (d : Dev) : Dev :=
  match d.windowless with
  | some (x, k) => ((d.noteDecision k 8 (0, 0))).failCopy x k.slot k.copy
  | none =>
    match d.ecc.decodes.find? fun y => y.verify && y.c2Bad.isSome with
    | none => d
    | some y =>
      match d.plc.dsets.findSome? fun x => if x.member != d.self then none else
          (x.copies.find? fun k => k.slot == y.slot && k.step == .read).map fun k => (x, k) with
      | some (x, k) => d.decide_ y x k
      | none => d.dropDecode y

def execC1CodewordDecoded (channel codeword : Nat) (s : State) : Host.Outcome State Fault Refusal :=
  s.doing fun d => d.c1Decoded channel codeword
def execVerifyDecision (s : State) : Host.Outcome State Fault Refusal := s.doing fun d => d.verifyDecision.hostSettle

end Sys2Proof.Machine
end

