-- ==== Sys2Proof/Machine/Hfm.lean ====
section
/-!
DEFINITION. The control bus of the head front-end modules and the channels behind it (R93, R133 to R138).
-/
namespace Sys2Proof.Machine

/-! ## Channels (R93, R137, R138) -/

/-- The channel enables of an enable group: fitted channels without an element fault. -/
def Dev.groupMask (d : Dev) (g : Nat) : Nat :=
  ((List.range 16).map fun i =>
    let n := 16 * g + i
    if bitAt (d.get (F.wchChEnEn.ix (n / 32))) (n % 32) && !d.ecc.deadHfm.contains n then 2 ^ i else 0).sum

/-- ENABLE_GROUP_STEP (R93): during LOAD the next enable group is enabled. -/
def Dev.enableGroup (d : Dev) : Dev :=
  let g := d.chan.groupsOn
  let loading := d.cqm.cmds.any fun c => c.opcode == opLoad && c.phase == .started
  if !loading || decide (16 ≤ g) then d
  else
    let d := d.hfmWrite (g / 2) (4 + g % 2) (d.groupMask g)
    { d with chan := { d.chan with groupsOn := g + 1 } }

/-- The channel values that LOAD sends to the HFMs (R138), after the module, write, read and, in modules 0 and 7, servo
enables (log 36). -/
def Dev.sendChannels (d : Dev) : Dev :=
  let b := d.channelBody
  let d := (List.range 8).foldl (fun d m => d.hfmWrite m 1 (if m = 0 ∨ m = 7 then 15 else 7)) d
  (List.range 256).foldl (fun d n =>
    let ch := channelBytes b n
    ((d.hfmWrite (n / 32) (0x20 + n % 32) (fieldAt ch 0 1)).hfmWrite (n / 32) (0x40 + n % 32) (fieldAt ch 8 1)).hfmWrite
      (n / 32) (0x60 + n % 32) (fieldAt ch 9 1)) d

/-- SERVO_GAIN of modules 0 and 7, from the set or the default (R492). -/
def Dev.sendServoGain (d : Dev) : Dev :=
  let b := calBody d.calSet 5
  let g := fun (i : Nat) => if calSetOk d.calSet then fieldAt b i 1 else 0x44
  (d.hfmWrite 0 6 (g 10)).hfmWrite 7 6 (g 11)

/-! ## Faults (R136) -/

/-- Over-temperature, supply low or a faulted module stops writing and the tape. -/
def Dev.hfmStop (d : Dev) : Dev := (((d.fault F.glbFaultHfm).event 0x0301).stopNow 0x0301).giveTarget .stop

/-- Whether a module is enabled, and has not been taken out of use (R135, R136). -/
def Dev.moduleOn (d : Dev) (m : Nat) : Bool := bitAt (d.hfmReg m 1) 0 && !d.ecc.hfmGone.contains m

/-- A read of FAULT and the no-operation that collects its answer (R134, R136). -/
def Dev.hfmAskFault (d : Dev) (m : Nat) : Dev := (d.hfmSend m (hfmWord true 0x02 0)).hfmNop m

/-- Whether a response fails its CRC (R133), and whether it is taken: its CRC checks and ACK is 1 (R136). -/
def crcFails (r : BitVec 40) : Bool := bitsAt r.toNat 7 0 != hfmCrc (r.extractLsb' 8 32)
def taken (r : BitVec 40) : Bool := !crcFails r && r.getLsbD 39

/-- Ask a module for its FAULT register until a response is taken, at most `n` times (R136): the FAULT register, where one was. The
responses are those that come; where none comes, SDI reads as 0. Each that fails its CRC is counted. -/
def Dev.hfmAsk (d : Dev) (m : Nat) : Nat → List (BitVec 40) → Option Nat × Dev
  | 0, _ => (none, d)
  | n + 1, rs =>
    let r := rs.headD 0
    let d := if crcFails r then (d.hfmAskFault m).bump C.wchHfmCrc else d.hfmAskFault m
    if taken r then (some (bitsAt r.toNat 23 8), d) else d.hfmAsk m n rs.tail

/-- One module's poll (R136): a frame and up to three repeats. A module that gives no good answer is faulted. An element fault is
counted once for each channel however often it is reported, and over-temperature or low supply acts when a poll first shows it
(DESIGN CHOICE, log 36). -/
def Dev.hfmPollOne (d : Dev) (m : Nat) (rs : List (BitVec 40)) : Dev :=
  let (answer, d) := d.hfmAsk m 4 rs
  match answer with
  | none => (({ (d.bump C.wchHfmFault) with ecc := { d.ecc with hfmGone := d.ecc.hfmGone ++ [m] } }).hfmStop).judgeDead
  | some v =>
    let n := 32 * m + bitsAt v 12 8
    let d := if bitsAt v 3 0 = 0 || d.ecc.deadHfm.contains n then d
      else (({ d with ecc := { d.ecc with deadHfm := d.ecc.deadHfm ++ [n] } }).bump C.wchHfmFault).judgeDead
    let others := d.chan.hfmHot.filter fun x => x != m
    let known := d.chan.hfmHot.contains m
    if bitsAt v 5 4 = 0 then { d with chan := { d.chan with hfmHot := others } }
    else
      let d := { d with chan := { d.chan with hfmHot := m :: others } }
      if known then d else (d.bump C.wchHfmFault).hfmStop

/-- HFM_FAULT_POLL (R136): every enabled module is asked; the operand gives the responses that each module's frames bring. -/
def Dev.hfmPoll (d : Dev) (rs : List (Nat × List (BitVec 40))) : Dev :=
  if d.glb.dev != .loaded && d.glb.dev != .streaming then d
  else
    let asked := (List.range 8).filter d.moduleOn
    asked.foldl (fun d m => d.hfmPollOne m (((rs.find? fun r => r.1 == m).map Prod.snd).getD [])) d

/-- One frame, a no-operation, and the response in WCH.HFM_RX (R137). -/
def Dev.hfmGo (d : Dev) (m : Nat) (v : BitVec 32) (r : BitVec 40) : Dev :=
  let d := (d.hfmSend m v).hfmNop m
  let bad := crcFails r
  let d := if bad then d.bump C.wchHfmCrc else d
  ((((d.set F.wchHfmRxDone 1).set F.wchHfmRxCrcErr (b2n bad)).set F.wchHfmRxFlags (bitsAt r.toNat 39 32)).set F.wchHfmRxAddr
    (bitsAt r.toNat 31 24)).set F.wchHfmRxData (bitsAt r.toNat 23 8)

/-- HFM_FRAME_SEND (R137): in maintenance the write sets the frame and sends it. In the other running states its MNT fields
cannot be addressed: GO alone sends the frame that stands in WCH.HFM_TX, where it is a read. A read goes out with DATA 0 (R133). -/
def Dev.hfmTalk (d : Dev) (m : Nat) (v : BitVec 32) (r : BitVec 40) : Dev :=
  if d.glb.dev != .maintenance then
    if d.glb.dev.hostUp && d.flag F.wchHfmTxRd then
      d.hfmGo (d.get F.wchHfmTxModule) (hfmWord true (d.get F.wchHfmTxAddr) 0) r
    else d
  else if 8 ≤ m then d
  else
    let v := v &&& 0x80FFFFFF#32
    let w := v.toNat
    let d := (((d.set F.wchHfmTxModule m).set F.wchHfmTxRd (bitsAt w 31 31)).set F.wchHfmTxAddr (bitsAt w 23 16)).set F.wchHfmTxData
      (bitsAt w 15 0)
    d.hfmGo m (hfmWord v.msb (bitsAt w 23 16) (if v.msb then 0 else bitsAt w 15 0)) r

def execHfmFaultPoll (responses : List (Nat × List (BitVec 40))) (s : State) : Host.Outcome State Fault Refusal :=
  s.doing fun d => (d.hfmPoll responses).hostSettle
def execHfmFrameSend (module : Nat) (command : BitVec 32) (response : BitVec 40) (s : State) : Host.Outcome State Fault Refusal :=
  s.doing fun d => d.hfmTalk module command response
def execEnableGroupStep (s : State) : Host.Outcome State Fault Refusal := s.doing Dev.enableGroup

end Sys2Proof.Machine
end

