-- ==== Sys2Proof/Machine/Calib.lean ====
section
/-!
DEFINITION. Calibration and the non-volatile memories under maintenance (R491 to R496).
-/
namespace Sys2Proof.Machine

/-! ## The set that the device's present values make (R488, R489, R496) -/

/-- The 28 bytes of a channel as its values stand now (R138, R489). -/
def Dev.channelNow (d : Dev) (n : Nat) : List Byte :=
  let h := fun (base : Nat) => leBytes 1 (d.hfmReg (n / 32) (base + n % 32))
  let r := fun (f : Fld) => leBytes 1 (d.get (f.ix n))
  let taps := ((List.range 10).map fun t => d.get (F.rchEqTapCoef.ix (16 * n + t)) * 2 ^ (12 * t)).sum
  h 0x20 ++ r F.wchPrecompP1q1 ++ r F.wchPrecompP1q2 ++ r F.wchPrecompP2q1 ++ r F.wchPrecompP2q2 ++ r F.wchPrecompP3q1
    ++ r F.wchPrecompP3q2 ++ r F.wchPrecompFineDly ++ h 0x40 ++ h 0x60
    ++ leBytes 1 (16 * d.get (F.rchAfeCtleBoost.ix n) + d.get (F.rchAfeCtleZero.ix n)) ++ r F.rchAfeVgaInit ++ r F.rchAfePhase
    ++ leBytes 15 taps

/-- The record bodies that the present values make. -/
def Dev.bodiesNow (d : Dev) : List (Nat × List Byte) :=
  let dly := fun (f : Fld) => (List.range 8).flatMap fun i => leBytes 1 (d.get (f.ix i))
  let cs := (List.range 10).flatMap fun i =>
    leBytes 2 (d.get (F.mdrCsCalGain8.ix i)) ++ leBytes 1 (d.get (F.mdrCsCalOfs8.ix i)) ++ leBytes 1 (d.get (F.mdrCsCalOfs1.ix i))
  let lat := (List.range 2).flatMap fun i => leBytes 1 (b2n (d.lateralCal i).1) ++ leBytes 4 (unsigned 32 (d.lateralCal i).2)
  [(1, (List.range 256).flatMap d.channelNow), (2, dly F.wchGroupDlyDly ++ dly F.rchGroupDlyDly), (3, cs),
    (4, leBytes 2 (d.get F.tceWeltCalKW) ++ leBytes 2 (d.get F.tceWeltCalW0)),
    (5, lat ++ leBytes 1 (d.hfmReg 0 6) ++ leBytes 1 (d.hfmReg 7 6))]

/-- Store the present values with a SOURCE (R488, R491): SEQ is one more than that of the set replaced. -/
def Dev.storeNow (d : Dev) (source : Nat) (readBack : Bool) : Bool × Dev :=
  let old := d.calSet
  let seq := if calSetOk old then fieldAt old 8 4 + 1 else 1
  d.storeSet (makeSet source seq d.glb.bootCount d.bodiesNow) readBack

/-! ## What a calibration finds (R493, R496) -/

/-- Registers that a calibration loads: write-side values only where `write` says so (R493). -/
def calRegister (write : Bool) (a : Nat) : Bool :=
  let in_ := fun (f : Fld) (n : Nat) => decide (f.addr ≤ a) && decide (a < f.addr + n)
  (write && (in_ F.wchPrecompFineDly 256 || in_ F.wchGroupDlyDly 8)) || in_ F.rchAfePhase 256 || in_ F.rchEqTapCoef 4096
    || in_ F.rchGroupDlyDly 8 || in_ F.mdrCsCalGain8 10 || a == F.tceWeltCalKW.addr

/-- Registers of an HFM that a calibration loads. -/
def calHfm (write : Bool) (m a : Nat) : Bool :=
  decide (m < 8) && ((a == 6 && (m == 0 || m == 7)) || (decide (0x40 ≤ a) && hfmWritable a) || (write && decide (0x20 ≤ a) && decide (a ≤ 0x3F)))

/-- Apply what a calibration found. -/
def Dev.applyFound (d : Dev) (write : Bool) (c : CalFound) : Dev :=
  let d := (c.values.filter fun v => calRegister write v.1).foldl (fun d v => d.store v.1 v.2 (BitVec.allOnes 48)) d
  let d := (c.hfm.filter fun v => calHfm write v.1 v.2.1).foldl (fun d v => d.hfmWrite v.1 v.2.1 v.2.2.toNat) d
  if c.lateral.isEmpty then d
  else { d with chan := { d.chan with servo := c.lateral.map fun (v : Bool × BitVec 32) => (v.1, v.2.toInt) } }

/-- The self-calibration of a LOAD without a valid set (R493). -/
def Dev.loadCalibrate (d : Dev) (found : Option CalFound) : Dev :=
  if calSetOk d.calSet then d
  else match found with
    | none => d
    | some c => ((d.applyFound false c).storeNow 2 true).2

/-! ## MAINT_CALIBRATE (R496) -/

/-- A command of MAINT_CALIBRATE fails. -/
def Dev.calFails (d : Dev) (h cause : Nat) : Dev := d.finish h stCalFailed (leBytes 1 cause)

/-- The results: SEQ of the set stored, SOURCE and channels calibrated. -/
def calResult (seq source channels : Nat) : List Byte := leBytes 4 seq ++ leBytes 1 source ++ leBytes 1 0 ++ leBytes 2 channels

/-- Store what the registers hold, unless NO_STORE, and complete. -/
def Dev.calStore (d : Dev) (c : Cmd) (source channels : Nat) (readBack : Bool) : Dev :=
  if bitAt (c.par 17 1) 0 then d.finish c.h stGood (calResult 0 source channels)
  else
    let (ok, d) := d.storeNow source readBack
    if ok then d.finish c.h stGood (calResult (d.get F.calStatusSeq) source channels) else d.calFails c.h 3

/-- CALIBRATE_STORE (R496). -/
def Dev.calibrateStore (d : Dev) (h : Nat) (readBack : Bool) : Dev := d.maint h opCalibrate 0 fun c => d.calStore c 3 0 readBack

/-- What a calibration run comes to. The tape stands afterwards at a place that the spec does not state (log 2). -/
def Dev.calRun (d : Dev) (c : Cmd) (full : Bool) (env : CalEnv) : Dev :=
  let (at_, d) := d.fresh
  let d := d.standAt (at_.toNat % 140508000)
  match env.motion, env.found with
  | .arrived, some f => (d.applyFound full f).calStore c (if full then 1 else 2) f.channels env.readBack
  | .arrived, none => d.calFails c.h 4
  | _, _ => d.calFails c.h 5

/-- CALIBRATE_SELF (R493, R496). -/
def Dev.calibrateSelf (d : Dev) (h : Nat) (env : CalEnv) : Dev := d.maint h opCalibrate 1 fun c =>
  if !d.cart.loaded then d.calFails h 0
  else if d.motionBar.isSome then d.calFails h 5
  else d.calRun c false env

/-- CALIBRATE_FULL (R496): the write gate is open while slots of data band 3 are written; what they hold is not stated. -/
def Dev.calibrateFull (d : Dev) (h : Nat) (env : CalEnv) : Dev := d.maint h opCalibrate 2 fun c =>
  if !d.cart.loaded then d.calFails h 0
  else if !d.plc.index.groups.isEmpty then d.calFails h 1
  else if c.par 18 1 != 0xA5 then d.calFails h 2
  else if d.motionBar.isSome then d.calFails h 5
  else ((d.openGate).closeGate).calRun c true env

/-- CALIBRATE_INVALIDATE (R496): the commit word is erased. -/
def Dev.calibrateInvalidate (d : Dev) (h : Nat) : Dev := d.maint h opCalibrate 3 fun c =>
  if c.par 18 1 != 0xA5 then d.calFails h 2
  else ((d.putFeram 65528 (leBytes 8 0)).syncCal).finish h stGood (calResult 0 0 0)

/-! ## MAINT_NVM (R494, R495) -/

/-- A command of MAINT_NVM is refused. -/
def Dev.nvmRefused (d : Dev) (h cause : Nat) : Dev := d.finish h stNvmRefused (leBytes 1 cause)

/-- Bytes of a slot or of the calibration set. -/
def nvmSize (target : Nat) : Nat := if target = 2 then 65536 else 0x1000000

/-- The data bytes of a command, from its P0 granules. -/
def Dev.dataBytes (d : Dev) (c : Cmd) : List Byte :=
  c.data.zipIdx.flatMap fun g => d.ddrBytes (d.bufAddr g.1) (min 65536 (c.dataLen - 65536 * g.2))

/-- The results of MAINT_NVM. -/
def nvmResult (valid fail version crc : Nat) : List Byte :=
  leBytes 1 valid ++ leBytes 1 fail ++ leBytes 2 0 ++ leBytes 4 version ++ leBytes 4 crc

/-- Whether a target is the slot of the running image. -/
def Dev.runningSlot (d : Dev) (target : Nat) : Bool :=
  decide (target < 2) && d.flag F.glbBootRunning && d.get F.glbBootSlot == target

/-- NVM_READ (R495). -/
def Dev.nvmRead (d : Dev) (h : Nat) : Dev := d.maint h opNvm 0 fun c =>
  let t := c.par 17 1
  let off := c.par 20 4
  let len := c.par 24 4
  if nvmSize t < off + len then d.nvmRefused h 1
  else
    let bs := if t = 2 then d.feramBytes off len else d.norBytes (slotBase (t == 1) + off) len
    d.answerData c bs (nvmResult 0 0 0 (crc32c bs))

/-- Erase NOR blocks of 64 KiB (R495, R500). -/
def Dev.eraseNor (d : Dev) (block n : Nat) : Dev :=
  (List.range n).foldl (fun d i => (d.putNor (65536 * (block + i)) (List.replicate 65536 0xFF)).emit (.nor 2 (65536 * (block + i)))) d

/-- NVM_WRITE (R495). After a read-back mismatch, what the first byte of the slot range holds is open (log 2). -/
def Dev.nvmWrite (d : Dev) (h : Nat) (readBack : Bool) : Dev := d.maint h opNvm 1 fun c =>
  let t := c.par 17 1
  let off := c.par 20 4
  let bs := d.dataBytes c
  if d.runningSlot t then d.nvmRefused h 0
  else if t = 2 then
    if off != 0 || bs.length != 65536 then d.nvmRefused h 1
    else if !calSetOk bs then d.nvmRefused h 2
    else
      let head := bs.take 6 ++ leBytes 1 4 ++ (bs.drop 7).take 53
      let set := head ++ leBytes 4 (crc32c head) ++ (bs.drop 64).take 65464
      let (ok, d) := d.storeSet set readBack
      if ok then d.finish h stGood (nvmResult 0 0 0 (crc32c bs)) else d.nvmRefused h 3
  else if off % 65536 != 0 || bs.isEmpty || decide (nvmSize t < off + bs.length) then d.nvmRefused h 1
  else
    let base := slotBase (t == 1) + off
    let d := d.eraseNor (base / 65536) ((bs.length + 65535) / 65536)
    let d := (List.range ((bs.length + 255) / 256)).foldl (fun d i => d.emit (.nor 1 (base + 256 * i))) (d.putNor base bs)
    if readBack then d.finish h stGood (nvmResult 0 0 0 (crc32c bs))
    else
      let (w, d) := d.fresh
      (d.putNor base [BitVec.ofNat 8 w.toNat]).nvmRefused h 3

/-- NVM_PREFER (R495). -/
def Dev.nvmPrefer (d : Dev) (h : Nat) : Dev := d.maint h opNvm 2 fun c =>
  let b := c.par 17 1 == 1
  if d.verifySlot b != 0 then d.nvmRefused h 4
  else (d.setPref b).finish h stGood (nvmResult 0 0 0 0)

/-- NVM_INVALIDATE (R495). -/
def Dev.nvmInvalidate (d : Dev) (h : Nat) : Dev := d.maint h opNvm 3 fun c =>
  let t := c.par 17 1
  if d.runningSlot t then d.nvmRefused h 0
  else (d.eraseNor (slotBase (t == 1) / 65536) 1).finish h stGood (nvmResult 0 0 0 0)

/-- NVM_VERIFY (R495). -/
def Dev.nvmVerify (d : Dev) (h : Nat) : Dev := d.maint h opNvm 4 fun c =>
  let b := c.par 17 1 == 1
  let f := d.verifySlot b
  d.finish h stGood (nvmResult (b2n (f == 0)) f (fieldAt (d.slotHeader b) 8 4) 0)

def execCalibrateStore (h : Nat) (readBack : Bool) (s : State) : Host.Outcome State Fault Refusal :=
  s.doing fun d => (d.calibrateStore h readBack).hostSettle
def execCalibrateSelf (h : Nat) (env : CalEnv) (s : State) : Host.Outcome State Fault Refusal :=
  s.doing fun d => (d.calibrateSelf h env).hostSettle
def execCalibrateFull (h : Nat) (env : CalEnv) (s : State) : Host.Outcome State Fault Refusal :=
  s.doing fun d => (d.calibrateFull h env).hostSettle
def execCalibrateInvalidate (h : Nat) (s : State) : Host.Outcome State Fault Refusal :=
  s.doing fun d => (d.calibrateInvalidate h).hostSettle
def execNvmRead (h : Nat) (s : State) : Host.Outcome State Fault Refusal := s.doing fun d => (d.nvmRead h).hostSettle
def execNvmWrite (h : Nat) (readBack : Bool) (s : State) : Host.Outcome State Fault Refusal :=
  s.doing fun d => (d.nvmWrite h readBack).hostSettle
def execNvmPrefer (h : Nat) (s : State) : Host.Outcome State Fault Refusal := s.doing fun d => (d.nvmPrefer h).hostSettle
def execNvmInvalidate (h : Nat) (s : State) : Host.Outcome State Fault Refusal := s.doing fun d => (d.nvmInvalidate h).hostSettle
def execNvmVerify (h : Nat) (s : State) : Host.Outcome State Fault Refusal := s.doing fun d => (d.nvmVerify h).hostSettle

end Sys2Proof.Machine
end

