-- ==== Sys2Proof/Machine/React.lean ====
section
/-!
DEFINITION. What follows a loss of position (R86, R233) and a supervision failure (R387 to R390): data sets that fail, the
Stop and Observer reactions, and the triggers of the trace buffers (R395).
-/
namespace Sys2Proof.Machine

/-! ## Loss of position -/

/-- A copy that is written and not yet decided. -/
def Copy.awaits (k : Copy) : Bool := k.step == .written || k.step == .read

/-- A copy that is treated as failed (R86). -/
def Copy.loseIt (k : Copy) : Copy := if k.awaits then { k with step := .failed, lost := true } else k

/-- A failed data set is copied where its window still lies ahead of the next slot, else superseded (R233). -/
def Dev.failOver (d : Dev) (id : Nat) : Dev :=
  match d.dset? id, d.plc.session with
  | some x, some s => if x.typ == 3 || x.passed then d else if x.windowPast s then d.supersede x else d.pend x
  | _, _ => d

/-- Every data set of the device that is not yet verified is treated as failed, with REASON 8, and so is one aborted and not
yet placed again (R86, R233); the next first copy goes after the slot in which the write gate closed. Starts and verify
windows are cancelled. -/
def Dev.failWritten (d : Dev) : Dev :=
  match d.plc.session with
  | none => (d.dropEntries Entry.isWindow).closeGate
  | some s =>
    let rev := wrapReverse s.place.wrap
    let last := if d.flag F.posStatusWriteGate then some (d.tpos / 76800).toNat else s.lastUsed
    let d := ((d.cancelStarts.dropEntries Entry.isWindow).closeGate).unmark.endTaking
    let s := { s with lastUsed := last }
    let d := d.modSession fun t => { t with lastUsed := last, place := { t.place with slot := s.resumeSlot } }
    let mine := d.plc.dsets.filter fun x => x.member == d.self
    let gone := mine.flatMap fun x => (x.copies.filter Copy.awaits).map fun k => (x.id, k)
    let d := gone.foldl (fun d g => d.noteDecision g.2 8 (0, 0)) d
    let ids := (gone.map Prod.fst).dedup
    let d := ids.foldl (fun d i => d.modDset i fun x => { x with copies := x.copies.map Copy.loseIt }) d
    let d := (d.ecc.decodes.filter Decode.verify).foldl (fun d x => d.dropDecode x) d
    let before := fun (i : Nat) => match d.dset? i with | some x => decide (slotsFrom rev s.resumeSlot x.first < 0) | none => false
    let early := d.plc.again.filter before
    let d := d.modPlc fun p => { p with again := p.again.filter fun i => !before i }
    (ids ++ early).foldl (fun d i => d.failOver i) d

/-- A hold that a loss of position or a reaction forces: writing has ended; cause 3 ends at once, cause 4 when the tape has
stood (R233, R389, R390). -/
def Dev.forceHold (d : Dev) (cause : Nat) (ended : Bool) : Dev :=
  if d.plc.session.isNone then d else d.modPlc fun p => { p with hold := true, holdDone := ended, holdCause := cause }

/-- The position is lost (R86): the gate closes, POS is unset, the tape stops and what is not verified has failed. TPOS
snapshots are cancelled (R532). -/
def Dev.losePosition (d : Dev) : Dev :=
  let d := (d.failWritten.forceHold 3 true).cancelShots
  let d := { d with pos := { d.pos.fresh with regapFrom := none } }
  let d := ((d.goMode .unset).set F.posStatusLostSeen 1).bump C.posLost
  ((d.giveTarget .stop).settleAppend).standStill

/-! ## Trace triggers (R395) -/

/-- The armed buffers of which `p` holds are triggered: POST records follow. -/
def Dev.trigger (d : Dev) (p : Trace → Bool) : Dev :=
  let go := fun (t : Trace) => if (t.state == 1 && p t) = true then { t with state := 2, left := t.post, trigRec := none } else t
  { d with tce := { d.tce with traces := d.tce.traces.map go } }

/-- Locate targets and entries of trace buffers that TPOS has reached fire (R78, R395); the profile generator, which
approaches its target by itself (R393), takes no other note of a locate's entry. -/
def Dev.fireTraces (d : Dev) : Dev :=
  let reached := fun (e : Entry) => e.isLocate && e.reverse == d.reverse && decide (d.aheadOf e ≤ 0) && d.pos.mode != .unset
  let d := if d.pos.entries.any reached then d.dropEntries reached else d
  let due := d.pos.entries.filterMap fun (e : Entry) => match e.owner with
    | .trace b => if e.reverse == d.reverse && decide (d.aheadOf e ≤ 0) && d.pos.mode != .unset then some b else none
    | _ => none
  if due.isEmpty then d
  else
    let d := d.dropEntries fun e => match e.owner with
      | .trace b => due.contains b && e.reverse == d.reverse && decide (d.aheadOf e ≤ 0)
      | _ => false
    let traces := d.tce.traces.zipIdx.map fun (t : Trace × Nat) =>
      if t.1.state == 1 && t.1.trig == 3 && due.contains t.2 then { t.1 with state := 2, left := t.1.post, trigRec := none } else t.1
    { d with tce := { d.tce with traces := traces } }

/-! ## Supervision failures (R386, R387) -/

/-- Kinds of R386. -/
def kindVel : Nat := 1
def kindDir : Nat := 2
def kindTenLo : Nat := 3
def kindTenHi : Nat := 4
def kindRadius : Nat := 5
def kindRotor : Nat := 6
def kindLat : Nat := 7
def kindCrs : Nat := 8
def kindCurrent : Nat := 9
def kindInvalid : Nat := 10

/-- Set sticky flags of a slot (R380). -/
def Dev.stick (d : Dev) (slot bits : Nat) : Dev :=
  let f := F.tceSlotFlags.ix (64 * slot)
  d.set f (d.get f ||| bits)

/-- One failure is flagged, counted and logged. -/
def Dev.oneFailure (d : Dev) (slot kind : Nat) : Dev :=
  ((d.stick slot 0x80).bump C.tceFault).eventWith 0x030B (leBytes 1 slot ++ leBytes 1 kind)

/-- Failures of one cycle (R387): the lowest kind is recorded. Buffers that wait for a failure are triggered. -/
def Dev.noteFailures (d : Dev) (fs : List (Nat × Nat)) : Dev :=
  match (fs.map Prod.snd).min? with
  | none => d
  | some k =>
    let slot := ((fs.find? fun f => f.2 == k).map Prod.fst).getD 0
    let d := fs.foldl (fun d f => d.oneFailure f.1 f.2) d
    (((d.set F.tceStatusFaultSeen 1).set F.tceStatusFaultKind k).set F.tceStatusFaultSlot slot).trigger fun t => t.trig == 1

/-! ## Reactions (R388 to R390) -/

/-- Reads, and a locate whose position target runs, fail when a reaction interrupts them (R390). -/
def Dev.interrupt (d : Dev) (detail : List Byte) : Dev :=
  let hs := if d.tce.target.isPlace then
    (d.cqm.cmds.filter fun c => c.opcode == opLocate && c.phase == .started && c.motion).map Cmd.h else []
  let d := hs.foldl (fun d h => d.finish h stTransport detail) d
  d.strm.reads.foldl (fun d r => d.failRead r stTransport detail) d

/-- Writing ends at a data-set boundary (R388 step 1). -/
def Dev.endAtBoundary (d : Dev) : Dev := d.cancelStarts.forceHold 4 false

/-- The profile generator is taken from the Last. -/
def Dev.preempt (d : Dev) (reaction : Nat) (t : PgTarget) : Dev :=
  ({ d with tce := { d.tce with reaction := reaction, target := t, held := none, replanned := true } }).set
    F.tceStatusReaction reaction

/-- A third Stop reaction in one load stops appending (R390, R535). -/
def Dev.countStop (d : Dev) : Dev :=
  let n := d.get F.tceStatusStops
  let d := (d.set F.tceStatusStops (min 3 (n + 1))).bump C.tceStop
  if n = 2 && d.plc.stopped.isNone then (d.fault F.glbFaultLoop).stopNow 0x030B else d

/-- A Stop reaction (R388) begins, in the place of an Observer reaction; one that runs goes on. -/
def Dev.stopReaction (d : Dev) (slot kind : Nat) : Dev :=
  if d.tce.reaction == 1 then d
  else ((d.endAtBoundary.interrupt (leBytes 1 slot ++ leBytes 1 kind)).preempt 1 .stop).countStop

/-- An Observer reaction (R389) begins on a reel; during a reaction only the reel's own part is added. -/
def Dev.observerReaction (d : Dev) (slot reel : Nat) : Dev :=
  let d := { d with mdr := { d.mdr with reels := modAt (fun (r : Reel) => { r with restart := true }) d.mdr.reels reel } }
  if d.tce.reaction != 0 then d
  else
    let t := if d.tce.target.isPlace then .stop else d.tce.target
    ((d.endAtBoundary.interrupt (leBytes 1 slot ++ leBytes 1 kindRotor)).preempt 2 t).bump C.tceStop

/-- Failures of one cycle and what they start (R387); `reel` is the one that lost its rotor. During a Brake they are only
logged (R431). -/
def Dev.fail (d : Dev) (fs : List (Nat × Nat)) (reel : Nat) : Dev :=
  let d := d.noteFailures fs
  if d.flag F.mdrStatusBrake then d
  else
    let d := match fs.find? fun f => f.2 == kindRotor with
      | some f => d.observerReaction f.1 reel
      | none => d
    match fs.find? fun f => f.2 != kindRotor with
    | some f => d.stopReaction f.1 f.2
    | none => d

/-- A reaction ends (R388, R389): after an Observer reaction that the tape outlived, appending may resume. -/
def Dev.endReaction (d : Dev) : Dev :=
  let observer := d.tce.reaction == 2
  let d := ({ d with tce := { d.tce with reaction := 0 } }).set F.tceStatusReaction 0
  d.modPlc fun p => if p.hold && p.holdCause == 4 && p.session.isSome then
    { p with holdDone := true, holdCause := if observer then 3 else 4 } else p

end Sys2Proof.Machine
end

