-- ==== Sys2Proof/Machine/Measure.lean ====
section
/-!
DEFINITION. What the transport loops and the motor drive measure and compute with (R371 to R375, R384, R421): the reel
model, tape speed, currents, torques and forces as integers. Quotients of real numbers are rounded down to the unit named
(log 29).
-/
namespace Sys2Proof.Machine

/-- Full scale of a loop signal (R371). -/
def fullScale : Int := 140737488355328

/-- A quotient rounded down; no rule states one whose divisor is 0 (log 29). -/
def quot (n k : Int) : Int := if k = 0 then Config.overZero n else n / k

/-- Saturate to 48 bits (R378). -/
def sat48 (v : Int) : Int := satInt (-fullScale) (fullScale - 1) v

/-- A 48-bit signal. -/
def word48 (v : Int) : Word := BitVec.ofInt 48 v

/-- Reel x: 0 reel A, 1 reel B. -/
def Dev.reel (d : Dev) (x : Nat) : Reel := d.mdr.reels.getD x ⟨0, 0, (0, 0), 0, 0, 0, 0, 0, 0, 0, 0, false⟩

/-- Change a reel. -/
def Dev.modReel (d : Dev) (x : Nat) (f : Reel → Reel) : Dev := { d with mdr := { d.mdr with reels := modAt f d.mdr.reels x } }

/-- A loop slot. -/
def Dev.loop (d : Dev) (s : Nat) : Loop := d.tce.loops.getD s Loop.zero

/-- Change a loop slot. -/
def Dev.modLoop (d : Dev) (s : Nat) (f : Loop → Loop) : Dev := { d with tce := { d.tce with loops := modAt f d.tce.loops s } }

/-! ## The reel model (R384) -/

/-- Tape on reel x in µm. -/
def Dev.tapeOn (d : Dev) (x : Nat) : Int :=
  let l := 1000 * signed 32 (d.get (F.tcePackLOfs.ix x))
  if x = 0 then l - 8 * d.eyelet else l + 8 * d.eyelet

/-- The hub radius in nm. -/
def Dev.hub (d : Dev) (x : Nat) : Int := 10000 * (d.get (F.tceReelRHub.ix x) : Int)

/-- The model radius r_x in nm: r² = R_HUB² + THK × L / π. -/
def Dev.radius (d : Dev) (x : Nat) : Int :=
  let h := d.hub x
  Config.realSqrt (h * h + (d.get F.tceTenCfgThk : Int) * d.tapeOn x * 100000000000 / 314159265)

/-- The reel inertia in 10^-15 kg·m². -/
def Dev.inertia (d : Dev) (x : Nat) : Int :=
  let r := d.radius x
  let h := d.hub x
  (d.get (F.tceReelJ.ix x) : Int) * 100000000 + (r * r * r * r - h * h * h * h) * 2583174557 / 10 ^ 29

/-- The torque that A_CMD needs on reel x, J_x × a / r_x, in µN·m. -/
def Dev.torqueOfAcc (d : Dev) (x : Nat) : Int := quot (d.inertia x * d.tce.a) (d.radius x * 1000000)

/-- The torque that reel x gives, KT × i_q, in µN·m. -/
def Dev.torque (d : Dev) (x : Nat) : Int := (d.get (F.tceReelKt.ix x) : Int) * (d.reel x).i_q * Config.csFullScale / 655360

/-- The tension estimate in µN (R384). -/
def Dev.tension (d : Dev) : Int :=
  let f := fun (x : Nat) => quot ((d.torque x - d.torqueOfAcc x) * 1000000000) (d.radius x)
  (f 1 - f 0) / 2

/-- Show the model radii (R402). -/
def Dev.showRadii (d : Dev) : Dev :=
  let r := fun (x : Nat) => (d.radius x / 10000).toNat
  (d.set (F.tcePackRModel.ix 0) (r 0)).set (F.tcePackRModel.ix 1) (r 1)

/-! ## Tape speed (R374) -/

/-- Whether POS counts eyelets: it is not unset, and a mark has been counted in the last 1 ms. -/
def Dev.counting (d : Dev) : Bool := !d.pos.silent && d.pos.mode != .unset

/-- The tape speed in 10^-12 m/s with its sign, and whether it is substituted from reel B. -/
def Dev.tapeSpeed (d : Dev) : Int × Bool :=
  let sign : Int := if d.reverse then -1 else 1
  if !d.counting then (sign * (d.reel 1).omega.natAbs * d.radius 1, true)
  else match d.pos.mode with
    | .count => (sign * quot 8000000000000000 d.pos.interval, false)
    | _ => (sign * (d.pos.freq * 1000000000000 / 4194304 : Nat), false)

/-- A speed in 10^-12 m/s as a signal of `VEL` (R371). -/
def velSignal (v : Int) : Int := v * fullScale / 8000000000000

/-! ## Currents -/

/-- The combined value of a sense channel (R415). -/
def Dev.sense (d : Dev) (c : Nat) : Int := signed 17 (d.get (F.mdrCsValue.ix c))

/-- Whether the phase currents of reel x break SUM_TOL (R419). -/
def Dev.sumBad (d : Dev) (x : Nat) : Bool :=
  decide ((d.get (F.mdrPwmCfgSumTol.ix x)) * 1024 < (d.sense (3 * x) + d.sense (3 * x + 1) + d.sense (3 * x + 2)).natAbs)

/-- A current value as a loop signal. -/
def currentSignal (i : Int) : Int := i * 2147483648

/-- The electrical speed of reel x in 10^-3 rad/s. -/
def Dev.omegaE (d : Dev) (x : Nat) : Int := (d.get (F.mdrMotorPoles.ix x) : Int) * (d.reel x).omega

/-- The decoupling feedforward of a current slot as a fraction of VM_NOW (R421). -/
def Dev.decoupling (d : Dev) (s : Nat) : Int :=
  let x := (s - 4) / 2
  let r := d.reel x
  let ls := (d.get (F.mdrMotorLs.ix x) : Int) * d.omegaE x * Config.csFullScale
  let vm := (d.get F.mdrSupplyVmNow : Int)
  let part := fun (i : Int) => quot (ls * i * fullScale) (655360000000000 * vm)
  if s % 2 = 0 then -(part r.i_q)
  else part r.i_d + quot ((d.get (F.mdrMotorKe.ix x) : Int) * r.omega * fullScale) (10000 * vm)

/-- The feedforward that a slot adds (R370, R378). -/
def Dev.feedForward (d : Dev) (s : Nat) : Int :=
  if 4 ≤ s && d.flag (F.tceSlotFfEn.ix (64 * s)) then d.decoupling s else 0

end Sys2Proof.Machine
end

