-- ==== Sys2Proof/Machine/Motor.lean ====
section
/-!
DEFINITION. Motor drive and sensing (chapter 13): the PWM legs, current sensing, commutation, quadrature inputs and motor
faults, with the rows of that chapter.
-/
namespace Sys2Proof.Machine

/-! ## Loop histories (R382) -/

/-- Whether a slot is closed. -/
def Dev.closed (d : Dev) (s : Nat) : Bool := bitAt (d.get F.tceLoopCtrlClosed) s

/-- The histories of a slot as closing sets them: no error, the output in force less the feedforward. -/
def Dev.setHistories (d : Dev) (s : Nat) : Dev :=
  let ff := d.feedForward s
  d.modLoop s fun l =>
    let u := word48 (sat48 (l.y.toInt - ff))
    { l with e1 := 0, e2 := 0, e3 := 0, u1 := u, u2 := u, u3 := u, ff := word48 ff }

/-! ## Legs and PWM (R408 to R413) -/

/-- The legs of a group: reels A and B, voice coil, stepper. -/
def legsOf (g : Nat) : List Nat := match g with
  | 0 => [0, 1, 2] | 1 => [3, 4, 5] | 2 => [6, 7] | 3 => [8, 9, 10, 11] | _ => []

/-- A leg. -/
def Dev.leg (d : Dev) (l : Nat) : Leg := d.mdr.legs.getD l ⟨0, 0, 0, 0, 0, false⟩

/-- Change a leg. -/
def Dev.modLeg (d : Dev) (l : Nat) (f : Leg → Leg) : Dev := { d with mdr := { d.mdr with legs := modAt f d.mdr.legs l } }

/-- The period of a group in ps (R410). -/
def pwmPeriod (g : Nat) : Int := if g = 2 then 5000000 else 25000000

/-- The high gate of a leg in this period (R412): its pulse in ps, the new carry, and whether the pulse is suppressed. -/
def placePulse (period dead minPulse t : Int) : Int × Int × Bool :=
  if t < max dead minPulse then (0, t, true)
  else if period - 2 * dead - minPulse < t then (period, t - period, false)
  else
    let w := (t + 312) / 625 * 625
    (w, t - w, false)

/-- Where a pulse centred on the peak starts, in ps after the valley (R411). -/
def pulseStart (period w : Int) : Int := period / 2 - w / 625 / 2 * 625

/-- Whether the gates of a driver are driven (R408, R431): enabled, its bootstrap charged, and no Brake on a reel. -/
def Dev.driven (d : Dev) (g : Nat) : Bool :=
  bitAt (d.get F.mdrStatusGdEn) g && !d.mdr.boot.contains g && !(decide (g < 2) && d.flag F.mdrStatusBrake)

/-- DEAD of a group in ps. -/
def Dev.deadOf (d : Dev) (g : Nat) : Int := 1000 * (d.get (F.mdrPwmCfgDead.ix g) : Int)

/-- MIN_PULSE of a group in ps. -/
def Dev.minPulseOf (d : Dev) (g : Nat) : Int := 1000 * (d.get (F.mdrPwmCfgMinPulse.ix g) : Int)

/-- A leg's pulse goes out at its gate. -/
def Dev.showPulse (d : Dev) (g l : Nat) : Dev :=
  d.emit (.pulse l (d.leg l).start (d.leg l).width (d.flag (F.mdrPwmCfgPol.ix g)))

/-- One leg's period (R411, R412). A leg that is not driven, or that the overcurrent limit held off to this valley, starts
anew with its carry. -/
def Dev.legPeriod (d : Dev) (g l : Nat) : Dev :=
  if !d.driven g then d.modLeg l fun x => { x with width := 0, base := x.carry, off := false }
  else
    let x := d.leg l
    let (w, c, sup) := placePulse (pwmPeriod g) (d.deadOf g) (d.minPulseOf g) (x.req + x.carry)
    let d := d.modLeg l fun x =>
      { x with width := w, carry := c, base := x.carry, start := pulseStart (pwmPeriod g) w, off := false }
    (if sup then d.bump C.mdrSuppress else d).showPulse g l

/-- The step of 625 ps of a group's period that TIME has reached, in ps after the valley; none where the period is over or none
has begun. -/
def Dev.pwmPhase (d : Dev) (g : Nat) : Option Int :=
  match d.mdr.valleys.getD g none with
  | none => none
  | some t =>
    let p : Int := 1000 * ((d.time : Int) - t) / 625 * 625
    if 0 ≤ p ∧ p < pwmPeriod g then some p else none

/-- The pulse of a leg after a request within the period (R413): start and width. Before the high gate has turned on it is placed
anew, and starts on the next step where its start has passed; while the gate is on only the end moves; afterwards, or past the peak
with no pulse, the request waits for the next period (none). `t` is the request and the carry from the period before. -/
def movePulse (period dead minPulse now t : Int) (x : Leg) : Option (Int × Int) :=
  let w := (placePulse period dead minPulse t).1
  let s := pulseStart period w
  let next := now + 625
  if (x.width = 0 ∧ now < period / 2) ∨ (0 < x.width ∧ now < x.start) then
    some (if w = 0 ∨ now < s then (s, w) else (next, max 0 (s + w - next)))
  else if 0 < x.width ∧ now < x.start + x.width then
    let least := (x.start + max dead minPulse + 624) / 625 * 625
    let e := if w = 0 then max least next else max (max (s + w) least) next
    some (x.start, e - x.start)
  else none

/-- A request within the period changes this period's pulse as R413 says; a pulse that it suppresses is counted. -/
def Dev.rework (d : Dev) (g l : Nat) : Dev :=
  let x := d.leg l
  if !d.driven g || x.off then d
  else match d.pwmPhase g with
    | none => d
    | some now =>
      let t := x.req + x.base
      match movePulse (pwmPeriod g) (d.deadOf g) (d.minPulseOf g) now t x with
      | none => d
      | some (s, w) =>
        let d := d.modLeg l fun x => { x with start := s, width := w, carry := t - w }
        if w = x.width && (w = 0 || s = x.start) then d
        else (if w = 0 then d.bump C.mdrSuppress else d).showPulse g l

/-- The request of a leg, in ps. -/
def Dev.request (d : Dev) (l : Nat) (t : Int) : Dev := d.modLeg l fun x => { x with req := t }

/-- The group of a leg. -/
def groupOf (l : Nat) : Nat := if l < 3 then 0 else if l < 6 then 1 else if l < 8 then 2 else 3

/-- A request handed over within the period (R376, R413). -/
def Dev.handRequest (d : Dev) (l : Nat) (t : Int) : Dev := (d.request l t).rework (groupOf l) l

/-! ## Voice coil and stepper (R426, R427) -/

/-- Leg requests of the voice coil from the LAT output. -/
def Dev.driveCoil (d : Dev) (y : Int) : Dev :=
  let h := y * 2500000 / fullScale
  (d.handRequest 6 (2500000 + h)).handRequest 7 (2500000 - h)

/-- The stepper's next place: it follows the wanted one by at most ST_SLEW in a period. -/
def Dev.slew (d : Dev) : Dev :=
  let lim := (d.get F.mdrStCfgStSlew : Int)
  let p := d.mdr.stPos + satInt (-lim) lim (d.mdr.stWant - d.mdr.stPos)
  if p = d.mdr.stPos then d else { d with mdr := { d.mdr with stPos := p, stHold := false } }

/-- Leg requests of the stepper at its place: 90° per full step, 256 places a step. -/
def Dev.driveStepper (d : Dev) : Dev :=
  let amp := (d.get (if d.mdr.stHold then F.mdrStCfgStHold else F.mdrStCfgStAmp) : Int)
  let phi : BitVec 16 := BitVec.ofInt 16 (64 * d.mdr.stPos)
  let part := fun (s : Int) => amp * s * 12500000 / (256 * 1073741824)
  let a := part (Config.sine (phi + 0x4000))
  let b := part (Config.sine phi)
  (((d.request 8 (12500000 + a)).request 9 (12500000 - a)).request 10 (12500000 + b)).request 11 (12500000 - b)

/-! ## Motor faults (R431, R432) -/

/-- A read of the transport that a motor fault interrupts has no slot and no kind that the spec states (log 28). -/
def motorDetail : List Byte := leBytes 1 0xFF ++ [Config.driverKind]

/-- A fault of a driver is noted and logged with driver and cause, for which the spec gives no codes (0 gate driver,
1 overcurrent, 2 supply, which has no driver: log 28). -/
def Dev.noteMotorFault (d : Dev) (g cause : Nat) : Dev :=
  let driver := if cause = 2 then [Config.motorCause 3] else leBytes 1 g
  ((d.set F.mdrStatusMotorFaultSeen 1).fault F.glbFaultMotor).eventWith 0x030C (driver ++ [Config.motorCause cause])

/-- GD_EN of a driver goes low; a second fault in the same load leaves it so (R432). A reel of the driver is off (R423). -/
def Dev.dropDriver (d : Dev) (g : Nat) : Dev :=
  let d := d.set F.mdrStatusGdEn (d.get F.mdrStatusGdEn &&& (15 - 2 ^ g))
  let again := d.mdr.gdSeen.contains g
  let d := { d with mdr := { d.mdr with
    gdSeen := if again then d.mdr.gdSeen else g :: d.mdr.gdSeen
    gdDead := if again then g :: d.mdr.gdDead.filter fun x => x != g else d.mdr.gdDead
    gdWait := if again then d.mdr.gdWait.filter fun x => x != g else g :: d.mdr.gdWait.filter fun x => x != g } }
  if g < 2 then (d.set (F.mdrReelMode.ix g) 0).modReel g fun r => { r with omega := 0, plaus := 0, implaus := 0 } else d

/-- A Brake (R431), in the place of an Observer reaction or a Head stop: the gate closes, what is not verified has failed, and
the reels are in short brake. -/
def Dev.brake (d : Dev) : Dev :=
  let d := d.failWritten.interrupt motorDetail
  let reels := d.mdr.reels.map fun (r : Reel) => { r with restart := false }
  let d := { d with mdr := { d.mdr with reels := reels } }
  let d := { d with tce := { d.tce with reaction := 0, stopping := false, target := .stop, held := none } }
  (d.set F.tceStatusReaction 0).set F.mdrStatusBrake 1

/-- A Head stop (R431): the gate closes and a Stop reaction runs from its step 2. During a Brake the Brake goes on. -/
def Dev.headStop (d : Dev) : Dev :=
  let d := d.closeGate
  if d.flag F.mdrStatusBrake || d.tce.reaction == 1 then d
  else ((d.endAtBoundary.interrupt motorDetail).preempt 1 .stop).countStop

/-- What a fault of a group starts: `off` says that its driver is deasserted. A supply fault has no driver of its own; both
reel drivers then wait for the restart (log 28). -/
def Dev.motorFault (d : Dev) (g cause : Nat) (off : Bool) : Dev :=
  let d := d.noteMotorFault g cause
  let d := if off then d.dropDriver g
    else { d with mdr := { d.mdr with gdWait := [0, 1] ++ d.mdr.gdWait.filter fun x => decide (2 ≤ x) } }
  (if g < 2 then d.brake else d.headStop).stopNow 0x030C

/-! ## Current and supply sensing (R415 to R418) -/

/-- The combined value of a channel on the path chosen: offsets are taken off the codes, and the ×8 code is brought to the
×1 path's gain (log 31). A clipped ×1 code saturates. -/
def Dev.combined (d : Dev) (c : Nat) (path8 : Bool) (c1 c8 : Int) : Int :=
  let ofs := fun (f : Fld) => signed 8 (d.get (f.ix c))
  let v := if path8 then quot ((c8 - ofs F.mdrCsCalOfs8) * 32768) (d.get (F.mdrCsCalGain8.ix c))
    else if c1 = 8191 then 65535 else if c1 = -8192 then -65536 else 8 * (c1 - ofs F.mdrCsCalOfs1)
  satInt (-65536) 65535 v

/-- The path chosen from a conversion's codes (R416). -/
def choosePath (path8 : Bool) (c1 c8 : Int) : Bool :=
  if path8 then decide (c8.natAbs < 7680) else decide (c1.natAbs < 512)

/-- The group and the legs that a channel's overcurrent limit turns off (R414, R417). -/
def overLegs (c : Nat) : Nat × List Nat :=
  if c < 6 then (c / 3, [c]) else if c = 6 then (2, [6, 7]) else if c = 7 then (3, [8, 9]) else (3, [10, 11])

/-- A leg's high gate is turned off at once and stays off until the next valley (R417); what its pulse did not deliver is carried
(R412). -/
def Dev.cutLeg (d : Dev) (l : Nat) : Dev :=
  let x := d.leg l
  if x.off then d
  else
    let got := match d.pwmPhase (groupOf l) with | some now => max 0 (min x.width (now - x.start)) | none => x.width
    let d := d.modLeg l fun x => { x with off := true, carry := x.carry + (x.width - got), width := got }
    if got = x.width then d else d.showPulse (groupOf l) l

/-- A conversion beyond OC_LIM (R417); the group faults when its OC_N-th period in succession has one. -/
def Dev.overcurrent (d : Dev) (c : Nat) : Dev :=
  let (g, ls) := overLegs c
  let d := ls.foldl (fun d l => d.cutLeg l) ((d.set F.mdrStatusOcSeen 1).bump C.mdrOc)
  if d.mdr.ocNow.getD g false then d
  else
    let d := { d with mdr := { d.mdr with ocNow := setAt d.mdr.ocNow g true } }
    if d.mdr.ocRuns.getD g 0 + 1 = d.get (F.mdrPwmCfgOcN.ix g) then d.motorFault g 1 true else d

/-- One conversion of a channel. -/
def Dev.convert (d : Dev) (c : Nat) (c1 c8 : Int) : Dev :=
  let was := d.mdr.path8.getD c false
  let p := choosePath was c1 c8
  let v := d.combined c p c1 c8
  let d := { d with mdr := { d.mdr with path8 := setAt d.mdr.path8 c p, moved := setAt d.mdr.moved c (p != was) } }
  let d := if p != was then d.bump C.mdrRangeSwitch else d
  let d := (d.set (F.mdrCsRange.ix c) (b2n p)).set (F.mdrCsValue.ix c) (unsigned 17 v)
  if c = 9 then
    let mv := v * (d.get F.mdrSupplyVmFs : Int) * 500 / 65536
    let d := d.set F.mdrSupplyVmNow (satInt 0 65535 mv).toNat
    let bad := decide (mv < 250 * (d.get F.mdrSupplyVmMin : Int)) || decide (250 * (d.get F.mdrSupplyVmMax : Int) < mv)
    let run := if bad then min 17 (d.mdr.vmRun + 1) else 0
    let d := { d with mdr := { d.mdr with vmRun := run } }
    if run = 16 then d.motorFault 0 2 false else d
  else if d.get (F.mdrPwmCfgOcLim.ix (overLegs c).1) * 64 < v.natAbs then d.overcurrent c
  else d

/-- CURRENT_SENSE_CONVERSION (R415 to R418): the codes of the ×1 and ×8 path of each channel, 14 bits each. -/
def Dev.conversion (d : Dev) (codes : List (Int × Int)) : Dev :=
  (codes.take 10).zipIdx.foldl (fun d x => d.convert x.2 (satInt (-8192) 8191 x.1.1) (satInt (-8192) 8191 x.1.2)) d

/-- PWM_PERIOD (R410 to R412, R417, R427): the period of a group begins at its valley. -/
def Dev.pwm (d : Dev) (g : Nat) : Dev :=
  if 4 ≤ g then d
  else
    let now := d.mdr.ocNow.getD g false
    let runs := setAt d.mdr.ocRuns g (if now then d.mdr.ocRuns.getD g 0 + 1 else 0)
    let d := { d with mdr := { d.mdr with ocRuns := runs, ocNow := setAt d.mdr.ocNow g false } }
    let d := if g = 3 then d.slew.driveStepper else d
    let d := { d with mdr := { d.mdr with valleys := setAt d.mdr.valleys g (some d.time) } }
    (legsOf g).foldl (fun d l => d.legPeriod g l) d

/-! ## Reel commutation (R419 to R425) -/

/-- An angle of 2^-32 turn in 1/65,536 turn. -/
def angle16 (t : BitVec 32) : BitVec 16 := (t >>> 16).setWidth 16

/-- A vector turned by an angle. -/
def turnBy (t : BitVec 16) (a b : Int) : Int × Int :=
  let s := Config.sine t
  let c := Config.sine (t + 0x4000)
  ((a * c - b * s) / 1073741824, (a * s + b * c) / 1073741824)

/-- The mode of a reel (R422). -/
def Dev.reelMode (d : Dev) (x : Nat) : Nat := d.get (F.mdrReelMode.ix x)

/-- Enter a mode. -/
def Dev.enterMode (d : Dev) (x m : Nat) : Dev :=
  (d.set (F.mdrReelMode.ix x) m).modReel x fun r => { r with plaus := 0, implaus := 0 }

/-- Align begins (R422, R423): the angle is held at 0. -/
def Dev.beginAlign (d : Dev) (x : Nat) : Dev := (d.enterMode x 1).modReel x fun r => { r with theta := 0, omega := 0 }

/-- The angle that a speed in 10^-3 rad/s adds in one period, in 2^-32 electrical turn. -/
def angleStep (poles omega : Int) : Int := omega * poles * 107374182400 / 6283185307

/-- What one valley of the observer gives (R424): its new angle and speed, and whether it is plausible. -/
def Dev.observe (d : Dev) (x : Nat) (ia ib : Int) : (BitVec 16 × Int) × Bool :=
  let r := d.reel x
  let vm := (d.get F.mdrSupplyVmNow : Int)
  let ma := fun (i : Int) => i * Config.csFullScale / 65536
  let emf := fun (v i i0 : Int) => v * vm / fullScale - (d.get (F.mdrMotorRs.ix x) : Int) * ma i / 1000
    - (d.get (F.mdrMotorLs.ix x) : Int) * (ma i - ma i0) / 250
  let (th, w, mag) := Config.observerStep (d.get F.mdrObsCfgObsBw) (emf r.va ia r.ia, emf r.vb ib r.ib) r.obs
  let speed := quot d.tapeSpeed.1.natAbs (d.radius x)
  let tol := (d.get F.mdrObsCfgPlausTol : Int)
  let near := fun (a b : Int) => decide (((a - b).natAbs : Int) * 256 ≤ tol * b)
  let ok := decide ((d.get F.mdrObsCfgObsVmin : Int) * 10000000000 ≤ d.tapeSpeed.1.natAbs)
    && near mag ((d.get (F.mdrMotorKe.ix x) : Int) * speed / 10000)
    && near (w.natAbs : Int) ((d.get (F.mdrMotorPoles.ix x) : Int) * speed)
  ((th, w), ok)

/-- The speed at or above `OBS_VMIN` plus so many 0.01 m/s. -/
def Dev.fastBy (d : Dev) (cm : Nat) : Bool :=
  decide (((d.get F.mdrObsCfgObsVmin + cm : Nat) : Int) * 10000000000 ≤ d.tapeSpeed.1.natAbs)

/-- Whether two electrical angles lie within 30°. -/
def within30 (a b : BitVec 16) : Bool := decide ((a - b).toInt.natAbs ≤ 5461)

/-- A reel follows the tape or V_CMD (modes 2 and 3): its speed, and its angle integrated. -/
def Dev.follow (d : Dev) (x : Nat) (v : Int) : Dev :=
  let w := quot v (d.radius x)
  let step := angleStep (d.get (F.mdrMotorPoles.ix x)) w
  d.modReel x fun r => { r with omega := w, theta := r.theta + BitVec.ofInt 32 step }

/-- Acquisition in Eyelet mode (R423, R424); during an Observer reaction it is left to the attempts of R425. -/
def Dev.acquire (d : Dev) (x : Nat) (ok : Bool) : Dev :=
  let n := if ok then (d.reel x).plaus + 1 else 0
  let d := d.modReel x fun r => { r with plaus := n }
  let r := d.reel x
  if !r.restart && d.fastBy 5 && decide (d.get F.mdrObsCfgPlausN ≤ n) && within30 r.obs.1 (angle16 r.theta) then d.enterMode x 4 else d

/-- A valley in Observer mode (R423, R424): angle and speed are the observer's; too slow or the rotor lost, Eyelet mode follows
with the angle going on, and a loss is reported. -/
def Dev.observing (d : Dev) (x : Nat) (ok : Bool) : Dev :=
  let poles := (d.get (F.mdrMotorPoles.ix x) : Int)
  let d := d.modReel x fun r => { r with omega := quot r.obs.2 poles, theta := r.obs.1.setWidth 32 <<< 16 }
  if !d.fastBy 0 then d.enterMode x 3
  else
    let n := if ok then 0 else (d.reel x).implaus + 1
    let d := d.modReel x fun r => { r with implaus := n }
    if d.get F.mdrObsCfgPlausN ≤ n then
      let d := (d.enterMode x 3).bump C.mdrObsLoss
      (d.stick (5 + 2 * x) 0x80).fail [(4 + 2 * x, kindRotor)] x
    else d

/-- The currents of a reel at a valley (R419); a phase sum out of tolerance leaves them as they were. -/
def Dev.takeCurrents (d : Dev) (x : Nat) : Dev :=
  if d.sumBad x then (d.set F.mdrStatusSumErrSeen 1).bump C.mdrSumErr
  else
    let u := d.sense (3 * x)
    let b := (u + 2 * d.sense (3 * x + 1)) * 577350269 / 1000000000
    let (id, iq) := turnBy (0 - angle16 (d.reel x).theta) u b
    let (o, ok) := d.observe x u b
    let d := d.modReel x fun r => { r with i_d := id, i_q := iq, ia := u, ib := b, obs := o }
    match d.reelMode x with
    | 3 => d.acquire x ok
    | 4 => d.observing x ok
    | _ => d

/-- The voltage vector of a reel, limited to 1/√3 of the supply (R420, R422). -/
def Dev.voltage (d : Dev) (x : Nat) : (Int × Int) × Bool :=
  if d.reelMode x = 1 then (((d.get F.mdrObsCfgVAlign : Int) * fullScale / 256, 0), false)
  else
    let lead := angleStep (d.get (F.mdrMotorPoles.ix x)) (d.reel x).omega / 2
    let t := angle16 ((d.reel x).theta + BitVec.ofInt 32 lead)
    let (a, b) := turnBy t (d.loop (4 + 2 * x)).y.toInt (d.loop (5 + 2 * x)).y.toInt
    if fullScale * fullScale < 3 * (a * a + b * b) then
      let m := Config.realSqrt (a * a + b * b)
      let cut := fun (v : Int) => quot (v * (fullScale * 577350269 / 1000000000)) m
      ((cut a, cut b), true)
    else ((a, b), false)

/-- Phase duties and leg requests of a reel (R420). -/
def Dev.driveReel (d : Dev) (x : Nat) : Dev :=
  let (v, cut) := d.voltage x
  let d := if cut then d.bump C.mdrVlim else d
  let d := d.modReel x fun r => { r with va := v.1, vb := v.2 }
  let h := v.2 * 866025404 / 1000000000
  let ps := [v.1, -v.1 / 2 + h, -v.1 / 2 - h]
  let mid := (ps.foldl max v.1 + ps.foldl min v.1) / 2
  ps.zipIdx.foldl (fun d p => d.handRequest (3 * x + p.2) (12500000 + (p.1 - mid) * 25000000 / fullScale)) d

/-- REEL_COMMUTATION (R419 to R424). -/
def Dev.commutate (d : Dev) (x : Nat) : Dev :=
  if 2 ≤ x then d
  else
    let d := d.takeCurrents x
    let d := match d.reelMode x with
      | 2 => d.follow x d.tce.v
      | 3 => d.follow x d.tapeSpeed.1
      | _ => d
    let d := if d.reelMode x = 0 then d else d.driveReel x
    let r := d.reel x
    (d.set (F.mdrReelSpeed.ix x) (unsigned 16 (satInt (-32768) 32767 (r.omega / 10)))).set (F.mdrReelAngle.ix x) (angle16 r.theta).toNat

/-- A reel is done with its part of an Observer reaction; with the last one the reaction ends (R389, R425). -/
def Dev.reelDone (d : Dev) (x : Nat) : Dev :=
  let was := (d.reel x).restart
  let d := d.modReel x fun r => { r with restart := false }
  if was && d.tce.reaction == 2 && d.mdr.reels.all fun r => !r.restart then d.endReaction else d

/-- ALIGN_END (R422, R423, R425). -/
def Dev.alignEnd (d : Dev) (x : Nat) : Dev :=
  if 2 ≤ x || d.reelMode x != 1 then d
  else (((d.setHistories (4 + 2 * x)).setHistories (5 + 2 * x)).enterMode x (if d.counting then 3 else 2)).reelDone x

/-- Reels in Open mode go to Eyelet mode when POS counts an eyelet (R423). -/
def Dev.eyeletCounted (d : Dev) : Dev :=
  let d := { d with pos := { d.pos with silent := false } }
  [0, 1].foldl (fun d x => if d.reelMode x = 2 then d.enterMode x 3 else d) d

/-- EYELET_TIMEOUT (R374, R423): no eyelet has been counted for 1 ms. -/
def Dev.eyeletsGone (d : Dev) : Dev :=
  let d := { d with pos := { d.pos with silent := true } }
  [0, 1].foldl (fun d x => if d.reelMode x = 3 then d.enterMode x 2 else d) d

/-- OBSERVER_REACQ_ATTEMPT (R425): the observer starts from the Eyelet angle. -/
def Dev.reacquire (d : Dev) (x : Nat) (plausible : Bool) : Dev :=
  if 2 ≤ x || d.tce.reaction != 2 || !(d.reel x).restart || d.reelMode x != 3
      || decide (d.tapeSpeed.1.natAbs < 500000000000) then d
  else
    let d := d.modReel x fun r => { r with obs := (angle16 r.theta, d.omegaE x) }
    if plausible then ((d.enterMode x 4).bump C.mdrObsReacq).reelDone x else d

/-- A restart from standstill (R425). -/
def Dev.restartReel (d : Dev) (x : Nat) : Dev := (d.beginAlign x).bump C.mdrRestart

/-! ## Bootstrap and drivers (R408, R432) -/

/-- GD_EN of some drivers goes high, with the bootstrap of drivers 0 to 2. -/
def Dev.enableDrivers (d : Dev) (gs : List Nat) : Dev :=
  let d := gs.foldl (fun d g => d.set F.mdrStatusGdEn (d.get F.mdrStatusGdEn ||| 2 ^ g)) d
  { d with mdr := { d.mdr with boot := d.mdr.boot ++ gs.filter fun g => decide (g < 3) && !d.mdr.boot.contains g } }

/-- BOOTSTRAP_END (R408, R423): reels that LOAD has enabled go to Align; one whose driver faulted waits for its restart. -/
def Dev.bootstrapEnd (d : Dev) : Dev :=
  let gs := d.mdr.boot
  let d := { d with mdr := { d.mdr with boot := [] } }
  [0, 1].foldl (fun d x => if gs.contains x && d.reelMode x = 0 && !d.mdr.gdWait.contains x then d.beginAlign x else d) d

/-- GATE_DRIVER_FAULT (R409, R431). -/
def Dev.driverFault (d : Dev) (g : Nat) : Dev :=
  if 4 ≤ g then d
  else
    let d := (d.set F.mdrStatusGdFault (d.get F.mdrStatusGdFault ||| 2 ^ g)).bump C.mdrGdFault
    d.motorFault g 0 true

/-- GD_EN_REASSERT (R432): both reels have stood; a driver that waits is enabled once more. -/
def Dev.reassert (d : Dev) (g : Nat) : Dev :=
  if !d.mdr.gdWait.contains g || d.mdr.gdDead.contains g || d.mdr.reels.any fun r => decide (500 ≤ r.omega.natAbs) then d
  else d.enableDrivers [g]

/-- GD_RESTART_CHECK (R432): with GD_FLT_N high throughout, the reels restart or the head loop goes on; else the driver stays
off. -/
def Dev.restartCheck (d : Dev) (g : Nat) (high : Bool) : Dev :=
  if !d.mdr.gdWait.contains g || !bitAt (d.get F.mdrStatusGdEn) g then d
  else
    let d := { d with mdr := { d.mdr with gdWait := d.mdr.gdWait.filter fun x => x != g } }
    if high then
      let d := d.set F.mdrStatusGdFault (d.get F.mdrStatusGdFault &&& (15 - 2 ^ g))
      if 2 ≤ g then d
      else
        let d := { d with mdr := { d.mdr with gdWait := d.mdr.gdWait.filter fun x => decide (2 ≤ x) } }
        ((d.set F.mdrStatusBrake 0).restartReel 0).restartReel 1
    else (d.set F.mdrStatusGdFault (d.get F.mdrStatusGdFault ||| 2 ^ g)).dropDriver g

/-! ## Quadrature inputs (R428 to R430) -/

/-- A quadrature input. -/
def Dev.quad (d : Dev) (q : Nat) : Quad := d.mdr.quads.getD q ⟨false, false, false, 0, 0, 0, true⟩

/-- Change a quadrature input. -/
def Dev.modQuad (d : Dev) (q : Nat) (f : Quad → Quad) : Dev := { d with mdr := { d.mdr with quads := modAt f d.mdr.quads q } }

/-- QUADRATURE_EDGE (R428, R429): the filtered levels of A and B after the change. -/
def Dev.quadEdge (d : Dev) (q : Nat) (a b : Bool) : Dev :=
  let x := d.quad q
  if 2 ≤ q || !d.flag (F.mdrQeCfgEn.ix q) || (x.a == a && x.b == b) then d
  else if x.a != a && x.b != b then
    let d := (d.set F.mdrStatusQerr (d.get F.mdrStatusQerr ||| 2 ^ q)).bump (C.mdrQerr + q)
    d.modQuad q fun x => { x with a := a, b := b, subst := if q = 0 then 64 else x.subst }
  else
    let up := if x.a != a then a != b else a == b
    let f := F.mdrQeCountCount.ix q
    let n := signed 48 (d.get f)
    (d.set f (unsigned 48 (if up then n + 1 else n - 1))).modQuad q fun x => { x with a := a, b := b, up := up }

/-- QUADRATURE_INDEX (R430): a rising edge of the filtered index of input 0; input 1 is counted only (R428). -/
def Dev.quadIndex (d : Dev) (q : Nat) : Dev :=
  if q != 0 || !d.flag F.mdrQeCfgEn then d
  else
    let x := d.quad 0
    let n := d.get F.mdrQeCountCount
    if !x.indexed then (d.set F.mdrQeCountCount 0).modQuad 0 fun x => { x with indexed := true }
    else if x.up && n != 0 then (d.set F.mdrQeCountCount 0).bump C.mdrIdxCorr
    else d

/-! ## The rows -/

def execPwmPeriod (group : Nat) (s : State) : Host.Outcome State Fault Refusal := s.doing fun d => d.pwm group
def execCurrentSenseConversion (codes : List (Int × Int)) (s : State) : Host.Outcome State Fault Refusal :=
  s.doing fun d => (d.conversion codes).hostSettle
def execReelCommutation (reel : Nat) (s : State) : Host.Outcome State Fault Refusal := s.doing fun d => (d.commutate reel).hostSettle
def execAlignEnd (reel : Nat) (s : State) : Host.Outcome State Fault Refusal := s.doing fun d => d.alignEnd reel
def execEyeletTimeout (s : State) : Host.Outcome State Fault Refusal := s.doing Dev.eyeletsGone
def execObserverReacqAttempt (reel : Nat) (plausible : Bool) (s : State) : Host.Outcome State Fault Refusal :=
  s.doing fun d => d.reacquire reel plausible
def execBootstrapEnd (s : State) : Host.Outcome State Fault Refusal := s.doing Dev.bootstrapEnd
/-- STEPPER_HOLD (R427). -/
def execStepperHold (s : State) : Host.Outcome State Fault Refusal :=
  s.doing fun d => { d with mdr := { d.mdr with stHold := true } }
def execQuadratureEdge (q : Nat) (a b : Bool) (s : State) : Host.Outcome State Fault Refusal := s.doing fun d => d.quadEdge q a b
def execQuadratureIndex (q : Nat) (s : State) : Host.Outcome State Fault Refusal := s.doing fun d => d.quadIndex q
def execGateDriverFault (g : Nat) (s : State) : Host.Outcome State Fault Refusal := s.doing fun d => (d.driverFault g).hostSettle
def execGdEnReassert (g : Nat) (s : State) : Host.Outcome State Fault Refusal := s.doing fun d => d.reassert g
def execGdRestartCheck (g : Nat) (high : Bool) (s : State) : Host.Outcome State Fault Refusal :=
  s.doing fun d => (d.restartCheck g high).hostSettle

end Sys2Proof.Machine
end

