-- ==== Sys2Proof/Machine/Find.lean ====
section
/-!
DEFINITION. Finding a record on tape (R203, R234, R249): the chain that holds its first byte, and the data sets to be read for it.
-/
namespace Sys2Proof.Machine

/-- The run of a stream in a group. -/
def GroupEntry.run? (e : GroupEntry) (stream : Nat) : Option Run := e.runs.find? fun r => r.stream == stream

/-- Whether manifest entry `i` of a data set of a group holds a click placed again from elsewhere (R233). -/
def GroupEntry.tookOver (e : GroupEntry) (index i : Nat) : Bool :=
  e.replaced.any fun r => r.newIndex == index && decide (r.firstEntry ≤ i) && decide (i < r.firstEntry + r.entries)

/-- The chain of a stream in a group that may hold a record's first byte (R203, R249): of those that FIRST_REC places at the record, the
first, or else the last that begins before it. Where the record turns out to begin in an earlier chain, `before` asks for the last that
begins before it. A chain placed again counts where it was placed first. -/
def GroupEntry.chainFor (e : GroupEntry) (stream : Nat) (rec : Word) (before : Bool) : Option Chain :=
  let cs := e.chains.filter fun c => c.stream == stream && !e.tookOver c.index c.entry
  let at_ := if before then none else cs.find? fun c => c.first == rec
  at_.or ((cs.filter fun c => decide (c.first.toNat < rec.toNat)).getLast?)

/-- The groups of the set in write order, the device's own first (R457). -/
def Dev.allGroups (d : Dev) : List GroupEntry := d.plc.index.groups ++ d.plc.far

/-- Where the chain that may hold a record's first byte begins, and the groups from there on in write order (R249). -/
def Dev.findRecord (d : Dev) (stream : Nat) (rec : Word) (before : Bool) : Option (GroupEntry × Chain × List GroupEntry) :=
  let has := fun (e : GroupEntry) => match e.run? stream with
    | some r => decide (r.first.toNat ≤ rec.toNat) && decide (rec.toNat ≤ r.last.toNat)
    | none => false
  let gs := d.allGroups.filter fun e => (e.run? stream).isSome
  match gs.findIdx? has with
  | none => none
  | some k =>
    let upTo := (List.range (k + 1)).reverse.findSome? fun i =>
      (gs[i]?).bind fun e => (e.chainFor stream rec before).map fun c => (i, e, c)
    upTo.map fun x => (x.2.1, x.2.2, gs.drop x.1)

/-! ## Clicks placed again (R233, R234) -/

/-- Ranges of manifest entries from `start` up to `stop` without those taken, which stand in order. -/
def ownRanges (stop : Nat) : Nat → List (Nat × Nat) → List (Nat × Nat)
  | start, [] => if start < stop then [(start, stop - start)] else []
  | start, (a, n) :: rest => (if start < a then [(start, min a stop - start)] else []) ++ ownRanges stop (max start (a + n)) rest

/-- Put ranges in order. -/
def risingRanges (rs : List (Nat × Nat)) : List (Nat × Nat) :=
  rs.foldl (fun acc t => (acc.filter fun x => decide (x.1 ≤ t.1)) ++ [t] ++ acc.filter fun x => decide (t.1 < x.1)) []

/-- The superseded data set that a REPLACED or MOVED entry of a group names: member, wrap, group and INDEX (R236, R464). -/
def Replaced.old (r : Replaced) (g : GroupEntry) : Nat × Nat × Nat × Nat :=
  match r.moved with
  | none => (g.member, g.wrap, r.oldGroup, r.oldIndex)
  | some (tg, wrap, pos, _) => (tg / 16 + pos, wrap, r.oldGroup, r.oldIndex)

/-- Whether a REPLACED or MOVED entry of group `g` names data set `i` of group `h`. -/
def Replaced.names (r : Replaced) (g h : GroupEntry) (i : Nat) : Bool :=
  r.old g == (h.member, h.wrap, h.group, i) && (if r.moved.isNone then g.generation == h.generation else decide (h.generation ≤ g.generation))

/-- The entries of the index that say where the clicks of a data set were placed again, in write order. -/
def Dev.replacedFor (d : Dev) (h : GroupEntry) (i : Nat) : List (GroupEntry × Replaced) :=
  d.allGroups.flatMap fun g => (g.replaced.filter fun r => r.names g h i).map fun r => (g, r)

/-- Where the clicks of a data set of a group lie, in order (R233, R234, R236): in itself, apart from ranges that hold clicks of others,
or, once it was superseded, where every REPLACED or MOVED entry for it says, data sets superseded in turn left out. Clicks that it had
taken over itself are read at the place of the data set that held them first. -/
def Dev.sourcesOf (d : Dev) (e : GroupEntry) (i : Nat) : List Source :=
  let held := e.replaced.filter fun r => r.newIndex == i
  match d.replacedFor e i with
  | [] => (ownRanges 251 0 (risingRanges (held.map fun r => (r.firstEntry, r.entries)))).map fun r =>
      ⟨e.member, e.wrap, e.group, i, r.1, r.2⟩
  | new =>
    let others := held.map fun r => r.old e
    (new.filter fun x => (d.replacedFor x.1 x.2.newIndex).isEmpty).flatMap fun x =>
      let inner := x.1.replaced.filter fun q => q.newIndex == x.2.newIndex && others.contains (q.old x.1)
      (ownRanges (x.2.firstEntry + x.2.entries) x.2.firstEntry (risingRanges (inner.map fun q => (q.firstEntry, q.entries)))).map fun r =>
        ⟨x.1.member, x.1.wrap, x.1.group, x.2.newIndex, r.1, r.2⟩

/-- The place of a chain's first click once its data set has been superseded: the CHAIN entry of the group that received it (R237). -/
def Dev.chainNow (d : Dev) (e : GroupEntry) (c : Chain) : Option (GroupEntry × Chain) :=
  (d.replacedFor e c.index).findSome? fun x =>
    if (d.replacedFor x.1 x.2.newIndex).isEmpty then
      (x.1.chains.find? fun k => k.stream == c.stream && k.first == c.first && k.index == x.2.newIndex
        && decide (x.2.firstEntry ≤ k.entry) && decide (k.entry < x.2.firstEntry + x.2.entries)).map fun k => (x.1, k)
    else none

/-- Sources from a manifest entry of a data set on. -/
def fromEntry (g : GroupEntry) (index entry : Nat) (ss : List Source) : List Source :=
  let at_ := fun (s : Source) => s.member == g.member && s.wrap == g.wrap && s.group == g.group && s.index == index
    && decide (s.from_ ≤ entry) && decide (entry < s.from_ + s.count)
  match ss.dropWhile fun s => !at_ s with
  | s :: rest => { s with from_ := entry, count := s.count - (entry - s.from_) } :: rest
  | [] => ss

/-- The data sets to be read for a record, in stream order: from its chain's first click to the last group that can hold it
(R203, R249). -/
def Dev.wantsFor (d : Dev) (stream : Nat) (rec : Word) (e : GroupEntry) (c : Chain) (gs : List GroupEntry) : List Source :=
  let may := fun (g : GroupEntry) => match g.run? stream with
    | some r => decide (r.first.toNat ≤ rec.toNat)
    | none => false
  let (g, k) := (d.chainNow e c).getD (e, c)
  let first := fromEntry g k.index k.entry (d.sourcesOf e c.index)
  let same := ((List.range e.count).filter fun i => decide (c.index < i)).flatMap fun i => d.sourcesOf e i
  let later := (gs.drop 1).filter may |>.flatMap fun g => (List.range g.count).flatMap fun i => d.sourcesOf g i
  ((first ++ same ++ later).filter fun s => s.count != 0).eraseDups

/-- A data set that another member's tracks or cartridge holds is asked of it (R454, R457), in width mode with its group's
entry. -/
def Dev.askMember (d : Dev) (w : Source) : Dev :=
  if !d.isMaster || w.member = 0 then d
  else
    let e := if d.casMode = 1 then
        (d.plc.index.groups.find? fun g => g.member == w.member && g.wrap == w.wrap && g.group == w.group).map fun g => g.part []
      else none
    d.sendLink w.member 1 (.want w.wrap w.group w.index (e.getD []))

/-! ## The segment cache (R249) -/

/-- Whether a cached segment describes a group. -/
def Segment.of (x : Segment) (e : GroupEntry) : Bool :=
  x.member == e.member && x.wrap == e.wrap && x.group == e.group && x.generation == e.generation

/-- The groups whose segments are searched for a record's chain: its own first, then earlier ones with a run of the stream (R249). -/
def Dev.searched (d : Dev) (stream : Nat) (rec : Word) (before : Bool) : List GroupEntry :=
  let has := fun (e : GroupEntry) => match e.run? stream with
    | some r => decide (r.first.toNat ≤ rec.toNat) && decide (rec.toNat ≤ r.last.toNat)
    | none => false
  let gs := d.allGroups.filter fun e => (e.run? stream).isSome
  match gs.findIdx? has with
  | none => []
  | some k =>
    let back := (gs.take (k + 1)).reverse
    let n := (back.findIdx? fun e => (e.chainFor stream rec before).isSome).getD 0
    back.take (n + 1)

/-- The data sets to be read for a record: those of segments that are not cached first, of which no click is taken, then those of
the record (R249). -/
def Dev.readPlan (d : Dev) (stream : Nat) (rec : Word) (before : Bool) : Option (List Source) :=
  (d.findRecord stream rec before).map fun x =>
    let absent := (d.searched stream rec before).filter fun e => !(d.plc.segs.any fun s => s.of e)
    let segments := absent.flatMap fun e => (d.sourcesOf e e.segIndex).map fun s => { s with from_ := 251, count := 0 }
    segments ++ d.wantsFor stream rec x.1 x.2.1 x.2.2

/-- Cached segments that are searched become the ones used last (R249). -/
def Dev.touchSegments (d : Dev) (stream : Nat) (rec : Word) (before : Bool) : Dev :=
  let used := fun (s : Segment) => (d.searched stream rec before).any fun e => s.of e
  { d with plc := { d.plc with segs := (d.plc.segs.filter fun s => !used s) ++ d.plc.segs.filter used } }

/-- Segments leave the cache, least recently used first, while P4 stands at level 1 or above (DESIGN CHOICE, log 52). -/
def Dev.trimCache (d : Dev) : Nat → Dev
  | 0 => d
  | fuel + 1 =>
    if d.level 4 = 0 then d
    else match d.plc.segs with
      | [] => d
      | x :: xs => (({ d with plc := { d.plc with segs := xs } }).releaseAll x.granules ownLast).trimCache fuel

/-- P4 granules for the segment cache. -/
def Dev.cacheGranules (d : Dev) : Nat → List Nat × Dev
  | 0 => ([], d)
  | n + 1 => match d.allocate 4 ownLast ownWrite with
    | (none, d) => ([], d)
    | (some h, d) => let (hs, d) := d.cacheGranules n; (h :: hs, d)

/-- The in-line segment in a data set's buffer: the input of its clicks of the index stream (R237). -/
def Dev.segmentIn (d : Dev) (h : Nat) : List Byte :=
  let base := d.bufAddr h
  ((manifestEntries (d.ddrBytes base 4096)).filter fun e => e.stream == 0xFFFF).flatMap fun e =>
    match decodeClick 0xFFFF [] (d.ddrBytes (base + 4096 + e.off) e.len) with
    | .input bs _ => bs
    | .guard | .crc => []

/-- A segment that has been read is cached in P4 (R249). -/
def Dev.cacheSegment (d : Dev) (e : GroupEntry) (bytes : List Byte) : Dev :=
  let n := (bytes.length + 65535) / 65536
  let d := d.trimCache d.plc.segs.length
  if d.level 4 != 0 || d.poolFree 4 < n || d.plc.segs.any (fun s => s.of e) then d
  else
    let (hs, d) := d.cacheGranules n
    let d := hs.zipIdx.foldl (fun (d : Dev) h => d.putDdr (d.bufAddr h.1) ((bytes.drop (65536 * h.2)).take 65536)) d
    { d with plc := { d.plc with segs := d.plc.segs ++ [⟨e.member, e.wrap, e.group, e.generation, hs⟩] } }

/-- What is wanted is asked of the members that hold it. -/
def Dev.askMembers (d : Dev) (ws : List Source) : Dev := ws.foldl Dev.askMember d

/-- A read whose first click begins inside the record goes back to the chain before (R203, R204): the index says by FIRST_REC which
record a chain begins in, and the click's header whether it begins with it. -/
def Dev.goBack (d : Dev) (h : Nat) : Dev :=
  match d.strm.reads.find? fun r => r.h == h with
  | none => d
  | some r =>
    match r.clicks.head? with
    | none => d
    | some c =>
      let begins := c.record != r.record || c.recStart || crc8 (c.bytes.take 15) != fieldAt c.bytes 15 1
      if r.back || !c.whole || c.refused != 0 || begins then d
      else match d.readPlan r.stream r.record true with
        | none => d
        | some ws =>
          ((d.touchSegments r.stream r.record true).askMembers ws).modRead h fun r => { r with back := true, wants := ws, clicks := [] }

end Sys2Proof.Machine
end

