-- ==== Sys2Proof/Machine/Ladder.lean ====
section
/-!
DEFINITION. Read mode (R156 to R163, R203, R207): which slots are read, what C2 and the retry ladder make of them, and the
clicks that a READ_RECORD takes from the data sets.
-/
namespace Sys2Proof.Machine

/-! ## Groups under decode -/

/-- The index's entry for a group of this device's tracks: the newest generation. -/
def Dev.groupEntry? (d : Dev) (wrap group : Nat) : Option GroupEntry :=
  (d.plc.index.groups.filter fun e => e.member == d.self && e.wrap == wrap && e.group == group).getLast?

/-- The INDEX values of a group: its data data sets, then parity where it carries C3. -/
def GroupEntry.indexes (e : GroupEntry) : List Nat := List.range e.count ++ (if e.noC3 then [] else [60, 61, 62, 63])

/-- A data set under decode in read mode that has been through C2. -/
def Decode.done (x : Decode) : Bool := !x.verify && x.c2Bad.isSome

/-- A data set under decode that failed C2 and has no class yet. -/
def Decode.failing (x : Decode) : Bool := x.done && x.klass.isNone

/-- The data sets of a group of a member that have been through C2. -/
def Dev.memberDecodes (d : Dev) (member wrap group : Nat) : List Decode :=
  d.ecc.decodes.filter fun x => x.done && x.member == member && x.wrap == wrap && x.group == group

/-- The data sets of a group of the device that have been through C2. -/
def Dev.groupDecodes (d : Dev) (wrap group : Nat) : List Decode := d.memberDecodes d.self wrap group

/-- The INDEX values of a group that have not been read. -/
def Dev.missing (d : Dev) (e : GroupEntry) : List Nat :=
  e.indexes.filter fun i => !(d.groupDecodes e.wrap e.group).any fun x => x.index == i

/-- Whether a group has a data data set without a class (R158). -/
def Dev.unsettled (d : Dev) (e : GroupEntry) : Bool :=
  (d.groupDecodes e.wrap e.group).any fun x => x.failing && decide (x.index < 60)

/-- The group that needs C3 and of which fewer than all data sets are held (R250). -/
def Dev.needsGroup (d : Dev) : Option GroupEntry :=
  let failing := d.ecc.decodes.filter fun x => x.failing && decide (2 ≤ x.step) && decide (x.index < 60)
  failing.findSome? fun x => match d.groupEntry? x.wrap x.group with
    | some e => if (d.missing e).isEmpty then none else some e
    | none => none

/-- The group read next: one that needs C3 and is not wholly read, or the one of the first wanted data set; nothing is read ahead
while a group is at steps 4 to 6 (R163). -/
def Dev.readTarget (d : Dev) : Option GroupEntry :=
  match d.needsGroup with
  | some e => some e
  | none => if d.ecc.held.isSome then none else d.readOrder.findSome? fun r => match r.wants with
    | w :: _ =>
      if w.member != d.self || (d.groupDecodes w.wrap w.group).any fun x => x.index == w.index then none else d.groupEntry? w.wrap w.group
    | [] => none

/-- The last slot read for a group (R156): 6 after the slot of INDEX 63, which copies and gaps may have moved. -/
def Dev.spanEnd (d : Dev) (e : GroupEntry) : Nat :=
  let rev := wrapReverse e.wrap
  let final := if e.noC3 then e.count - 1 else 63
  match (d.groupDecodes e.wrap e.group).find? fun x => x.index == final with
  | some x => slotAfter rev x.slot 6
  | none => slotAfter rev e.lastSlot 66

/-- Whether any read wants a data set. -/
def Dev.wanted (d : Dev) (x : Decode) : Bool :=
  d.strm.reads.any fun r => r.wants.any fun w => w.member == x.member && w.wrap == x.wrap && w.group == x.group && w.index == x.index

/-- A data set leaves its buffer: what is held of its group is no whole pass over it any more (R250). -/
def Dev.giveUp (d : Dev) (x : Decode) : Dev :=
  let d := d.dropDecode x
  if d.ecc.pass == some (x.wrap, x.group) then { d with ecc := { d.ecc with pass := none } } else d

/-- Data sets that no read needs leave their buffers, once each data data set of their group has been read and has its class or no
read remains (R158). -/
def Dev.tidyReads (d : Dev) : Dev :=
  let none_ := d.strm.reads.isEmpty
  let open_ := fun (x : Decode) => match d.groupEntry? x.wrap x.group with
    | some e => d.unsettled e || (d.missing e).any fun i => decide (i < 60)
    | none => false
  let gone := d.ecc.decodes.filter fun x => !x.verify && (none_ || (x.done && !d.wanted x && !open_ x))
  let d := gone.foldl (fun (d : Dev) x => d.giveUp x) d
  let here := fun (g : Nat × Nat) => d.ecc.decodes.any fun x => !x.verify && x.wrap == g.1 && x.group == g.2
  let d := { d with ecc := { d.ecc with held := d.ecc.held.filter here, c3Seen := d.ecc.c3Seen.filter here } }
  if none_ && d.ecc.pin.isSome then d.unpin else d

/-- Where no P3 buffer is free, a passed data set that no read wants leaves, unless a data set of its group fails; the group is read
again where C3 needs it (R158, R250). -/
def Dev.makeRoom (d : Dev) : Dev :=
  let may := fun (x : Decode) => x.done && x.klass.isSome && !d.wanted x && match d.groupEntry? x.wrap x.group with
    | some e => !d.unsettled e
    | none => true
  match d.ecc.decodes.find? may with
  | some x => d.giveUp x
  | none => d

/-! ## What a read takes from a data set (R203, R204) -/

/-- The clicks of a read with one more piece, and how many were refused so far for pieces that are missing; one whose bytes are poisoned
is refused (R339). A click whose pieces end before its TAIL is refused (R205), unless what follows is that click placed again (R233). -/
def addPiece (slot group index klass : Nat) (area : Nat → Nat → List Byte) (bad : Nat → Nat → Bool) (acc : List RClick × Nat)
    (e : PieceEntry) : List RClick × Nat :=
  let (cs, n) := acc
  let bs := area e.off e.len
  let no := fun (n : Nat) => if bad e.off e.len then stGuard else n
  if e.head then
    let (cs, n) := match cs.getLast? with
      | some c => if c.whole then (cs, n) else if c.bytes.isPrefixOf bs then (cs.dropLast, n) else
          (cs.dropLast ++ [{ c with whole := true, refused := stGuard }], n + 1)
      | none => (cs, n)
    (cs ++ [⟨e.stream, BitVec.ofNat 48 e.record, bs, e.tail, ⟨slot, group, index, klass⟩, no 0, none⟩], n)
  else match cs.getLast? with
    | some c =>
      if c.whole then (cs, n) else (cs.dropLast ++ [{ c with bytes := c.bytes ++ bs, whole := e.tail, refused := no c.refused }], n)
    | none => (cs, n)

/-- Give a read what it wants of a data set that has its class; a data set that is unrecovered ends the read (R207, R317). -/
def Dev.serveOne (d : Dev) (r : Read) (w : Source) (x : Decode) (k : Nat) : Dev :=
  let d :=
    if k = 5 then
      let o : Origin := ⟨x.slot, x.group, x.index, 5⟩
      d.modRead r.h fun r => { r with wants := [], fail := stUnreadable, failDet := o.detail, klass := 5 }
    else
      let base := d.bufAddr x.handle
      let es := ((manifestEntries (d.ddrBytes base 4096)).drop w.from_).take w.count
      let mine := es.filter fun e => e.stream == r.stream
      let bad := mine.findSome? fun e => d.poisonIn (base + 4096 + e.off) e.len
      let d := match bad with
        | some a => ((d.memoryError a).bump C.cmpGuard).set F.cmpStatusGuardSeen 1
        | none => d
      let area := fun (off len : Nat) => d.ddrBytes (base + 4096 + off) len
      let poisoned := fun (off len : Nat) => (d.poisonIn (base + 4096 + off) len).isSome
      let (clicks, n) := mine.foldl (addPiece x.slot x.group x.index k area poisoned) (r.clicks, 0)
      let d := if n = 0 then d else (d.bumpBy C.cmpGuard n).set F.cmpStatusGuardSeen 1
      let d := if w.count != 0 then d else
        match d.allGroups.find? fun e => e.member == w.member && e.wrap == w.wrap && e.group == w.group with
        | some e => d.cacheSegment e (d.segmentIn x.handle)
        | none => d
      (d.modRead r.h fun r => { r with wants := r.wants.drop 1, clicks := clicks, klass := max r.klass k }).goBack r.h
  let d := match d.strm.reads.find? (fun y => y.h == r.h) with
    | some y => if y.wants.isEmpty && y.fail = 0 then d.modRead r.h fun y => { y with fail := stAbsent } else d
    | none => d
  d.judgeRead r.h

/-- A member gives its master a data set that it asked for (R454, R457). -/
def Dev.serveMaster (d : Dev) (r : Read) (w : Source) (x : Decode) (k : Nat) : Dev :=
  let d := d.sendLink 0 3 (.readBack w.wrap w.group w.index k (d.ddrBytes (d.bufAddr x.handle) 1966080))
  let d := d.modRead r.h fun r => { r with wants := r.wants.drop 1 }
  if r.wants.length ≤ 1 then d.dropRead r.h else d

/-- Serve reads from the data sets that have their class, at most `n` times. -/
def Dev.serveReads (d : Dev) : Nat → Dev
  | 0 => d
  | n + 1 =>
    let next := d.readOrder.findSome? fun r => match r.wants with
      | w :: _ => (d.memberDecodes w.member w.wrap w.group).findSome? fun x =>
          if x.index == w.index then x.klass.map fun k => (r, w, x, k) else none
      | [] => none
    match next with
    | none => d
    | some (r, w, x, k) => (if r.asked then d.serveMaster r w x k else d.serveOne r w x k).serveReads n

/-- What follows when data sets have got their class. -/
def Dev.settleReads (d : Dev) : Dev :=
  (d.serveReads (d.strm.reads.map fun r => r.wants.length).sum).tidyReads

/-! ## Classes (R160) -/

/-- A data set gets its class, which ECC.LAST_FAIL shows from class 2 up; it gives its pin up. -/
def Dev.classify (d : Dev) (x : Decode) (k : Nat) : Dev :=
  let d := d.modDecode x.handle fun y => { y with klass := some k }
  let d := if d.ecc.pin == some x.slot then d.unpin else d
  let d := if k = 5 then d.bump C.eccUnrecovered else d
  if 2 ≤ k then
    (((d.set F.eccLastFailClass k).set F.eccLastFailIndex x.index).set F.eccLastFailGroup x.group).set F.eccLastFailSlot x.slot
  else d

/-- Whether a ladder step is enabled. -/
def Dev.stepOn (d : Dev) (k : Nat) : Bool := bitAt (d.get F.eccLadderStepEn) (k - 1)

/-- Whether a failing data set needs recovery: a data data set, or parity of a group with a data data set that failed (R157). -/
def Dev.needsRecovery (d : Dev) (x : Decode) : Bool :=
  decide (x.index < 60) || (d.groupDecodes x.wrap x.group).any fun y => decide (y.index < 60) && (y.failing || y.klass == some 5)

/-- A data set has done ladder steps up to `k`; after the last enabled step it is unrecovered (R162). -/
def Dev.stepDone (d : Dev) (x : Decode) (k : Nat) : Dev :=
  let d := d.modDecode x.handle fun y => { y with step := k }
  if (List.range (6 - k)).any fun i => d.stepOn (k + 1 + i) then d else if d.needsRecovery x then d.classify x 5 else d

/-! ## Reading slots -/

/-- A data set that no slot of its group's span gave: every codeword fails. -/
def lostDecode (e : GroupEntry) (i h : Nat) : Decode :=
  { slot := e.firstSlot, wrap := e.wrap, member := e.member, verify := false, headers := [], syncs := [], reports := [], handle := h
    c2Bad := some (List.range 4096), head := none, headerBad := List.range 256, group := e.group, index := i, corrected := false
    content := true, klass := none, step := 0, merged := [] }

/-- The whole span of a group has been read: the INDEX values not found in it fail. -/
def Dev.endSpan (d : Dev) (e : GroupEntry) : Dev :=
  (d.missing e).foldl (fun (d : Dev) i => match d.allocate 3 ownVerify ownVerify with
    | (none, d) => d
    | (some h, d) =>
      let x := lostDecode e i h
      ((d.addDecode x).bump C.eccLadder).stepDone x 2) d

/-- The tape is where a group is read: in its direction, position locked, within the span. -/
def Dev.inSpan (d : Dev) (e : GroupEntry) : Bool :=
  let rev := wrapReverse e.wrap
  let g := d.readSlot rev
  d.tce.v != 0 && d.reverse == rev && (d.pos.mode == .locked || d.pos.mode == .uncertain)
    && decide (0 ≤ slotsFrom rev e.firstSlot g) && decide (0 ≤ slotsFrom rev g (d.spanEnd e))

/-- The Last reads the next slot of the group that read mode needs (R156, R158); where the tape is elsewhere, it locates
to the group's FIRST_SLOT first (log 23), and so it does, once 64 P3 buffers are free, for a group that needs C3 and has not been held
whole since (R250). Without a P3 buffer nothing is read, and while an event waits on the cobbler the tape stops (R18). -/
def Dev.readSlotNow (d : Dev) (reads : List TrackSignal) : Dev :=
  match d.readTarget with
  | none => d
  | some e =>
    if d.cobblerEvent then (if d.tce.target == .stop then d else d.giveTarget .stop) else
    let rev := wrapReverse e.wrap
    let key := (e.wrap, e.group)
    let again := d.needsGroup == some e && d.ecc.pass != some key
    let go := again || !d.inSpan e
    if go && !d.mayMove then d else
    if again && d.poolFree 3 < 64 then d.makeRoom else
    let there := fun (d : Dev) =>
      let p := d.wrapPlace e.wrap
      { d.toBand p.band with tce := { d.tce with lane := p.lane, weltTrim := 0 } }
    let d := if !go then d else
      let d := (there d).runAt rev (d.clampSpeed (d.get F.plcStatusSpeedTgt)) (readStart rev e.firstSlot)
      { d with ecc := { d.ecc with pass := some key } }
    let g := d.readSlot rev
    match d.allocate 3 ownVerify ownVerify with
    | (none, d) => d.makeRoom
    | (some h, d) =>
      let (vs, d) := d.slotPassed g rev reads
      let d := (d.setTpos (readStart rev (slotAfter rev g 1))).modPlc fun p => { p with sinceSpeed := p.sinceSpeed + 1 }
      let d := d.addDecode { newDecode g e.wrap d.self false h vs with group := e.group }
      if g = d.spanEnd e && d.ecc.pass == some key then
        (({ d with ecc := { d.ecc with pass := none } }).endSpan e).settleReads
      else d

/-- The slot of a verify window's entry. -/
def Entry.windowSlot (e : Entry) : Option (Entry × Nat) := match e.owner with | .window g => some (e, g) | _ => none

/-- VERIFY_WINDOW (R61, R170): the slot of the next verify window passes the read elements, or in read mode the next slot
that is wanted. -/
def Dev.windowPassed (d : Dev) (reads : List TrackSignal) : Dev :=
  match (d.nextEntries Entry.isWindow).findSome? Entry.windowSlot with
  | some (e, g) => d.verifyRead e g reads
  | none => if d.readMode then d.readSlotNow reads else d

/-! ## C2 in read mode (R156, R161) -/

/-- The INDEX of a slot without a valid header: the one that follows the highest read before it (R162's example). -/
def Dev.expectedIndex (d : Dev) (x : Decode) (e : GroupEntry) : Nat :=
  let rev := wrapReverse x.wrap
  let ahead := (d.groupDecodes x.wrap x.group).filter fun y => decide (0 < slotsFrom rev y.slot x.slot)
  match (ahead.map Decode.index).max? with
  | none => 0
  | some i => if i + 1 = e.count then 60 else i + 1

/-- The group and INDEX a slot is read as, where it belongs to a group that read mode needs. -/
def Dev.readAs (d : Dev) (x : Decode) : Option (Nat × Nat) :=
  match x.head with
  | some h =>
    match d.groupEntry? x.wrap h.group with
    | some e =>
      let mine := h.group == x.group || d.strm.reads.any fun r => r.wants.any fun w => w.wrap == x.wrap && w.group == h.group
      if mine && h.generation == e.generation && (h.typ == 1 || h.typ == 2) && e.indexes.contains h.index then
        some (h.group, h.index) else none
    | none => none
  | none =>
    match d.groupEntry? x.wrap x.group with
    | some e => let i := d.expectedIndex x e; if e.indexes.contains i then some (x.group, i) else none
    | none => none

/-- The symbols of tracks with some C2 codewords taken from other tracks. -/
def mergeWords (good : Nat → Bool) (mine other : List (List Nat)) : List (List Nat) :=
  List.zipWith (fun a b => (a.zip b).zipIdx.map fun s => if good s.2 then s.1.2 else s.1.1) mine other

/-- Merge a read of a data set, as payload symbols by codeword, into a failing one (R156): each codeword from the copy with
the highest COPY in which it succeeded. -/
def Dev.mergeInto (d : Dev) (y : Decode) (tracks : List (List Nat)) (bad : List Nat) (copy : Nat) : Dev :=
  let old := y.c2Bad.getD []
  let mineCopy := (y.head.map Header.copy).getD 0
  let from_ := fun (s : Nat) => ((y.merged.find? fun m => m.1 == s).map Prod.snd).getD mineCopy
  let good := fun (s : Nat) => !bad.contains s && (old.contains s || decide (from_ s < copy))
  let left := old.filter bad.contains
  let d := d.putTracks y.handle (mergeWords good (d.bufferTracks y.handle) tracks)
  let ok := !left.isEmpty || d.contentOk y.handle (if y.wrap = insoleWrap then 4 else if y.index < 60 then 1 else 2)
  let d := if ok then d else d.bump C.eccMiscorrect
  let new := ((List.range 4096).filter good).map fun s => (s, copy)
  let merged := new ++ y.merged.filter fun m => !good m.1
  d.modDecode y.handle fun y => { y with c2Bad := some (if ok then left else List.range 4096), merged := merged }

/-- Whether a decode passes C2 as it stands. -/
def Dev.passesC2 (d : Dev) (h : Nat) : Bool := d.ecc.decodes.any fun x => x.handle == h && x.c2Bad == some []

/-- Whether two reads of an INDEX are copies of one data set (R156). -/
def Decode.sameSet (x y : Decode) : Bool :=
  match x.head, y.head with
  | some a, some b => a.generation == b.generation && a.dsSeq == b.dsSeq
  | some _, none => true
  | none, _ => false

/-- C2 has run on a data set in read mode: it joins its group. Of the copies that pass, the one with the highest COPY is used (R156).
A data set that no single read passes but its copies together do is given class 1, which the table of R160 leaves unsaid (DESIGN
CHOICE, log 45). -/
def Dev.joinGroup (d : Dev) (x : Decode) : Dev :=
  let bad := x.c2Bad.getD []
  match (d.groupDecodes x.wrap x.group).find? fun y => y.index == x.index && y.handle != x.handle with
  | none =>
    if bad.isEmpty then d.classify x (b2n x.corrected) else d.bump C.eccLadder
  | some y =>
    let copyOf := fun (z : Decode) => (z.head.map Header.copy).getD 0
    if !x.sameSet y then d.dropDecode x
    else if y.klass.isSome then
      if bad.isEmpty && (y.klass == some 0 || y.klass == some 1) && decide (copyOf y < copyOf x) then
        let d := d.putTracks y.handle (d.bufferTracks x.handle)
        (d.dropDecode x).modDecode y.handle fun y => { y with klass := some (b2n x.corrected), head := x.head }
      else d.dropDecode x
    else if bad.isEmpty then
      let d := d.putTracks y.handle (d.bufferTracks x.handle)
      let d := d.modDecode y.handle fun y => { y with c2Bad := some [] }
      (d.dropDecode x).classify y (b2n x.corrected)
    else
      let d := (d.mergeInto y (d.bufferTracks x.handle) bad ((x.head.map Header.copy).getD 0)).dropDecode x
      if d.passesC2 y.handle then d.classify y 1 else d

/-- C2_DECODE (R149 to R151, R156, R161): the oldest data set with all its C1 reports is decoded. -/
def Dev.c2Decode (d : Dev) : Dev :=
  match d.ecc.decodes.find? fun x => x.c2Bad.isNone && x.c1Done with
  | none => d
  | some x =>
    if x.verify then
      let placed := d.plc.dsets.findSome? fun y => if y.member != d.self then none else
        (y.copies.find? fun k => k.slot == x.slot && k.step == .read).map fun k => y.header k
      d.runC2 (x.settle placed) true
    else
      let x := x.settle none
      match d.readAs x with
      | none => d.dropDecode x
      | some (g, i) =>
        let d := d.runC2 { x with group := g, index := i } true
        match d.ecc.decodes.find? fun y => y.handle == x.handle with
        | some y => (d.joinGroup y).settleReads
        | none => d

/-! ## Steps 1 and 2 (R162, R163) -/

/-- Step 2's parameters: the equaliser adapted twice over the segment from the calibrated taps, as live adaptation goes (R114,
R116). -/
def Dev.retrained (d : Dev) (x : Decode) (r : ReadSet) (t : TrackRead) : ReadSet :=
  let rev := wrapReverse x.wrap
  let one := fun (r : ReadSet) =>
    let v := segView r d.defectCfg x.slot rev (d.oddTrack x) t
    ({ r with taps := v.adapt r r.taps (d.get F.rchCtrlAdaptMu) x.slot rev t.samples } : ReadSet)
  one (one { r with taps := d.calibratedTaps t.channel })

/-- Decode the failed codewords of a slot again from its retained samples, and run C2 again. -/
def Dev.redecode (d : Dev) (x : Decode) (s : Retained) (again : Bool) : Dev :=
  let failed := x.reports.filter fun r => !r.ok
  let d := failed.foldl (fun (d : Dev) f =>
    match s.reads.find? (fun t => t.channel == f.channel), s.sets.find? (fun t => t.1 == f.channel) with
    | some t, some r0 =>
      let live := { d.readSet f.channel x.slot with scan := r0.2.scan }
      let r := if again then d.retrained x live t else live
      let v := segView r d.defectCfg x.slot (wrapReverse x.wrap) (d.oddTrack x) t
      let (rep, _, bytes) := decodeC1 (d.get F.eccC1CfgNorm) (d.get F.eccC1CfgIterRetry) (d.get F.rchDefectMaxPtr)
        (d.get F.rchCtrlModLlr) v x f.channel f.codeword
      let d := match bytes with | some bs => d.putCodeword x f.channel f.codeword bs | none => d
      d.modDecode x.handle fun y => { y with reports := y.reports.map fun q =>
        if q.channel == f.channel && q.codeword == f.codeword then rep else q }
    | _, _ => d) d
  match d.ecc.decodes.find? fun y => y.handle == x.handle with
  | some y => d.runC2 y false
  | none => d

/-- Try step 1 or 2 on a data set whose slot is retained. -/
def Dev.tryStep (d : Dev) (x : Decode) (k : Nat) : Dev :=
  match d.chan.retained.find? fun s => s.slot == x.slot with
  | none => d.stepDone x 2
  | some s =>
    let d := d.redecode x s (k == 2)
    if d.passesC2 x.handle then d.classify x 2 else d.stepDone x k

/-- One of steps 1 and 2 for a data set: skipped when disabled, when too many codewords failed or when the slot cannot be
pinned; the pin is held from step 1 to the end of step 2. -/
def Dev.ladderStep (d : Dev) (x : Decode) : Dev :=
  let k := x.step + 1
  let failed := x.reports.countP fun r => !r.ok
  if x.reports.isEmpty || d.get F.eccLadderRetryCw < failed then d.stepDone x 2
  else if !d.stepOn k then
    let d := if k = 2 && d.ecc.pin == some x.slot then d.unpin else d
    d.stepDone x k
  else
    let (ok, d) := if d.ecc.pin == some x.slot then (true, d) else d.pinSlot x.slot
    if !ok then d.stepDone x 2
    else
      let d := d.tryStep x k
      let ended := (d.ecc.decodes.find? fun y => y.handle == x.handle).all fun y => y.klass.isSome || decide (2 ≤ y.step)
      if ended && d.ecc.pin.isSome then d.unpin else d

/-- RE_DECODE (R162 steps 1 and 2): the data set that holds the pin goes first; another waits for the pin. -/
def Dev.reDecode (d : Dev) : Dev :=
  let ready := d.ecc.decodes.filter fun x => x.failing && decide (x.step < 2)
  match ready.find? fun x => d.ecc.pin == some x.slot with
  | some x => (d.ladderStep x).settleReads
  | none => match ready with
    | x :: _ => if d.ecc.pin.isSome then d else (d.ladderStep x).settleReads
    | [] => d

/-! ## Steps 3 to 6 (R157, R162) -/

/-- The symbols of a payload. -/
def Dev.payloadSymbols (d : Dev) (h : Nat) : List Nat := symbols 983040 (d.ddrBytes (d.bufAddr h) 1966080)

/-- C3 over payload symbols: for each v, the decoded word, where it succeeds. `rows` are the 64 payloads and `bad` their
failed C2 codewords (R156). At most four erased symbols are filled; at step 6, with `tMax`, errors are corrected too (R157). -/
def c3Words (tMax : Nat) (rows : List (List Nat)) (bad : List (List Nat)) : List (Option (List Nat)) :=
  (List.range 983040).map fun v =>
    let word := rows.map fun r => r.getD v 0
    let erased := bad.map fun b => b.contains (v % 4096)
    if tMax = 0 then rsFill 4 c3Exps word erased else (rsDecode 4 tMax c3Exps word erased).map Prod.fst

/-- C3 decodes a group (R157): failing data sets take the symbols found, and codewords that are whole are failed no more. -/
def Dev.c3Decode (d : Dev) (e : GroupEntry) (tMax : Nat) : Dev :=
  let ds := d.groupDecodes e.wrap e.group
  let at_ := fun (i : Nat) => ds.find? fun x => x.index == i
  let order := List.range 60 ++ [60, 61, 62, 63]
  let absent := fun (i : Nat) => decide (e.count ≤ i) && decide (i < 60)
  let rows := order.map fun i => match at_ i with
    | some x => if absent i then List.replicate 983040 0 else d.payloadSymbols x.handle
    | none => List.replicate 983040 0
  let bad := order.map fun i => if absent i then [] else match at_ i with
    | some x => x.c2Bad.getD []
    | none => List.range 4096
  let words := c3Words tMax rows bad
  let key := (e.wrap, e.group)
  let d := if d.ecc.c3Seen.contains key then d else
    ({ d with ecc := { d.ecc with c3Seen := key :: d.ecc.c3Seen } }).bump C.eccC3Decode
  (ds.filter Decode.failing).foldl (fun (d : Dev) x =>
    let i := x.index
    let old := rows.getD i []
    let new := List.zipWith (fun o (w : Option (List Nat)) => match w with | some s => s.getD i o | none => o) old words
    let lost := (words.zipIdx.filter fun w => w.1.isNone).map fun w => w.2 % 4096
    let left := (x.c2Bad.getD []).filter lost.contains
    let d := d.putDdr (d.bufAddr x.handle) (symbolBytes new)
    let ok := !left.isEmpty || d.contentOk x.handle (if x.index < 60 then 1 else 2)
    let d := if ok then d else d.bump C.eccMiscorrect
    d.modDecode x.handle fun y => { y with c2Bad := some (if ok then left else List.range 4096) }) d

/-- Failing data sets of a group, as they stand. -/
def Dev.failingOf (d : Dev) (e : GroupEntry) : List Decode := (d.groupDecodes e.wrap e.group).filter Decode.failing

/-- Class the data sets that pass now. -/
def Dev.classPassed (d : Dev) (e : GroupEntry) (k : Nat) : Dev :=
  ((d.failingOf e).filter fun x => x.c2Bad == some []).foldl (fun (d : Dev) x => d.classify x k) d

/-- Note a step for every data set of a group that still fails, data before parity. The last step of the group that is at steps 4 to
6 lets reading ahead go on (R163). -/
def Dev.groupStep (d : Dev) (e : GroupEntry) (k : Nat) : Dev :=
  let fs := d.failingOf e
  let d := ((fs.filter fun x => decide (x.index < 60)) ++ fs.filter fun x => decide (60 ≤ x.index)).foldl (fun (d : Dev) x => d.stepDone x k) d
  if d.ecc.held == some (e.wrap, e.group) && !d.unsettled e then { d with ecc := { d.ecc with held := none } } else d

/-- A group whose failing data data sets all stand at ladder step `k`, wholly read; past step 3 only the one group that is at steps
4 to 6, where there is one (R163). -/
def Dev.groupAt (d : Dev) (k : Nat) : Option GroupEntry :=
  d.ecc.decodes.findSome? fun x =>
    if x.failing && x.step == k && decide (x.index < 60) && (decide (k < 3) || d.ecc.held.all fun g => g == (x.wrap, x.group)) then
      match d.groupEntry? x.wrap x.group with
      | some e => if (d.missing e).isEmpty && (d.failingOf e).all fun y => decide (k ≤ y.step) then some e else none
      | none => none
    else none

/-- C3_ERASURE_DECODE (R157, R162 steps 3 and 6). -/
def Dev.c3Step (d : Dev) : Dev :=
  match d.groupAt 2 with
  | some e =>
    let d := if d.stepOn 3 && !e.noC3 then (d.c3Decode e 0).classPassed e 3 else d
    (d.groupStep e 3).settleReads
  | none => match d.groupAt 5 with
    | some e =>
      let d := if d.stepOn 6 && !e.noC3 then (d.c3Decode e 2).classPassed e 3 else d
      (d.groupStep e 6).settleReads
    | none => d

/-- The decode in a P3 buffer. -/
def Dev.decodeIn (d : Dev) (h : Nat) : Option Decode := d.ecc.decodes.find? fun x => x.handle == h

/-- A slot of a group is read again into a buffer (R162): C1 of every codeword, and the header. What the first pass counts does not
count (R167). -/
def Dev.readAgain (d : Dev) (wrap group g h : Nat) (reads : List TrackSignal) : Dev :=
  let (vs, d) := d.slotPassed g (wrapReverse wrap) reads
  let x := { newDecode g wrap d.self false h vs with group := group }
  let cfg := (d.get F.eccC1CfgNorm, d.get F.eccC1CfgIterMax)
  let d := vs.foldl (fun (d : Dev) v => (List.range 8).foldl (fun d c =>
    let (rep, _, bytes) := decodeC1 cfg.1 cfg.2 (d.get F.rchDefectMaxPtr) (d.get F.rchCtrlModLlr) v.view x v.read.channel c
    let d := match bytes with | some bs => d.putCodeword x v.read.channel c bs | none => d
    d.modDecode h fun y => { y with reports := y.reports ++ [rep] }) d) (d.addDecode x)
  d.modDecode h fun y => y.settle none

/-- A further read of a data set goes into the failing one (R156), and its buffer back. -/
def Dev.mergeRead (d : Dev) (x y : Decode) : Dev :=
  let d := if x.sameSet y then d.mergeInto y (d.bufferTracks x.handle) (x.c2Bad.getD []) ((x.head.map Header.copy).getD 0) else d
  d.dropDecode x

/-- A slot of a group is read again (R162) and merged into the failing data set of which it holds a copy. -/
def Dev.rereadSlot (d : Dev) (e : GroupEntry) (g : Nat) (reads : List TrackSignal) : Dev :=
  match d.allocate 3 ownVerify ownVerify with
  | (none, d) => d
  | (some h, d) =>
    let d := d.readAgain e.wrap e.group g h reads
    match d.decodeIn h with
    | none => d
    | some x => match d.readAs x with
      | none => d.dropDecode x
      | some (gr, i) =>
        let d := d.runC2 { x with group := gr, index := i } false
        match d.decodeIn h, (d.failingOf e).find? fun y => y.index == i && y.handle != h with
        | some x, some y => d.mergeRead x y
        | _, _ => d.dropDecode x

/-- One further read of a group (R162 steps 4 and 5): merged with what was read before, then C3 again. -/
def Dev.mergeReads (d : Dev) (e : GroupEntry) (reads : List (Nat × List TrackSignal)) : Dev :=
  let d := (reads.foldl (fun (d : Dev) r => d.rereadSlot e r.1 r.2) d).classPassed e 4
  if (d.failingOf e).isEmpty || e.noC3 || !d.stepOn 3 then d else (d.c3Decode e 0).classPassed e 3

/-- GROUP_REREAD (R162 steps 4 and 5): at the speed of the first read, then twice at 1.00 m/s, with what the read elements give of
the slots of the group's span. -/
def Dev.groupReread (d : Dev) (reads : List (Nat × List TrackSignal)) : Dev :=
  let forget := fun (d : Dev) => ({ d with ecc := { d.ecc with rereads := 0 } } : Dev)
  let done := fun (d : Dev) => ({ d with ecc := { d.ecc with rereads := 0, held := none } } : Dev)
  let once := fun (d : Dev) (e : GroupEntry) (speed : Nat) =>
    let rev := wrapReverse e.wrap
    let d := (d.runAt rev speed (readStart rev (slotAfter rev (d.spanEnd e) 1))).mergeReads e reads
    ({ d with ecc := { d.ecc with rereads := d.ecc.rereads + 1, held := some (e.wrap, e.group) } } : Dev)
  if !d.mayMove then d else
  match d.groupAt 3 with
  | some e =>
    if !d.stepOn 4 || d.get F.eccLadderRereads = 0 then (d.groupStep e 4).settleReads
    else
      let d := once d e (d.clampSpeed (d.get F.plcStatusSpeedTgt))
      if !d.unsettled e then (done d).settleReads
      else if d.get F.eccLadderRereads ≤ d.ecc.rereads then ((forget d).groupStep e 4).settleReads
      else d.settleReads
  | none => match d.groupAt 4 with
    | some e =>
      if !d.stepOn 5 then (d.groupStep e 5).settleReads
      else
        let d := once d e 20
        if !d.unsettled e then (done d).settleReads
        else if 2 ≤ d.ecc.rereads then ((forget d).groupStep e 5).settleReads
        else d.settleReads
    | none => d

def execVerifyWindow (reads : List TrackSignal) (s : State) : Host.Outcome State Fault Refusal :=
  s.doing fun d => (d.windowPassed reads).hostSettle
def execC2Decode (s : State) : Host.Outcome State Fault Refusal := s.doing fun d => d.c2Decode.hostSettle
def execReDecode (s : State) : Host.Outcome State Fault Refusal := s.doing fun d => d.reDecode.hostSettle
def execC3ErasureDecode (s : State) : Host.Outcome State Fault Refusal := s.doing fun d => d.c3Step.hostSettle
def execGroupReread (reads : List (Nat × List TrackSignal)) (s : State) : Host.Outcome State Fault Refusal :=
  s.doing fun d => (d.groupReread reads).hostSettle

end Sys2Proof.Machine
end

