-- ==== Sys2Proof/Machine/Read.lean ====
section
/-!
DEFINITION. READ_RECORD and LOCATE (R249, R317, R318, R390): records in the device's buffers, finding a record in the index,
and the data sets that hold it.
-/
namespace Sys2Proof.Machine

/-! ## Records in buffers -/

/-- The input bytes of a click that the device still holds. -/
def Dev.heldInput (d : Dev) (c : Click) : List Byte := if c.uncoded then d.inputOf c else c.input

/-- The bytes of a record from clicks in cut order, and whether its end has come; none where a part is missing. -/
def joinRecord (input : Click → List Byte) (rec : Word) : List Click → Bool → List Byte → Option (List Byte)
  | [], _, _ => none
  | c :: rest, begun, got =>
    if decide (c.record.toNat ≤ rec.toNat) && decide (rec.toNat ≤ c.lastRecord.toNat) then
      let start := begun || c.record != rec || c.recStart
      if !start then none
      else
        let (bs, done) := recordPart rec c.record (input c) c.ends
        if done then some (got ++ bs) else joinRecord input rec rest true (got ++ bs)
    else if begun then none else joinRecord input rec rest begun got

/-- A record all of whose clicks are in the device's buffers (R317). -/
def Dev.bufferRecord (d : Dev) (stream : Nat) (rec : Word) : Option (List Byte) :=
  joinRecord d.heldInput rec (d.strm.clicks.filter fun c => c.stream == stream) false []

/-- Cut the open click of a stream when it holds the last bytes of a record (R317). -/
def Dev.cutFor (d : Dev) (stream : Nat) (rec : Word) : Dev :=
  match d.ctx? stream with
  | some x =>
    if x.inLen != 0 && decide (x.owner.toNat ≤ rec.toNat) && decide (rec.toNat < x.nextRec.toNat) then d.cut x.id true else d
  | none => d

/-- The click with a record's first byte, among the clicks in buffers. -/
def Dev.firstClick (d : Dev) (stream : Nat) (rec : Word) : Option Click :=
  d.strm.clicks.find? fun c => c.stream == stream && decide (c.record.toNat ≤ rec.toNat)
    && decide (rec.toNat ≤ c.lastRecord.toNat) && (c.record != rec || c.recStart)

/-! ## READ_RECORD -/

/-- The session must end before the tape may leave the append point (R222). -/
def Dev.endForTape (d : Dev) : Dev :=
  match d.plc.session with
  | none => d
  | some s => if s.ending then d else d.cutAll.modSession fun s => { s with ending := true }

/-- P3 buffers for a record; none where too few are free. -/
def Dev.takeOutput (d : Dev) (n : Nat) : Option (List Nat) × Dev :=
  let r := (List.range n).foldl (fun (s : List Nat × Dev) _ =>
    match s.2.allocate 3 ownComp ownComp with
    | (some h, d) => (s.1 ++ [h], d)
    | (none, d) => (s.1, d)) ([], d)
  if r.1.length = n then (some r.1, r.2) else (none, r.2.releaseAll r.1 ownComp)

/-- How a command fails when its motion does (R390, R393). -/
def motionDetail : Motion → Option (List Byte)
  | .arrived => none
  | .notReached => some (leBytes 1 0xFF ++ leBytes 1 0)
  | .reaction slot kind => some (leBytes 1 slot ++ leBytes 1 kind)

/-- The tape read for a record that the index places (R203, R249). A session that is open ends first (R222). -/
def Dev.readTape (d : Dev) (c : Cmd) (rec : Word) (m : Motion) : Dev :=
  match d.readPlan c.stream rec false with
  | none => d.finish c.h stAbsent []
  | some wants =>
    let d := d.modCmd c.h fun c => { c with phase := .started, motion := true }
    if d.plc.session.isSome then d.endForTape
    else match d.motionBar.or (motionDetail m) with
      | some det => d.finish c.h stTransport det
      | none =>
        match if d.casMode = 2 then (wants.map Source.member).find? fun m => !d.stripeMembers.contains m else none with
        | some m => d.finish c.h stMember (leBytes 1 m)
        | none =>
          let r : Read := ⟨c.h, c.stream, rec, wants, [], 0, 0, [], [], false, false⟩
          ((({ d with strm := { d.strm with reads := d.strm.reads ++ [r] } }).touchSegments c.stream rec false).askMembers wants).streaming

/-- READ_RECORD (R317): from the buffers where all its clicks are there, else from tape. Where no P3 buffer is free for a
record in buffers, the command waits. Met again while it reads, the row says how its motion goes on (R390). -/
def Dev.readRecord (d : Dev) (h : Nat) (m : Motion) : Dev :=
  match d.ready? h opRead with
  | none => d
  | some c =>
    if !d.cart.loaded then d.finish h stNotLoaded []
    else
      let rec_ := BitVec.ofNat 48 (c.par 16 6)
      match d.strm.reads.find? fun r => r.h == h with
      | some r =>
        match motionDetail m with
        | some det => d.failRead r stTransport det
        | none => d.endForTape
      | none =>
        let d := d.cutFor c.stream rec_
        match d.bufferRecord c.stream rec_ with
        | none => d.readTape c rec_ m
        | some bytes =>
          match d.takeOutput ((bytes.length + p3Bytes - 1) / p3Bytes) with
          | (none, d) => d.modCmd h fun c => { c with phase := .started }
          | (some out, d) => d.deliver c bytes out 0

/-! ## LOCATE -/

/-- The slot where a data set in flight lies: the copy that passed, else the latest. -/
def DSet.slotNow (x : DSet) : Nat :=
  match x.copies.find? fun k => k.step == .passed with
  | some k => k.slot
  | none => ((x.last?).map Copy.slot).getD x.first

/-- Where the chain of a record in buffers begins, once its first click is placed; `some none` while it is not. -/
def Dev.chainInBuffers (d : Dev) (stream : Nat) (rec : Word) : Option (Option (Nat × Nat)) :=
  match d.firstClick stream rec with
  | none => none
  | some c =>
    match (d.strm.clicks.filter fun k => k.ctx == c.ctx && k.chain == c.chain && k.reset && decide (k.id ≤ c.id)).getLast? with
    | none => none
    | some k => some ((k.pieces.find? fun p => p.head).bind fun p => (d.dset? p.ds).map fun x => (x.slotNow, x.wrap))

/-- LOCATE (R249, R318). The slot named is that of the chain's first click: where its data set lies, or by the index the place
of its INDEX counted from the group's first slot. A chain in buffers that is not yet placed is waited for. The row gives the
position target first (R393); met again, it says how the motion came out. -/
def Dev.locate (d : Dev) (h : Nat) (m : Motion) : Dev :=
  match d.ready? h opLocate with
  | none => d
  | some c =>
    if !d.cart.loaded then d.finish h stNotLoaded []
    else
      let rec_ := BitVec.ofNat 48 (c.par 16 6)
      let d := d.cutFor c.stream rec_
      match d.chainInBuffers c.stream rec_ with
      | some (some (slot, wrap)) => d.finish h stGood (leBytes 4 slot ++ leBytes 1 wrap)
      | some none => d.modCmd h fun c => { c with phase := .started }
      | none =>
        match d.findRecord c.stream rec_ false with
        | none => d.finish h stAbsent []
        | some (e, ch, _) =>
          let d := d.modCmd h fun c => { c with phase := .started, motion := true }
          if d.plc.session.isSome then d.endForTape
          else if !d.tce.target.isPlace && d.motionBar.isNone && m == .arrived then
            let rev := wrapReverse e.wrap
            let back : Int := if rev then 300 else -300
            let at_ := readStart rev (slotAfter rev e.firstSlot ch.index) / 512 + back
            let speed : Int := d.clampSpeed (d.get F.plcStatusSpeedTgt)
            if !d.mayMove then d else d.streaming.toPlace at_ (if at_ < d.eyelet then -speed else speed)
          else match d.motionBar.or (motionDetail m) with
            | some det => d.finish h stTransport det
            | none =>
              let rev := wrapReverse e.wrap
              let g := slotAfter rev e.firstSlot ch.index
              let back : Int := if rev then 300 else -300
              let held := d.tce.held
              let d := d.streaming.standAt (readStart rev g / 512 + back)
              let d := match held with | some t => d.giveTarget t | none => d
              (d.finish h stGood (leBytes 4 g ++ leBytes 1 e.wrap)).standStill

def execReadRecord (h : Nat) (motion : Motion) (s : State) : Host.Outcome State Fault Refusal :=
  s.doing fun d => (d.readRecord h motion).hostSettle
def execLocate (h : Nat) (motion : Motion) (s : State) : Host.Outcome State Fault Refusal :=
  s.doing fun d => (d.locate h motion).hostSettle

end Sys2Proof.Machine
end

