-- ==== Sys2Proof/Machine/Loops.lean ====
section
/-!
DEFINITION. The transport control engine (chapter 12): traces, the compensator and its supervision, the mixer, the profile
generator, and the rows of that chapter.
-/
namespace Sys2Proof.Machine

/-! ## Trace buffers (R394, R395) -/

/-- Trace buffer b. -/
def Dev.trace (d : Dev) (b : Nat) : Trace := d.tce.traces.getD b Trace.zero

/-- Store a trace buffer. -/
def Dev.putTrace (d : Dev) (b : Nat) (t : Trace) : Dev := { d with tce := { d.tce with traces := setAt d.tce.traces b t } }

/-- The index of the triggering record, counted from the oldest held. -/
def Trace.trigIndex (t : Trace) : Option Nat := t.trigRec.map fun n => t.recs.length - 1 - n

/-- One record is taken: 2,048 are held, and after the trigger POST are counted. -/
def Trace.take (t : Trace) (r : List Word) : Trace :=
  let recs := (r :: t.recs).take 2048
  if t.state = 2 then
    { t with recs := recs, trigRec := some (match t.trigRec with | some n => n + 1 | none => 0)
             left := t.left - 1, state := if t.left ≤ 1 then 3 else 2 }
  else { t with recs := recs }

/-- A sample of a source passes a buffer: a flag or a TIME that it waits for triggers it, and every DECIM-th is recorded. -/
def Trace.sample (t : Trace) (src flags : Nat) (now : Word) (r : List Word) : Trace :=
  if t.source != src || !(t.state == 1 || t.state == 2) then t
  else
    let hit := t.state == 1 && ((t.trig == 2 && flags &&& t.mask != 0) || (t.trig == 4 && atOrBefore48 t.target now))
    let t := if hit then { t with state := 2, left := t.post, trigRec := none } else t
    if t.skip = 0 then ({ t with skip := t.decim - 1 }).take r else { t with skip := t.skip - 1 }

/-- Whether a sample of a source that passes a buffer is written in it. -/
def Trace.writes (t : Trace) (src : Nat) : Bool := t.source == src && (t.state == 1 || t.state == 2) && t.skip == 0

/-- The trace port carries a record that its buffer writes: 24 bytes, unless the balls change function (R556, R557). -/
def Dev.tracePort (d : Dev) (src : Nat) (r : List Word) : Dev :=
  if d.flag F.pinTraceEn && !d.flag F.pinStatusTrcHiz && (d.trace (d.get F.pinTraceBuf)).writes src then
    d.emit (.trace (r.flatMap fun w => leBytes 6 w.toNat))
  else d

/-- A sample of a source passes all buffers. -/
def Dev.record (d : Dev) (src flags : Nat) (r : List Word) : Dev :=
  let d := d.fireTraces.tracePort src r
  let now := BitVec.ofNat 48 d.time
  { d with tce := { d.tce with traces := d.tce.traces.map fun (t : Trace) => t.sample src flags now r } }

/-- Arm buffer b as its registers say (R395, R403): its content is discarded; a target that is not ahead refuses it. -/
def Dev.armTrace (d : Dev) (b : Nat) : Option Dev :=
  let f := fun (x : Fld) => d.get (x.ix (4 * b))
  let trig := f F.tceTraceTrig
  let target := BitVec.ofNat 48 (f F.tceTraceTarget)
  let t : Trace := ⟨if trig = 0 then 2 else 1, f F.tceTraceSource, trig, f F.tceTraceFlagMask, target, f F.tceTracePost,
    max 1 (f F.tceTraceDecim), [], none, f F.tceTracePost, 0⟩
  let d := d.dropEntries fun e => e.owner == .trace b
  if trig = 3 then
    let rev := decide (target.toInt < d.tpos)
    (d.arm ⟨target.toInt, rev, .trace b⟩).map fun d => d.putTrace b t
  else if trig = 4 && !before48 (BitVec.ofNat 48 d.time) target then none
  else some (d.putTrace b t)

/-- Stop a buffer: one that is armed or triggered is done. -/
def Dev.stopTrace (d : Dev) (b : Nat) : Dev :=
  let t := d.trace b
  let d := d.dropEntries fun e => e.owner == .trace b
  if t.state = 1 ∨ t.state = 2 then d.putTrace b { t with state := 3 } else d

/-- The results of MAINT_TRACE (R397). -/
def Dev.traceResult (d : Dev) (b : Nat) : List Byte :=
  let t := d.trace b
  leBytes 2 t.recs.length ++ leBytes 1 t.state ++ leBytes 1 0 ++ leBytes 2 (t.trigIndex.getD 0xFFFF)

/-- The parameters of a MAINT_TRACE arm go to the buffer's registers. -/
def Dev.loadTrace (d : Dev) (c : Cmd) (b : Nat) : Dev :=
  let trig := c.par 19 1
  let mask := if trig = 2 then c.par 20 1 else d.get (F.tceTraceFlagMask.ix (4 * b))
  let put := fun (d : Dev) (f : Fld) (v : Nat) => d.set (f.ix (4 * b)) v
  let d := put (put (put d F.tceTraceSource (c.par 18 1)) F.tceTraceTrig trig) F.tceTraceFlagMask mask
  put (put (put d F.tceTraceTarget (c.par 20 6)) F.tceTracePost (c.par 26 2)) F.tceTraceDecim (c.par 28 1)

/-- TRACE_ARM (R395, R397, R403). -/
def Dev.traceArm (d : Dev) (a : TraceArm) : Dev :=
  match a with
  | .command h => d.maint h opTrace 0 fun c =>
    let b := c.par 17 1
    match (d.loadTrace c b).armTrace b with
    | some d => d.finish h stGood (d.traceResult b)
    | none => (if c.par 19 1 = 3 then d.bump C.posLate else d).finish h stLate []
  | .register b =>
    if 4 ≤ b then d
    else match d.armTrace b with
      | some d => d
      | none => if d.get (F.tceTraceTrig.ix (4 * b)) = 3 then d.bump C.posLate else d

/-- TRACE_STOP (R397). -/
def Dev.traceStop (d : Dev) (h : Nat) : Dev := d.maint h opTrace 1 fun c =>
  let d := d.stopTrace (c.par 17 1)
  d.finish h stGood (d.traceResult (c.par 17 1))

/-- TRACE_READ (R397): the records oldest first. -/
def Dev.traceRead (d : Dev) (h : Nat) : Dev := d.maint h opTrace 2 fun c =>
  let b := c.par 17 1
  let d := d.stopTrace b
  let bytes := (d.trace b).recs.reverse.flatMap fun r => r.flatMap fun w => leBytes 6 w.toNat
  d.answerData c bytes (d.traceResult b)

/-! ## Measurements and references (R370 to R375) -/

/-- What a sample is worth (R379). -/
inductive Worth where
  | invalid | valid | subst
  deriving DecidableEq, Repr

/-- The head lateral position (R372), in 1/1,024 µm, where a lateral input is valid. -/
def Dev.headPlace (d : Dev) : Option Int :=
  let one := fun (i : Nat) =>
    let (neg, ofs) := d.lateralCal i
    let y := signed 24 (d.get (F.posLatOffset.ix i))
    if d.flag (F.posLatValid.ix i) then some ((if neg then -y else y) + ofs) else none
  match one 0, one 1 with
  | some a, some b => some ((a + b) / 2)
  | some a, none | none, some a => some a
  | none, none => none

/-- The coarse positioner's place (R375, R428, R429): after a quadrature error, the last good one and the steps since. -/
def Dev.coarsePlace (d : Dev) : Int × Worth :=
  let q := d.quad 0
  if q.subst = 0 then ((Config.crsPlace (d.word F.mdrQeCountCount.addr)).toInt, .valid)
  else (q.lastGood + (d.mdr.stPos - q.stAt) * (d.get F.mdrStCfgStUm : Int) * 65536, .subst)

/-- The measurement of a slot. -/
def Dev.measured (d : Dev) (s : Nat) : Int × Worth :=
  match s with
  | 0 => match d.headPlace with | some y => (y * 2147483648, .valid) | none => (0, .invalid)
  | 1 => d.coarsePlace
  | 2 => let (v, sub) := d.tapeSpeed; (velSignal v, if sub then .subst else .valid)
  | 3 => (d.tension * fullScale / 8000000, .valid)
  | _ =>
    let r := d.reel ((s - 4) / 2)
    (currentSignal (if s % 2 = 0 then r.i_d else r.i_q), if d.sumBad ((s - 4) / 2) then .invalid else .valid)

/-- The lateral offset of ladder step 5 (R162, R375), in nm. -/
def Dev.ladderOffset (d : Dev) : Int :=
  if (d.groupAt 3).isNone && (d.groupAt 4).isSome && d.stepOn 5 then
    let o := (d.get F.eccLadderOffset : Int)
    if d.ecc.rereads = 0 then -o else o
  else 0

/-- The offload of LAT (R375) as a CRS signal: the mean of its last outputs times VC_UM. -/
def Dev.offload (d : Dev) : Int :=
  match d.tce.latOuts with
  | [] => 0
  | ys => ys.sum / (ys.length : Int) * (d.get F.tceLatCfgVcUm : Int) / 8388608

/-- The reference of a slot (R370); the lane target is split between LAT, which takes the lane, and CRS, which takes the band
(log 33). -/
def Dev.reference (d : Dev) (s : Nat) : Int :=
  match s with
  | 0 => (300 * (d.tce.lane : Int) + d.ladderOffset) * fullScale / 64000 + d.tce.weltTrim * 33554432
  | 1 => (d.pos.dataBand : Int) * 3078400 * fullScale / 32768000 + d.offload
  | 2 => velSignal d.tce.v
  | 3 => (d.get F.tceTenCfgTenRef : Int) * fullScale / 8000
  | _ => if s % 2 = 0 then 0 else (d.loop s).ref.toInt

/-! ## The compensator (R378) -/

/-- One run of the compensator. -/
structure Comp where
  e : Int
  y : Int
  u : Int
  flags : Nat
  deriving DecidableEq, Repr

/-- R378 for coefficients b0 to b3 and a1 to a3, with error `r − m`, feedforward and output limits. -/
def compensate (co : List Int) (three : Bool) (l : Loop) (err ff lo hi : Int) : Comp :=
  let c := fun (i : Nat) => if !three && (i = 3 || i = 6) then 0 else co.getD i 0
  let e := sat48 err
  let acc := c 0 * e + c 1 * l.e1.toInt + c 2 * l.e2.toInt + c 3 * l.e3.toInt
    - c 4 * l.u1.toInt - c 5 * l.u2.toInt - c 6 * l.u3.toInt
  let v0 := (acc + 2 ^ 43) / 2 ^ 44
  let v := sat48 v0
  let y0 := v + ff
  let y := if y0 < lo then lo else if hi < y0 then hi else y0
  ⟨e, y, sat48 (y - ff), b2n (e != err) + 2 * b2n (v != v0) + 4 * b2n (y != y0)⟩

/-- The coefficients of a slot in the bank in force, 44 fractional bits. -/
def Dev.coefs (d : Dev) (s bank : Nat) : List Int :=
  (List.range 7).map fun i => signed 48 (d.get (F.tceSlotCoef.ix (64 * s + 8 * bank + i)))

/-- The bank of LAT for a speed signal (R372): 0.05 m/s of hysteresis below each boundary. -/
def Dev.latBank (d : Dev) (bank : Nat) (speed : Int) : Nat :=
  let edge := fun (f : Fld) => (d.get f : Int) * fullScale / 160
  let low := fullScale / 160
  let inBank := fun (k : Nat) (b : Int) => decide (b ≤ speed) || (decide (k ≤ bank) && decide (b - low ≤ speed))
  if inBank 3 (edge F.tceLatCfgB3) then 3 else if inBank 2 (edge F.tceLatCfgB2) then 2
  else if inBank 1 (edge F.tceLatCfgB1) then 1 else 0

/-! ## Supervision (R386) -/

/-- The checks of a slot's sample: kind, whether its condition holds, and the count at which it fails. -/
def Dev.checksOf (d : Dev) (s : Nat) (m e : Int) (w : Worth) : List (Nat × Bool × Nat) :=
  let beyond := fun (v lim : Int) => decide (lim < v) || decide (lim < -v)
  match s with
  | 0 => [(kindLat, beyond e ((d.get F.tceSupCfgLatTol : Int) * fullScale / 640), d.get F.tceLatCfgLatN)]
  | 1 => [(kindCrs, beyond e ((d.get F.tceSupCfgCrsTol : Int) * 10 * fullScale / 32768), d.get F.tceSupNCrsN)]
  | 2 =>
    let v := d.tapeSpeed.1
    let off := fun (x : Nat) =>
      let rw := d.radius x * (d.reel x).omega
      decide ((d.get F.tceSupCfgRadTol : Int) * rw.natAbs < (v - rw).natAbs * 256)
    let judged := w == .valid && decide (500000000000 ≤ v.natAbs)
    [(kindVel, beyond (m - velSignal d.tce.v) ((d.get F.tceSupCfgVelTol : Int) * fullScale / 800), d.get F.tceSupNVelN),
     (kindRadius, judged && (off 0 || off 1), d.get F.tceSupNRadN)]
  | 3 => [(kindTenLo, decide (m < (d.get F.tceTenCfgTenLo : Int) * fullScale / 400), d.get F.tceSupNTenN),
          (kindTenHi, decide ((d.get F.tceTenCfgTenHi : Int) * fullScale / 400 < m), d.get F.tceSupNTenN)]
  | _ => [(kindCurrent, beyond e ((d.get F.tceSupCfgITol : Int) * fullScale / 256), d.get F.tceSupNIN)]

/-- The runs of a slot after a sample, and the kinds that fail: those whose run reaches its count. -/
def runChecks (runs : List (Nat × Nat)) (cs : List (Nat × Bool × Nat)) : List (Nat × Nat) × List Nat :=
  let now := cs.map fun c => (c.1, if c.2.1 then (((runs.find? fun r => r.1 == c.1).map Prod.snd).getD 0) + 1 else 0)
  (now, (cs.zip now).filterMap fun x => if x.1.2.1 && x.2.2 == x.1.2.2 then some x.1.1 else none)

/-! ## The mixer (R385) -/

/-- The torque of reel x for a force in µN, in µN·m. -/
def Dev.torqueFor (d : Dev) (x : Nat) (force : Int) : Int := d.radius x * force / 1000000000 + d.torqueOfAcc x

/-- The mixer: reel forces from the outputs of VEL and TEN, and the q-axis references. -/
def Dev.mix (d : Dev) : Dev :=
  let force := fun (s : Nat) => (d.loop s).y.toInt * 32000000 / fullScale
  let fv := force 2
  let ft := force 3
  let t := 1000 * (d.get F.tceTenCfgTenRef : Int) + ft
  let ref := fun (x : Nat) (f : Int) =>
    word48 (sat48 (quot (d.torqueFor x f * 10 * fullScale) ((d.get (F.tceReelKt.ix x) : Int) * Config.csFullScale)))
  let ra := ref 0 (fv / 2 - t)
  let rb := ref 1 (fv / 2 + t)
  let d := { d with tce := { d.tce with fv := fv, ft := ft } }
  ((d.modLoop 5 fun l => { l with ref := ra }).modLoop 7 fun l => { l with ref := rb }).showRadii

/-! ## LOOP_SAMPLE -/

/-- An output goes to its actuator at once (R370, R376); the current slots' outputs turn into the reel's phase duties (R420). -/
def Dev.handOut (d : Dev) (s : Nat) (y : Int) : Dev :=
  match s with
  | 0 => { d.driveCoil y with tce := { d.tce with latOuts := (y :: d.tce.latOuts).take 1024 } }
  | 1 => { d with mdr := { d.mdr with stWant := y / 16777216 } }
  | 3 => d.mix
  | 4 | 5 => if d.reelMode 0 = 0 then d else d.driveReel 0
  | 6 | 7 => if d.reelMode 1 = 0 then d else d.driveReel 1
  | _ => d

/-- The trace record of a sample (R394), with the bank that computed it. -/
def Dev.sampleRecord (d : Dev) (s bank flags : Nat) (delay : BitVec 12) (m e y : Int) : List Word :=
  let n := (d.word (C.tceSample + s)).toNat % 65536
  let meta_ := n * 4294967296 + delay.toNat * 1048576 + flags % 256 * 4096 + bank % 4 * 1024 + (if d.closed s then 0 else 512)
  [BitVec.ofNat 48 meta_, word48 m, word48 e, word48 y]

/-- The sense channels of a slot changed path on this sample (R380, R416). -/
def Dev.rangeMoved (d : Dev) (s : Nat) : Bool :=
  decide (4 ≤ s) && ([0, 1, 2].any fun p => d.mdr.moved.getD (3 * ((s - 4) / 2) + p) false)

/-- What a sample comes to: the output, its error, the per-sample flags and the kinds that fail. -/
structure Sampled where
  loop  : Loop
  e     : Int
  flags : Nat
  fails : List Nat
  deriving DecidableEq, Repr

/-- A sample of a slot (R378, R379, R382, R386). -/
def Dev.runSlot (d : Dev) (s : Nat) (w : Worth) (m : Int) : Sampled :=
  let l := d.loop s
  let base := (if w == .invalid then 8 else if w == .subst then 16 else 0) + (if d.rangeMoved s then 32 else 0)
  if !d.closed s then
    let y := if bitAt (d.get F.tceLoopCtrlOpenSrc) s then d.word (F.tceSlotOpenOut.ix (64 * s)).addr else l.y
    ⟨{ l with m := word48 m, y := y, runs := [], invRun := 0 }, signed 48 (d.get (F.tceSlotLastErr.ix (64 * s))), base, []⟩
  else if w == .invalid then
    let n := l.invRun + 1
    ⟨{ l with invRun := n }, signed 48 (d.get (F.tceSlotLastErr.ix (64 * s))), base,
      if n = d.get F.tceSupCfgInvMax then [kindInvalid] else []⟩
  else
    let r := sat48 (d.reference s)
    let ff := d.feedForward s
    let lim := fun (f : Fld) => signed 48 (d.get (f.ix (64 * s)))
    let c := compensate (d.coefs s l.bank) (d.flag (F.tceSlotForm.ix (64 * s))) l (r - m) ff (lim F.tceSlotOutMin) (lim F.tceSlotOutMax)
    let speed : Int := (d.loop 2).m.toInt.natAbs
    let bank := if s = 0 then d.latBank l.bank speed else 0
    let (runs, fails) := runChecks l.runs (d.checksOf s m c.e w)
    ⟨{ l with e1 := word48 c.e, e2 := l.e1, e3 := l.e2, u1 := word48 c.u, u2 := l.u1, u3 := l.u2, y := word48 c.y, m := word48 m
              ref := word48 r, ff := word48 ff, bank := bank, invRun := 0, runs := runs },
      c.e, base + c.flags + (if bank != l.bank then 64 else 0), fails⟩

/-- LOOP_SAMPLE (R376 to R380, R386): `lost` says that the sample was lost in its FIFO, `delay` is D. -/
def Dev.loopSample (d : Dev) (s : Nat) (lost : Bool) (delay : BitVec 12) : Dev :=
  if 8 ≤ s then d
  else
    let (m, w) := d.measured s
    let w := if lost then .invalid else w
    let d := if s = 1 && w == .subst then d.modQuad 0 fun q => { q with subst := q.subst - 1 }
      else if s = 1 && w == .valid then d.modQuad 0 fun q => { q with lastGood := m, stAt := d.mdr.stPos } else d
    let r := d.runSlot s w m
    let bank := (d.loop s).bank
    let d := d.bump (C.tceSample + s)
    let d := if w == .invalid then d.bump (C.tceInvalid + s) else d
    let d := d.modLoop s fun _ => r.loop
    let y := r.loop.y.toInt
    let f := fun (x : Fld) => x.ix (64 * s)
    let d := (d.set (f F.tceSlotLastOut) (unsigned 48 y)).set (f F.tceSlotLastErr) (unsigned 48 r.e)
    let d := (d.set (f F.tceSlotDLast) delay.toNat).set (f F.tceSlotDMax) (max delay.toNat (d.get (f F.tceSlotDMax)))
    let d := (d.stick s r.flags).handOut s y
    let d := if r.fails.isEmpty then d else d.fail (r.fails.map fun k => (s, k)) 0
    let flags := r.flags + (if r.fails.isEmpty then 0 else 128)
    d.record s flags (d.sampleRecord s bank flags delay m r.e y)

/-! ## The profile generator (R391 to R393) -/

/-- Limits in force (R392): acceleration in 10^-6 m/s², jerk in m/s³. -/
def Dev.pgLimits (d : Dev) : Int × Int :=
  let a := (d.get F.tcePgLimAmax : Int) * 100000
  let j := (d.get F.tcePgLimJmax : Int)
  if d.writeLimits then (min a 2000000, min j 40) else (a, j)

/-- The next acceleration on the way to a speed, under the limits (log 31). -/
def nextAcc (lim jerk v a target : Int) : Int :=
  let j := 50 * jerk
  let there := v + quot (a * a.natAbs) (2 * jerk)
  if lim < a then max lim (a - j)
  else if a < -lim then min (-lim) (a + j)
  else if there < target then min lim (a + j)
  else if target < there then max (-lim) (a - j)
  else if 0 < a then max 0 (a - j) else min 0 (a + j)

/-- One step of 50 µs toward a speed: (v, a). -/
def pgStep (lim jerk v a target : Int) : Int × Int :=
  if a.natAbs ≤ (50 * jerk).natAbs ∧ (target - v).natAbs ≤ (2500 * jerk).natAbs then (target, 0)
  else
    let a' := nextAcc lim jerk v a target
    (v + 50 * a', a')

/-- The time of a change of speed in ns (R392). -/
def rampNs (lim jerk dv : Int) : Int :=
  if lim * lim ≤ dv * jerk then quot (dv * 1000) lim + quot (lim * 1000) jerk else 2000 * Config.realSqrt (quot dv jerk)

/-- The distance in nm in which the tape stops from a speed and an acceleration toward it. -/
def stopDistance (lim jerk v a : Int) : Int :=
  let v0 := v + quot (a * a.natAbs) (2 * jerk)
  v0 * rampNs lim jerk v0 / 2000000000000 + v * (quot (a.natAbs * 1000) jerk) / 1000000000000

/-- Distance left to an eyelet, in nm and in the direction of travel. -/
def Dev.distanceTo (d : Dev) (e : Int) : Int := (512 * e - d.tpos) * 15625 / 1000

/-- The speed that the target asks for now, in 10^-12 m/s (R391, R393). -/
def Dev.speedWanted (d : Dev) : Int :=
  let vmax := (d.get F.tcePgLimVmax : Int) * speedStep
  match d.tce.target with
  | .stop => 0
  | .speed v => satInt (-vmax) vmax (v * speedStep)
  | .place e v _ =>
    let (lim, jerk) := d.pgLimits
    let left := d.distanceTo e
    let left := if v < 0 then -left else left
    let fwd := fun (x : Int) => if v < 0 then -x else x
    if left ≤ stopDistance lim jerk (fwd d.tce.v) (fwd d.tce.a) then 0 else satInt (-vmax) vmax (v * speedStep)

/-- A position target whose tape stands (R393): near enough it waits for its command; else it moves again at 0.25 m/s, at most
twice, and then the locate fails. -/
def Dev.placeStands (d : Dev) : Dev :=
  match d.tce.target with
  | .place e _ n =>
    if (e - d.eyelet).natAbs ≤ d.get F.tcePgLimLocTol then d
    else if n < 2 then
      { d with tce := { d.tce with target := .place e (if e < d.eyelet then -5 else 5) (n + 1), replanned := true } }
    else
      let held := d.tce.held
      let d := { d.dropEntries Entry.isLocate with tce := { d.tce with target := .stop, held := none } }
      let d := match held with | some t => d.giveTarget t | none => d
      let hs := (d.cqm.cmds.filter fun c => c.opcode == opLocate && c.phase == .started && c.motion).map Cmd.h
      (hs.foldl (fun d h => d.finish h stTransport (leBytes 1 0xFF ++ leBytes 1 0)) d).standStill
  | .stop | .speed _ => d

/-- The Last has no use for a moving tape: no session that writes, no read, no position target. -/
def Dev.lastIdle (d : Dev) : Bool :=
  (d.plc.session.isNone || d.plc.holdDone) && d.strm.reads.isEmpty && (match d.tce.target with | .speed _ => true | _ => false)

/-- The speed at which the step aims: a reaction's, else the target's. A reaction holds the speed at which A_CMD reaches 0 until
the write gate closes (R388, R389, R555). -/
def Dev.aim (d : Dev) : Int × Int :=
  let (lim, jerk) := d.pgLimits
  if d.tce.reaction != 0 || d.tce.stopping then
    if d.flag F.posStatusWriteGate then
      let a := if 0 < d.tce.a then max 0 (d.tce.a - 50 * jerk) else min 0 (d.tce.a + 50 * jerk)
      (d.tce.v + 50 * a, a)
    else pgStep lim jerk d.tce.v d.tce.a 0
  else pgStep lim jerk d.tce.v d.tce.a d.speedWanted

/-- The tape has come to a stand during a reaction (R388, R425, R555). -/
def Dev.reactionStands (d : Dev) : Dev :=
  let d := [0, 1].foldl (fun d x => if (d.reel x).restart && d.reelMode x != 1 then d.restartReel x else d) d
  let d := if d.tce.reaction = 1 then d.endReaction else d
  if d.tce.stopping then
    ({ d with tce := { d.tce with stopping := false } }).modPlc fun p =>
      if p.hold && !p.holdDone && p.session.isSome then { p with holdDone := true } else p
  else d

/-- PROFILE_GENERATOR_STEP (R376, R391 to R393), with the mixer; at |V_CMD| below 0.90 m/s an uncertain position is lost
(R86). -/
def Dev.profileStep (d : Dev) : Dev :=
  let d := if d.lastIdle then d.giveTarget .stop else d
  let flags := b2n d.writeLimits + 2 * b2n d.tce.target.isPlace + 4 * b2n (d.tce.reaction != 0) + 8 * b2n d.tce.replanned
  let (v, a) := d.aim
  let d := { d with tce := { d.tce with v := v, a := a, replanned := false } }
  let d := d.mix
  let d := if d.pos.mode == .uncertain && decide (v.natAbs < 900000000000) then d.losePosition else d
  let stands := v = 0 ∧ a = 0
  let d := if stands then (d.reactionStands.placeStands).standStill else d
  let (w, d) := d.fresh
  let meta_ := w.toNat / 1048576 * 1048576 + flags * 4096 + w.toNat / 512 % 8 * 512
  d.record 8 flags [BitVec.ofNat 48 meta_, word48 (velSignal v), word48 (a * fullScale / 64000000), word48 (velSignal d.tapeSpeed.1)]

/-- APPEND_RESUME_AFTER_STOP (R390). -/
def Dev.resumeAfterStop (d : Dev) : Dev :=
  match d.plc.session with
  | none => d
  | some s =>
    if d.plc.hold && d.plc.holdDone && d.plc.holdCause == 4 && d.tce.v == 0 && d.tce.a == 0 && d.mayMove && !d.halted then d.restart s
    else d

/-! ## Opening and closing (R381 to R383) -/

/-- Open or close a slot. -/
def Dev.setClosed (d : Dev) (s : Nat) (on : Bool) : Dev :=
  if d.closed s == on then d
  else
    let w := d.get F.tceLoopCtrlClosed
    let d := if on then d.setHistories s else d
    (d.set F.tceLoopCtrlClosed (if on then w ||| 2 ^ s else w &&& (255 - 2 ^ s))).modLoop s fun l => { l with runs := [], invRun := 0 }

/-- A slot that stays closed while a cartridge is threaded (R383). -/
def Dev.heldClosed (d : Dev) (s : Nat) : Bool := d.cart.loaded && decide (2 ≤ s)

/-- A write of TCE.LOOP_CTRL (R8, R382, R383); none where it is refused. -/
def Dev.loopCtrl (d : Dev) (value mask : Word) : Option Dev :=
  let m := F.tceLoopCtrlClosed.of mask
  let v := F.tceLoopCtrlClosed.of value
  let slots := (List.range 8).filter fun s => bitAt m s
  if m != 0 && d.glb.dev != .maintenance then none
  else if slots.any fun s => !bitAt v s && d.closed s && d.heldClosed s then none
  else
    let sm := F.tceLoopCtrlOpenSrc.of mask
    let src := (d.get F.tceLoopCtrlOpenSrc &&& (255 - sm)) ||| (F.tceLoopCtrlOpenSrc.of value &&& sm)
    some (slots.foldl (fun d s => d.setClosed s (bitAt v s)) (d.set F.tceLoopCtrlOpenSrc src))

/-- LOOP_OPEN (R382, R383, R396). -/
def Dev.loopOpen (d : Dev) (h : Nat) : Dev := d.maint h opLoop 0 fun c =>
  let s := c.par 17 1
  if d.heldClosed s then d.finish h stLoopRefused (leBytes 1 0) else (d.setClosed s false).finish h stGood []

/-- LOOP_CLOSE (R382, R396). -/
def Dev.loopClose (d : Dev) (h : Nat) : Dev := d.maint h opLoop 1 fun c => (d.setClosed (c.par 17 1) true).finish h stGood []

/-! ## The test run (R396) -/

/-- The tape that a test run takes, in eyelets, less what it takes waiting for lock. -/
def Dev.testLength (d : Dev) (c : Cmd) : Int :=
  let v := min (c.par 20 1 : Int) (d.get F.tcePgLimVmax) * speedStep
  let t := rampNs ((d.get F.tcePgLimAmax : Int) * 100000) (d.get F.tcePgLimJmax) v + ((200 + c.par 22 2 : Nat) : Int) * 1000000
  v * t / 1000000000000 / 8000

/-- Why a test run is refused: the cause of R396. TPOS unset counts as a run whose end is not known to lie within the eyelets
allowed (log 32). -/
def Dev.testBar (d : Dev) (c : Cmd) : Option Nat :=
  let e := d.eyelet
  let z := if bitAt (c.par 18 1) 0 then e - d.testLength c else e + d.testLength c
  let bad := fun (x : Int) => decide (x < 0) || decide (140507999 < x)
  if !d.cart.loaded then some 3
  else if d.get F.tceLoopCtrlClosed != 255 then some 1
  else if d.pos.mode == .unset || bad e || bad z then some 2
  else none

/-- LOOP_TEST_RUN (R396): the run is one step; `env` says whether the position locked, the samples of the slot and the first
check that failed. Where a run that fails comes to stand is open (log 2). -/
def Dev.testRun (d : Dev) (h : Nat) (env : TestEnv) : Dev := d.maint h opLoop 2 fun c =>
  let s := c.par 17 1
  match d.testBar c with
  | some k => d.finish h stLoopRefused (leBytes 1 k)
  | none =>
    match d.motionBar with
    | some det => d.finish h stTransport det
    | none =>
      let n := d.testLength c
      let back := bitAt (c.par 18 1) 0
      let stop := fun (d : Dev) (x : Int) => d.standAt (if back then d.eyelet - x else d.eyelet + x)
      let d := d.bumpBy (C.tceSample + s) env.samples.toNat
      match env.failure, env.locked with
      | some (slot, kind), _ =>
        let (w, d) := d.fresh
        ((stop d (w.toNat % (n.toNat + 1))).fail [(slot, kind)] (slot / 2 - 2)).finish h stTransport (leBytes 1 slot ++ leBytes 1 kind)
      | none, false =>
        let (w, d) := d.fresh
        (stop d (w.toNat % (n.toNat + 1))).finish h stTransport motorDetail
      | none, true =>
        let d := stop (d.trigger fun t => t.trig == 5) n
        let f := fun (x : Fld) => d.get (x.ix (64 * s))
        d.finish h stGood (leBytes 4 env.samples.toNat ++ leBytes 1 (f F.tceSlotFlags) ++ leBytes 1 0
          ++ leBytes 2 (f F.tceSlotDMax) ++ leBytes 1 0)

/-! ## The rows -/

def execLoopSample (slot : Nat) (lost : Bool) (delay : BitVec 12) (s : State) : Host.Outcome State Fault Refusal :=
  s.doing fun d => (d.loopSample slot lost delay).hostSettle
def execProfileGeneratorStep (s : State) : Host.Outcome State Fault Refusal := s.doing fun d => d.profileStep.hostSettle
def execAppendResumeAfterStop (s : State) : Host.Outcome State Fault Refusal := s.doing fun d => d.resumeAfterStop.hostSettle
/-- LOOP_CTRL_WRITE (R382, R383): a write that is refused changes nothing. -/
def execLoopCtrlWrite (value mask : Word) (s : State) : Host.Outcome State Fault Refusal :=
  s.doing fun d => (d.loopCtrl value mask).getD d
def execLoopOpen (h : Nat) (s : State) : Host.Outcome State Fault Refusal := s.doing fun d => (d.loopOpen h).hostSettle
def execLoopClose (h : Nat) (s : State) : Host.Outcome State Fault Refusal := s.doing fun d => (d.loopClose h).hostSettle
def execLoopTestRun (h : Nat) (env : TestEnv) (s : State) : Host.Outcome State Fault Refusal :=
  s.doing fun d => (d.testRun h env).hostSettle
def execTraceArm (a : TraceArm) (s : State) : Host.Outcome State Fault Refusal := s.doing fun d => (d.traceArm a).hostSettle
def execTraceStop (h : Nat) (s : State) : Host.Outcome State Fault Refusal := s.doing fun d => (d.traceStop h).hostSettle
def execTraceRead (h : Nat) (s : State) : Host.Outcome State Fault Refusal := s.doing fun d => (d.traceRead h).hostSettle

end Sys2Proof.Machine
end

