-- ==== Sys2Proof/Machine/Zone.lean ====
section
/-!
DEFINITION. Zone commits (R239 to R243) and the turn at a wrap's end (R224).
-/
namespace Sys2Proof.Machine

/-- Bytes of entries that one insole data set takes beside its commit header (R240). -/
def partBody : Nat := 1966080 - 64

/-- Cut entries into parts: an entry never crosses from one part to the next (R236). -/
def cutParts : List (List Byte) → List (List Byte) → Nat → List (List (List Byte))
  | [], cur, _ => [cur.reverse]
  | e :: es, cur, n =>
    if !cur.isEmpty && decide (partBody < n + e.length) then cur.reverse :: cutParts es [e] e.length
    else cutParts es (e :: cur) (n + e.length)

/-- The payloads of the parts of a zone commit (R235, R240). -/
def zoneParts (head : CommitHead) (es : List (List Byte)) : List (List Byte) :=
  let ps := cutParts es [] 0
  ps.zipIdx.map fun p => ({ head with part := p.2, parts := ps.length } : CommitHead).bytes p.1.flatten

/-- The first slot of a half. -/
def halfStart (half : Nat) : Nat := 1800 * half

/-! ## Writing and judging an insole data set (R58, R168, R174, R240) -/

/-- An insole data set goes out in a slot of the zone, forward at lane 37, the gate opening for it (R58, R92 to R106, R240; log 46). -/
def Dev.writeInsole (d : Dev) (x : DSet) (k : Copy) (copy : Nat) : Dev :=
  let h := x.header k
  let content := fun (n : Nat) => segmentContent h n (d.ddrBytes (d.bufAddr x.handle + trackOffset (logicalTrack k.slot n)) 8192)
  let tracks := d.channelsOn.map fun n => (n, layBits k.slot ((insoleLane + d.self) % 2 == 1) (passOrder false) (content n) 0)
  let at_ := slotStart false k.slot
  ((((d.emit (.zone copy k.slot k.copy)).emit (.gate true at_)).emit (.slot k.slot tracks)).emit
    (.edges k.slot (tracks.map fun t => (t.1, d.edgesOf none false t)))).emit (.gate false (at_ + 76800))

/-- Verify judges an insole data set that comes back as it was written: only dead tracks count in E_c (R172, R174). -/
def Dev.judgeWhole (d : Dev) (k : Copy) : Bool × Dev :=
  let e := d.deadTracks.length
  let cs := [decide (e ≤ 16), decide (e ≤ d.get F.vfyCfgBadMax), decide (e ≤ d.get F.vfyCfgMarginMax)]
  let reason := ((cs.zipIdx.find? fun c => !c.1).map fun c => c.2 + 1).getD 0
  (reason == 0, (d.bumpBy C.eccC1Cw (8 * d.channelsOn.length)).noteDecision k reason (e, e))

/-- Verify judges an insole data set (R168 to R174) by what the read elements give of it. Without a P3 buffer it is not read, which
fails check 8 (log 46). -/
def Dev.judgeInsole (d : Dev) (x : DSet) (k : Copy) : ReadBack → Bool × Dev
  | none => d.judgeWhole k
  | some reads =>
    match d.allocate 3 ownVerify ownVerify with
    | (none, d) => (false, d.noteDecision k 8 (0, 0))
    | (some h, d) =>
      let lane := d.tce.lane
      let (vs, d) := ({ d with tce := { d.tce with lane := insoleLane } }).slotPassed k.slot false reads
      let y := newDecode k.slot insoleWrap d.self true h vs
      let d := ({ d with tce := { d.tce with lane := lane } }).addDecode y
      let d := d.c1All y
      match d.ecc.decodes.find? fun z => z.handle == h with
      | none => (false, d)
      | some y =>
        let d := d.runC2 (y.settle (some (x.header k))) true
        match d.ecc.decodes.find? fun z => z.handle == h with
        | none => (false, d)
        | some y => let r := d.judged y x k; (r.1 == 0, r.2)

/-! ## Writing a zone commit (R239) -/

/-- A copy of the zone while a commit is written: copy A (0) or B (1), the half and next slot, the parts still to be written, whether a
checkpoint may still follow an abandonment, whether it is given up (`given`), and the read-backs to come. -/
structure CopyRun where
  copy  : Nat
  half  : Nat
  slot  : Nat
  parts : List (List Byte)
  spare : Bool
  given : Bool
  reads : List ReadBack

/-- How a copy takes a commit (R239): as a delta where it fits behind a complete checkpoint, else as a checkpoint in the other half. -/
def ZoneCopy.begin_ (z : ZoneCopy) (copy : Nat) (delta checkpoint : List (List Byte)) (reads : List ReadBack) : CopyRun :=
  let start := halfStart z.half
  let fresh := z.next == start
  if z.ok && !fresh && decide (z.next + delta.length ≤ start + 1800) then ⟨copy, z.half, z.next, delta, true, false, reads⟩
  else
    let half := if fresh then z.half else 1 - z.half
    ⟨copy, half, halfStart half, checkpoint, true, false, reads⟩

/-- A commit is abandoned in a copy (R239): a checkpoint follows in the other half, once. -/
def CopyRun.abandon (r : CopyRun) (checkpoint : List (List Byte)) : CopyRun :=
  if r.spare then { r with half := 1 - r.half, slot := halfStart (1 - r.half), parts := checkpoint, spare := false }
  else { r with parts := [], given := true }

/-- Where a copy stands after a commit. -/
def CopyRun.done (r : CopyRun) : ZoneCopy := ⟨r.half, r.slot, !r.given⟩

/-- Write the next part of a copy (R239): in the next slot with COPY one more until it passes; past the half's end or COPY 15 the commit
is abandoned. -/
def Dev.putPart (d : Dev) (x : DSet) (checkpoint : List (List Byte)) : Nat → CopyRun → CopyRun × Dev
  | 0, r => (r.abandon checkpoint, d)
  | n + 1, r =>
    if halfStart r.half + 1800 ≤ r.slot then (r.abandon checkpoint, d)
    else
      let k := Copy.at r.slot (15 - n) .written
      let (ok, d) := (d.writeInsole x k r.copy).judgeInsole x k (r.reads.head?.join)
      let r := { r with slot := r.slot + 1, reads := r.reads.tail }
      if ok then ({ r with parts := r.parts.tail }, d) else d.putPart x checkpoint n r

/-- The data set of a part (R240). -/
def insoleSet (commit : Word) (genCeil handle copy slot : Nat) : DSet :=
  { id := 0, typ := 4, flushEnd := false, band := 2 * copy, width := 1, member := 0, lane := insoleLane, wrap := insoleWrap, group := 0
    index := 0, groupCount := 0, generation := genCeil, dsSeq := commit, first := slot, handle := handle, clicks := [], segment := none
    last := false, passed := false, superseded := false, copies := [] }

/-- Write the parts of a commit, each in both copies from one P1 buffer, which is released when it has passed in both (R240). -/
def Dev.putParts (d : Dev) (commit : Word) (genCeil : Nat) (checkpoint : List (List Byte)) :
    Nat → CopyRun → CopyRun → CopyRun × CopyRun × Dev
  | 0, a, b => (a, b, d)
  | n + 1, a, b =>
    match a.parts.head?.or b.parts.head? with
    | none => (a, b, d)
    | some p => match d.allocate 1 ownLast ownWrite with
      | (none, d) => (a, b, d)
      | (some h, d) =>
        let d := (d.putDdr (d.bufAddr h) (fitTo 1966080 p)).encodeC2 h
        let one := fun (d : Dev) (r : CopyRun) =>
          if r.parts.head? == some p then d.putPart (insoleSet commit genCeil h r.copy r.slot) checkpoint 16 r else (r, d)
        let (a, d) := one d a
        let (b, d) := one d b
        (d.release h ownLast).putParts commit genCeil checkpoint n a b

/-- The highest generation that the index holds. -/
def Index.topGeneration (ix : Index) : Nat := (ix.sessions.map SessEntry.generation).foldl max 0

/-- A linked member is joining once its entries are merged and a CASCADE entry is committed (R450). -/
def Dev.joining (d : Dev) (extra : List (List Byte)) : Dev :=
  if extra.any fun e => fieldAt e 0 2 == 7 then
    { d with cas := { d.cas with members := d.cas.members.map fun (m : CMember) => if m.state = 1 then { m with state := 2 } else m } }
  else d

/-- The open session takes the next generation where it has none (R243). -/
def Dev.giveGeneration (d : Dev) : Dev :=
  match d.plc.session with
  | none => d
  | some s =>
    if s.generation != 0 then d
    else
      let g := d.plc.nextGen
      ((d.modPlc fun p => { p with nextGen := g + 1 }).modSession fun s => { s with generation := g }).set F.plcSessionGeneration g

/-- Write a zone commit with the merged entries, `extra` ones and, where `reserve` says so, a new reservation (R239, R241,
R243). It stands when one copy is complete; when neither is, appending stops with INSOLE_FAILED. -/
def Dev.zoneCommit (d : Dev) (extra : List (List Byte)) (reserve : Bool) (env : ZoneEnv) : Dev :=
  let ix := d.plc.index
  let n := ix.commit + 1
  let ceil := if reserve then min (ix.genCeil + 16) 0xFFFFFFFF else ix.genCeil
  let merged := ix.merge (extra.map fun e => (fieldAt e 0 2, e))
  let head := fun (kind : Nat) => (⟨n.toNat, kind, 0, 1, ceil, merged.topGeneration, d.glb.bootCount, deviceRef⟩ : CommitHead)
  let delta := zoneParts (head 0) (ix.delta ++ extra)
  let checkpoint := zoneParts (head 1) merged.entries
  let a := d.plc.zone.1.begin_ 0 delta checkpoint env.copyA
  let b := d.plc.zone.2.begin_ 1 delta checkpoint env.copyB
  let (a, b, d) := d.putParts n ceil checkpoint (2 * (delta.length + 2 * checkpoint.length)) a b
  let d := d.modPlc fun p => { p with zone := (a.done, b.done) }
  if !a.given || !b.given then
    let done := { merged with commit := n, genCeil := ceil, delta := [] }
    let d := ((d.modPlc fun p => { p with index := done }).set F.plcGenCeilGenCeil ceil).bump C.plcZone
    let d := if reserve then (d.modPlc fun p => { p with nextGen := ix.genCeil + 1 }).giveGeneration else d
    d.joining extra
  else
    let d := d.modPlc fun p => { p with index := { p.index with commit := n } }
    (d.event 0x0318).stopNow 0x0318

/-- Whether the Last has a P1 buffer for a zone commit's parts; where none is free, that is noted and the commit waits (R240, R347). -/
def Dev.zoneBuffer (d : Dev) : Bool := (d.allocate 1 ownLast ownWrite).1.isSome

/-- Whether the open session needs a generation beyond the committed GEN_CEIL (R241). -/
def Dev.needsReserve (d : Dev) : Bool :=
  match d.plc.session with | some s => !d.follows && s.generation == 0 | none => false

/-- Whether a member has been linked and its join is not yet committed (R450). -/
def Dev.joinWaits (d : Dev) : Bool := d.isMaster && d.cas.members.any fun m => m.state == 1

/-- SET_ID is chosen when the set first needs one (R463). -/
def Dev.ensureSet (d : Dev) : Dev :=
  if !d.isMaster || d.cas.setId.isSome then d
  else
    let (a, d) := d.fresh
    let (b, d) := d.fresh
    { d with cas := { d.cas with setId := some (BitVec.ofNat 64 (a.toNat + b.toNat * 2 ^ 48)) } }

/-- The entries that record joins (R450, R463, R514): in width mode the linked members' IDENTITY and BOOT entries that the index
does not hold, and the CASCADE entry. -/
def Dev.joinExtras (d : Dev) : List (List Byte) :=
  let es := if d.casMode = 1 then (d.cas.members.filter fun m => m.state == 1).flatMap CMember.entries else []
  ((es.filter fun e => !d.plc.index.raw.contains e) ++ d.cascadeEntry (d.plc.index.genCeil + 1)).map RawEntry.bytes

/-- Whether the groups of a session that a loss has ended wait to be committed (R460). -/
def Dev.lossWaits (d : Dev) : Bool :=
  d.isMaster && d.casMode == 1 && (match d.plc.session with | some s => s.lost | none => true)
    && !d.plc.index.delta.isEmpty && d.cas.members.any fun m => m.state == 5

/-- ZONE_COMMIT (R239, R241, R243): the reservation that a session needs before its first data set, the commit that
records a member's join, or that which records what a loss has ended. The other occasions of R241 are part of LOAD, UNLOAD and WRAP_TURN. -/
def Dev.zoneRow (d : Dev) (env : ZoneEnv) : Dev :=
  if !d.cart.loaded || d.cart.readOnly || d.flag F.glbCobblerRestarting then d
  else if !d.zoneBuffer then (d.allocate 1 ownLast ownWrite).2
  else if d.needsReserve then d.zoneCommit [] true env
  else if d.joinWaits then
    let d := d.ensureSet
    d.zoneCommit d.joinExtras false env
  else if d.lossWaits then d.zoneCommit ((d.cascadeEntry (d.plc.index.genCeil + 1)).map RawEntry.bytes) false env
  else d

/-- Whether a leaving member still has data sets of the wrap to be verified (R459). -/
def Dev.leaveWaits (d : Dev) : Bool :=
  d.cas.members.any fun m => m.state == 4 && d.plc.dsets.any fun x => x.member == m.id && !x.passed && !x.superseded

/-- Leaving members are gone (R449, R459). -/
def Dev.membersLeave (d : Dev) (p : CMember → Bool) : Dev :=
  let n := (d.cas.members.filter fun m => m.state == 4 && p m).length
  let go := fun (m : CMember) => if (m.state == 4 && p m) = true then { m with state := 0 } else m
  ({ d with cas := { d.cas with members := d.cas.members.map go } }).bumpBy C.casLeave n

/-- WRAP_TURN (R34, R224, R241): with the wrap written to its end and every data set decided, the session goes on in the
next wrap; after a reverse wrap a zone commit is written. The dead set of verify is judged afresh (R174) and the welt trim
set to 0 (R373); a new data band unsets the position until the Last has located (R74; log 23). -/
def Dev.wrapTurn (d : Dev) (env : ZoneEnv) : Dev :=
  match d.plc.session with
  | none => d
  | some s =>
    if 0 < slotsLeft s.place.wrap s.place.slot || d.writtenUndecided || d.halted || !d.plc.pendingCopies.isEmpty
        || !d.plc.again.isEmpty || s.heel.isSome || d.leaveWaits || !d.mayMove || d.flag F.glbCobblerRestarting then d
    else if wrapReverse s.place.wrap && !d.follows && !d.zoneBuffer then (d.allocate 1 ownLast ownWrite).2
    else
      let d := (d.dropEntries Entry.isStart).closeGate
      let d := if wrapReverse s.place.wrap && !d.follows then d.zoneCommit [] false env else d
      let d := if d.casMode = 1 then d.membersLeave fun _ => true else d
      let p := s.place.next (max 1 d.cascadeWidth)
      let d := { d with ecc := { d.ecc with deadRuns := [], deadVfy := [] }, tce := { d.tce with weltTrim := 0 } }
      if !p.onTape then d.stopNow stFull
      else
        let s' : Session := { s with place := p, dsSeq := 0, group := 0, index := 0, count := 0, noParity := false
                                     groupFirst := p.slot, lastGroup := none, lastUsed := none, owedGaps := 0 }
        let d := (d.modSession fun _ => s').set F.plcSessionWrap p.wrap
        let d := d.toBand p.band
        if d.plc.session.isSome && !d.halted then d.restart s' else d

def execZoneCommit (zone : ZoneEnv) (s : State) : Host.Outcome State Fault Refusal := s.doing fun d => (d.zoneRow zone).hostSettle
def execWrapTurn (zone : ZoneEnv) (s : State) : Host.Outcome State Fault Refusal := s.doing fun d => (d.wrapTurn zone).hostSettle

end Sys2Proof.Machine
end

