-- ==== Sys2Proof/Machine/Load.lean ====
section
/-!
DEFINITION. LOAD and UNLOAD (R93, R241 to R243, R319, R320), with the recovery scan (R247, R248).
-/
namespace Sys2Proof.Machine

/-! ## Reading insole data sets (R58, R158, R162) -/

/-- A further read of an insole data set, at steps 4 and 5 of the ladder. -/
def Dev.insoleAgain (d : Dev) (h g : Nat) (reads : List TrackSignal) : Dev :=
  match d.decodeIn h with
  | none => d
  | some y =>
    if y.klass.isSome then d
    else match d.allocate 3 ownVerify ownVerify with
      | (none, d) => d
      | (some k, d) =>
        let d := d.readAgain insoleWrap 0 g k reads
        match d.decodeIn k with
        | none => d
        | some x =>
          let d := d.runC2 x false
          let d := match d.decodeIn k with | some x => d.mergeRead x y | none => d
          if d.passesC2 h then d.classify y 4 else d

/-- Steps 1 and 2 of the ladder for the data set in a buffer, then `n` more. -/
def Dev.insoleSteps (d : Dev) (h : Nat) : Nat → Dev
  | 0 => d
  | n + 1 => match d.decodeIn h with
    | some x => if x.klass.isNone && decide (x.step < 2) then (d.ladderStep x).insoleSteps h n else d
    | none => d

/-- An insole data set is read, with the ladder steps that need no C3 (R158, R162). -/
def Dev.readPart (d : Dev) (f : InsoleFound) : Option (List Byte) × Dev :=
  match f.reads with
  | [] => (some f.payload, d)
  | first :: more =>
    match d.allocate 3 ownVerify ownVerify with
    | (none, d) => (none, d)
    | (some h, d) =>
      let lane := d.tce.lane
      let d := { d with tce := { d.tce with lane := insoleLane } }
      let (vs, d) := d.slotPassed f.slot false first
      let x := newDecode f.slot insoleWrap d.self false h vs
      let d := (d.addDecode x).c1All x
      let d := match d.decodeIn h with | some x => d.runC2 (x.settle none) true | none => d
      let d := match d.decodeIn h with
        | none => d
        | some x => if x.c2Bad == some [] then d.classify x (b2n x.corrected) else (d.bump C.eccLadder).insoleSteps h 2
      let n := if d.stepOn 4 then d.get F.eccLadderRereads else 0
      let again := more.take n ++ (if d.stepOn 5 then (more.drop n).take 2 else [])
      let d := again.foldl (fun (d : Dev) r => d.insoleAgain h f.slot r) d
      let d := { d with tce := { d.tce with lane := lane } }
      match d.decodeIn h with
      | none => (none, d)
      | some x =>
        let d := if x.klass.isNone then d.classify x 5 else d
        let mine := x.head.all fun k => k.typ == 4 && k.slot == f.slot
        let good := mine && x.klass.any fun k => decide (k < 5)
        (if good then some (d.payload h) else none, d.dropDecode x)

/-- The insole data sets that can be read: copy, slot and payload. -/
def Dev.readZone (d : Dev) (fs : List InsoleFound) : List (Nat × Nat × List Byte) × Dev :=
  fs.foldl (fun (s : List (Nat × Nat × List Byte) × Dev) f =>
    match s.2.readPart f with
    | (some p, d) => (s.1 ++ [(f.copy, f.slot, p)], d)
    | (none, d) => (s.1, d)) ([], d)

/-! ## Reading the insole (R242) -/

/-- Entries with their types. -/
abbrev Entries := List (Nat × List Byte)

/-- The commits of which every part is among valid parts, matched by COMMIT and PART (R239, R242). -/
def completeCommits (ps : List (CommitHead × Entries)) : List (CommitHead × Entries) :=
  (ps.filter fun p => p.1.part == 0).filterMap fun p =>
    let same := ps.filter fun q => q.1.commit == p.1.commit && q.1.kind == p.1.kind
    let found := (List.range p.1.parts).map fun i => same.find? fun q => q.1.part == i
    if found.all Option.isSome then some (p.1, (found.filterMap id).flatMap Prod.snd) else none

/-- The complete zone commits of a copy. -/
def copyCommits (copy : Nat) (parts : List (Nat × Nat × List Byte)) : List (CommitHead × Entries) :=
  completeCommits ((parts.filter fun p => p.1 == copy).filterMap fun p => readCommit p.2.2)

/-- Put a commit in a list in order of COMMIT; one already there is kept. -/
def putCommit (c : CommitHead × Entries) : List (CommitHead × Entries) → List (CommitHead × Entries)
  | [] => [c]
  | x :: xs => if c.1.commit < x.1.commit then c :: x :: xs else if c.1.commit = x.1.commit then x :: xs else x :: putCommit c xs

/-- The latest checkpoint and the deltas that follow it, in order. -/
def zoneSeries (cs : List (CommitHead × Entries)) : List (CommitHead × Entries) :=
  let top := (cs.filter fun c => c.1.kind == 1).foldl (fun m c => max m c.1.commit) 0
  match cs.find? fun c => c.1.kind == 1 && c.1.commit == top with
  | none => []
  | some cp => cp :: (cs.filter fun c => c.1.kind == 0 && decide (top < c.1.commit)).foldl (fun l c => putCommit c l) []

/-- The index that the insole holds (R242). -/
def zoneIndex (series : List (CommitHead × Entries)) : Index :=
  let ix := series.foldl (fun ix c => ix.merge c.2) Index.empty
  match series.getLast? with
  | none => ix
  | some c => { ix with commit := BitVec.ofNat 48 c.1.commit, genCeil := c.1.genCeil, delta := [] }

/-- Where a copy of the zone stands: behind its last part, and whether it holds the latest commit. -/
def zoneCopyOf (copy last : Nat) (parts : List (Nat × Nat × List Byte)) : ZoneCopy :=
  match (parts.filter fun p => p.1 == copy).getLast? with
  | none => ⟨0, 0, true⟩
  | some p => ⟨p.2.1 / 1800, p.2.1 + 1, (copyCommits copy parts).any fun c => c.1.commit == last⟩

/-! ## The recovery scan (R247, R248) -/

/-- The data sets of a run: those that decode, each DS_SEQ one more than the last. -/
def runFrom (sets : List ScanSet) : Nat → Word → List ScanSet
  | 0, _ => []
  | n + 1, k =>
    match sets.find? fun x => x.decodes && x.dsSeq == k && decide (x.typ ≤ 3) with
    | some x => x :: runFrom sets n (k + 1)
    | none => []

/-- Data sets of a generation in a track group of a wrap. -/
def scanOf (sets : List ScanSet) (gen w m : Nat) : List ScanSet :=
  sets.filter fun (x : ScanSet) => x.generation.toNat == gen && x.wrap == w && x.member == m

/-- The DS_SEQ with which the run of a track group starts (R247): after the last group that the insole records, or 0, in the session's
first wrap in its START_SLOT. -/
def runStart (ix : Index) (sets : List ScanSet) (gen w m : Nat) : Option Word :=
  match (ix.groups.filter fun (g : GroupEntry) => g.generation == gen && g.wrap == w && g.member == m).getLast? with
  | none => match ix.sessions.find? fun s => s.generation == gen && s.firstWrap == w with
    | none => some 0
    | some s => if (scanOf sets gen w m).any fun x => x.dsSeq == 0 && x.slot == s.startSlot then some 0 else none
  | some g => ((scanOf sets gen w m).filter fun (x : ScanSet) => x.group == g.group && (x.typ == 1 || x.typ == 2)).foldl
      (fun (k : Option Word) (x : ScanSet) => match k with | some j => some (if j.toNat ≤ x.dsSeq.toNat then x.dsSeq + 1 else j) | none => some (x.dsSeq + 1)) none

/-- The runs of a member from a wrap on, wrap by wrap (R247 step 3). -/
def memberRuns (ix : Index) (sets : List ScanSet) (gen m : Nat) : Nat → Nat → List (List ScanSet)
  | 0, _ => []
  | fuel + 1, w =>
    let mine := scanOf sets gen w m
    let r := match runStart ix sets gen w m with | some k => runFrom mine mine.length k | none => []
    let atEnd := match r.getLast? with | some x => decide (slotsLeft w x.slot ≤ 10) | none => false
    let goesOn := (scanOf sets gen (w + 1) m).any fun x => x.dsSeq == 0 && x.slot == (if w % 2 = 0 then 936719 else 3600)
    r :: (if atEnd && goesOn then memberRuns ix sets gen m fuel (w + 1) else [])

/-- The slot of two that lies further in the direction of a wrap. -/
def further (w a b : Nat) : Nat := if slotsFrom (wrapReverse w) a b < 0 then a else b

/-- A GROUP entry for a group that the run does not close with its parity (R247); its SEG_INDEX, where no segment was found,
is `seg`. -/
def scanGroup (ix : Index) (p : Place) (run : List ScanSet) (seg : Nat) : Option GroupEntry :=
  match (run.filter fun (x : ScanSet) => x.typ == 1).getLast? with
  | none => none
  | some z =>
    let mine := run.filter fun (x : ScanSet) => x.group == z.group
    let data := mine.filter fun (x : ScanSet) => x.typ == 1
    let whole := [60, 61, 62, 63].all fun i => mine.any fun (x : ScanSet) => x.typ == 2 && x.index == i
    if whole then none
    else match ix.groups.find? fun (g : GroupEntry) => g.generation == z.generation.toNat && g.wrap == z.wrap && g.member == z.member && g.group == z.group with
      | some g => some { g with noC3 := true, lastSlot := z.slot }
      | none =>
        let first := (data.find? fun x => x.index == 0).elim z.slot ScanSet.slot
        let runs := (data.flatMap ScanSet.runs).foldl (fun (rs : List Run) x =>
          if rs.any fun r => r.stream == x.1.toNat then
            rs.map fun r => if r.stream == x.1.toNat then
              ⟨r.stream, if r.first.toNat ≤ x.2.1.toNat then r.first else x.2.1, if x.2.2.toNat ≤ r.last.toNat then r.last else x.2.2⟩ else r
          else rs ++ [⟨x.1.toNat, x.2.1, x.2.2⟩]) []
        let chains := data.flatMap fun x => x.chains.map fun c => (⟨c.1.toNat, x.index, c.2.1.toNat, c.2.2⟩ : Chain)
        some ⟨p.band, p.width, z.member, z.wrap, z.group, first, z.slot, z.generation.toNat, data.length, true, false, seg, runs, chains, []⟩

/-- The in-line segments of data sets that the index does not hold, in order of COMMIT: those above the LAST_COMMIT of their session, all
of a session that it does not know (R242). -/
def scanSegments (ix : Index) (sets : List ScanSet) : List (CommitHead × Entries) :=
  let after := fun (g : Nat) => ((ix.sessions.find? fun s => s.generation == g).map fun s => s.lastCommit.toNat).getD 0
  ((sets.filter ScanSet.decodes).filterMap fun x => if x.segment.isEmpty then none else readCommit x.segment).foldl
    (fun l c => if c.1.kind = 2 ∧ after c.1.generation < c.1.commit then putCommit c l else l) []

/-- Add entries to the index and to what the next zone commit holds. -/
def Dev.mergeEntries (d : Dev) (es : Entries) : Dev :=
  d.modPlc fun p => { p with index := { p.index.merge es with commit := p.index.commit, delta := p.index.delta ++ es.map Prod.snd } }

/-- The highest generation that insole and tape show (R56, R243). -/
def topGeneration (ix : Index) (sets : List ScanSet) : Nat :=
  (sets.map fun x => x.generation.toNat).foldl (fun m g => if g ≤ ix.genCeil then max m g else m) ix.topGeneration

/-- Whether a scan is needed (R242, R247): the newest session has not ended, or no heel of it is found. -/
def scanNeeded (ix : Index) (env : LoadEnv) : Bool :=
  let gen := topGeneration ix env.scan
  gen != 0 && (env.heel.isNone || !(ix.sessions.any fun s => s.generation == gen && s.ended != 0))

/-- The place of a data set among those of its session in write order: wrap, DS_SEQ, member. -/
def scanKey (x : ScanSet) : Nat := (x.wrap * 2 ^ 48 + x.dsSeq.toNat) * 4 + x.member

/-- Whether a data set is missing between two places, where wraps are `width` track groups wide. -/
def holesIn (keys : List Nat) (width : Nat → Nat) (a b : Nat) : Bool :=
  let mine := keys.filter fun k => decide (a ≤ k) && decide (k ≤ b)
  let wrapOf := fun (k : Nat) => k / 2 ^ 50
  let next := fun (k : Nat) => if k % 4 + 1 < width (wrapOf k) then k + 1 else k / 4 * 4 + 4
  mine.any fun k => k != b && !mine.contains (next k)
    && ((mine.any fun j => wrapOf j == wrapOf k && decide (k < j)) || !(mine.any fun j => wrapOf j == wrapOf k + 1))

/-- Records of a stream that end at or before end of data and are present (R246): from the first data set with bytes of the record to
its end none is missing, nor one before in which it could begin. `sets` are those read, `keys` the places of those of the runs. -/
def presentRecords (sets : List ScanSet) (keys : List Nat) (width : Nat → Nat) (stream : Nat) : List Nat :=
  let ended := sets.flatMap fun x => (x.ended.filter fun r => r.1.toNat == stream).map fun r => (r.2.toNat, scanKey x)
  (ended.filter fun r =>
    let holding := sets.filter fun x => x.runs.any fun y => y.1.toNat == stream && decide (y.2.1.toNat ≤ r.1) && decide (r.1 ≤ y.2.2.toNat)
    let from_ := ((holding.map scanKey).min?).getD r.2
    let begins := ended.any fun e => e.1 + 1 == r.1
    !holesIn keys width from_ r.2 && (begins || !holesIn keys width 0 from_)).map Prod.fst

/-- NEXT_REC of a stream after a scan (R247): one more than its last present record, among those that end in data sets at or before end of
data and those of recorded groups. The last record of a recorded group counts as present unless a data set read shows bytes of it and
none its end (DESIGN CHOICE, log 51: the index does not say). -/
def scanNext (ix : Index) (sets : List ScanSet) (keys : List Nat) (width : Nat → Nat) (e : StreamEntry) : StreamEntry :=
  let present := presentRecords sets keys width e.stream
  let last := ((ix.groups.flatMap GroupEntry.runs).filterMap fun r => if r.stream == e.stream then some r.last.toNat else none).max?
  let shown := fun (r : Nat) => sets.any fun x => x.runs.any fun y =>
    y.1.toNat == e.stream && decide (y.2.1.toNat ≤ r) && decide (r ≤ y.2.2.toNat)
  let recorded := match last with
    | some r => if shown r && !present.contains r then r else r + 1
    | none => 0
  { e with nextRec := BitVec.ofNat 48 (max recorded ((present.map fun r => r + 1).foldl max 0)) }

/-- The STREAM entries of streams that the scan found and the index does not know; their options are not on tape (DESIGN CHOICE, log
51: 0, closed). -/
def newStreams (ix : Index) (sets : List ScanSet) : List StreamEntry :=
  let found := (sets.flatMap fun x => x.runs.map fun r => r.1.toNat).dedup
  (found.filter fun s => s != 0xFFFF && !(ix.streams.any fun e => e.stream == s)).map fun s => ⟨s, false, false, 0, 0, 0⟩

/-- The last data data set of a recorded group: LAST_SLOT lies four slots behind it, or on it without C3 (R236). -/
def GroupEntry.dataEnd (g : GroupEntry) : Nat := if g.noC3 then g.lastSlot else slotAfter (!wrapReverse g.wrap) g.lastSlot 4

/-- End of data without a heel: the entries that the scan commits and the append point (R247, R248). -/
def Dev.endOfScan (d : Dev) (gen : Nat) (sets : List ScanSet) (runs : List (List ScanSet)) : Dev :=
  let ix := d.plc.index
  let sess := ix.sessions.find? fun s => s.generation == gen
  let firstSet := (runs.flatten).head?
  let dataOf := fun (r : List ScanSet) => (r.filter fun x => x.typ == 1).getLast?
  let ends := runs.filterMap dataOf
  let w := ends.foldl (fun (m : Nat) (x : ScanSet) => max m x.wrap) 0
  let last := ends.filter fun (x : ScanSet) => x.wrap == w
  let recorded := ix.groups.getLast?
  let (wrap, dataSlot, next) : Nat × Nat × Nat := match last with
    | z :: zs =>
      let slot := zs.foldl (fun (s : Nat) (x : ScanSet) => further w s x.slot) z.slot
      let copies := sets.filter fun (x : ScanSet) => x.generation.toNat == gen && x.wrap == w && (x.typ == 1 || x.typ == 2) && last.any fun (e : ScanSet) =>
        e.member == x.member && decide (x.dsSeq.toNat ≤ e.dsSeq.toNat)
      (w, slot, slotAfter (wrapReverse w) (copies.foldl (fun (s : Nat) (x : ScanSet) => further w s x.slot) slot) 1)
    | [] => match recorded with
      | some g =>
        let copies := sets.filter fun (x : ScanSet) => x.generation.toNat == g.generation && x.wrap == g.wrap && x.group == g.group && x.member == g.member
          && (x.typ == 1 || x.typ == 2)
        (g.wrap, g.dataEnd, slotAfter (wrapReverse g.wrap) (copies.foldl (fun (s : Nat) (x : ScanSet) => further g.wrap s x.slot) g.lastSlot) 1)
      | none => match sess with
        | some s => (s.firstWrap, 0, s.startSlot)
        | none => (0, 0, 3600)
  let base : SessEntry := match sess, firstSet with
    | some s, _ => s
    | none, some x => ⟨gen, x.wrap, x.wrap, 0, x.slot, 0, 0⟩
    | none, none => ⟨gen, wrap, wrap, 0, next, 0, 0⟩
  let done : SessEntry := { base with lastWrap := wrap, ended := 2, endSlot := dataSlot }
  let (seg, d) := d.fresh
  let groups := runs.filterMap fun (r : List ScanSet) => match r.getLast? with
    | some x => scanGroup ix (d.wrapPlace x.wrap) r (seg.toNat % 60)
    | none => none
  let upTo := runs.flatMap fun (r : List ScanSet) => match dataOf r with
    | some z => r.filter fun (x : ScanSet) => decide (x.dsSeq.toNat ≤ z.dsSeq.toNat)
    | none => []
  let recordedSets := sets.filter fun (x : ScanSet) => x.decodes && x.typ == 1 && ix.groups.any fun (g : GroupEntry) =>
    g.generation == x.generation.toNat && g.wrap == x.wrap && g.member == x.member && g.group == x.group
  let present := recordedSets ++ upTo.filter fun (x : ScanSet) => x.typ == 1
  let width := fun (w : Nat) => ((upTo.filter fun (x : ScanSet) => x.wrap == w).map ScanSet.member).foldl max 0 + 1
  let known := ix.streams ++ newStreams ix present
  let streams := (known.map fun (e : StreamEntry) => scanNext ix present (upTo.map scanKey) width e).filter fun (e : StreamEntry) => !ix.streams.contains e
  let es : Entries := [(1, done.bytes)] ++ (groups.flatMap GroupEntry.entries).map (fun (e : List Byte) => (fieldAt e 0 2, e))
    ++ streams.map fun (e : StreamEntry) => (4, e.bytes)
  let d := d.mergeEntries es
  d.modPlc fun p => { p with appendAt := { d.wrapPlace wrap with slot := next } }

/-- The recovery scan (R247): in-line segments are merged, and without a heel end of data is where the runs end. -/
def Dev.scan (d : Dev) (env : LoadEnv) : Dev :=
  let ix := d.plc.index
  let gen := topGeneration ix env.scan
  let sess := ix.sessions.find? fun s => s.generation == gen
  let first := match (ix.groups.filter fun (g : GroupEntry) => g.generation == gen).getLast?, sess, env.scan.find? fun x => x.generation.toNat == gen with
    | some g, _, _ => g.wrap
    | none, some s, _ => s.firstWrap
    | none, none, some x => x.wrap
    | none, none, none => 0
  let runs := (List.range 4).flatMap fun m => memberRuns ix env.scan gen m 160 first
  let found := (env.scan.filter fun x => decide (x.generation.toNat < gen)) ++ runs.flatten
  let segs := scanSegments ix found
  let d := segs.foldl (fun d c => (d.mergeEntries c.2).modPlc fun p =>
    { p with index := { p.index with commit := BitVec.ofNat 48 (max p.index.commit.toNat c.1.commit) } }) d
  let d := d.bump C.plcScan
  if env.heel.isSome then d else d.endOfScan gen env.scan runs

/-! ## The transport at LOAD and UNLOAD (R93, R381, R423) -/

/-- Slots in the order in which LOAD closes them: IDA, IQA, IDB, IQB, TEN, VEL, CRS, LAT (R381). -/
def closeOrder : List Nat := [4, 5, 6, 7, 3, 2, 1, 0]

/-- What LOAD begins with: channel values, drivers, and the state that each load starts afresh (R93, R138, R175, R390, R432). -/
def Dev.beginLoad (d : Dev) : Dev :=
  let d := (d.loadChannels).sendChannels
  let d := { d with
    chan := { d.chan with groupsOn := 0, hfmHot := [], retained := [], scans := [], loops := [] }
    ecc := { d.ecc with limit := false, deadRuns := [], deadVfy := [], deadHfm := [], hfmGone := [], rereads := 0, held := none, c3Seen := [] }
    mdr := { d.mdr with gdSeen := [], gdDead := [], gdWait := [] }
    pos := { d.pos.fresh with skews := [], dataBand := 0, regapFrom := none } }
  let d := ((d.goMode .unset).set F.tceStatusStops 0).cancelShots
  d.enableDrivers [0, 1, 2, 3]

/-- The tape is unthreaded: slots open in the reverse order, the reels are off, the channels disabled, the position unset
(R93, R381, R408, R423, R532). -/
def Dev.unthread (d : Dev) : Dev :=
  let d := { d with tce := { d.tce with v := 0, a := 0, target := .stop, held := none, replanned := true, reaction := 0, stopping := false } }
  let d := closeOrder.reverse.foldl (fun d s => d.setClosed s false) d
  let d := (((d.enterMode 0 0).enterMode 1 0).set F.mdrStatusGdEn 0).set F.tceStatusReaction 0
  let d := { d with mdr := { d.mdr with boot := [], gdWait := [] } }
  let d := (((d.cancelShots.dropEntries Entry.isStart).dropEntries Entry.isWindow).goMode .unset).closeGate
  { d with pos := { d.pos.fresh with skews := [], regapFrom := none } }

/-- Clicks and buffers of what is not on tape are given up. -/
def Dev.dropClicks (d : Dev) : Dev :=
  let hs := ((d.strm.clicks.flatMap fun c => if c.uncoded then c.spans.map Span.handle else [])
    ++ d.strm.ctxs.flatMap fun x => x.open_.map Span.handle).dedup
  let d := d.releaseAll hs ownComp
  let d := (d.releaseAll d.plc.staged ownLast).releaseAll (d.strm.ctxs.flatMap Ctx.spill) ownComp
  let d := (d.plc.dsets.foldl (fun d x => d.freeDset x) d).dropParity
  { d with strm := { d.strm with clicks := [], ctxs := [], waiting := [], engines := d.strm.engines.map fun _ => Engine.free } }

/-- Reads and data sets under decode are given up. -/
def Dev.dropReads (d : Dev) : Dev :=
  let d := d.releaseAll (d.strm.reads.flatMap Read.out) ownComp
  let d := (d.strm.reads.map Read.h).foldl (fun (d : Dev) h => d.dropRead h) d
  let d := d.ecc.decodes.foldl (fun (d : Dev) x => d.dropDecode x) d
  if d.ecc.pin.isSome then d.unpin else d

/-- Every open stream is closed (R320). -/
def Dev.closeStreams (d : Dev) : Dev :=
  (d.strm.ctxs.filter fun x => !x.closing).foldl (fun d x => d.noteStream (x.entry false)) d

/-- No cartridge is loaded: what belonged to it is gone. -/
def Dev.forgetCartridge (d : Dev) : Dev :=
  let d := d.dropReads.dropClicks
  let d := d.releaseAll (d.plc.segs.flatMap Segment.granules) ownLast
  { d with
    cart := Cart.reset
    plc := { Plc.reset with nextDs := d.plc.nextDs }
    cas := { d.cas with setId := none }
    ecc := { d.ecc with acc := [], limit := false, deadRuns := [], deadVfy := [], deadHfm := [], hfmGone := [] }
    tce := { d.tce with weltTrim := 0, latOuts := [] } }

/-! ## LOAD (R319) -/

/-- The results of LOAD. -/
def Dev.loadResult (d : Dev) : List Byte :=
  leBytes 4 d.remainDs ++ leBytes 1 (b2n d.appendBar.isNone + 2 * b2n d.cart.scanned)

/-- LOAD fails: the tape is unthreaded again. -/
def Dev.loadFails (d : Dev) (h st : Nat) (det : List Byte) : Dev :=
  (((d.modPlc fun p => { p with scanning := false }).unthread).disableChannels).finish h st det

/-- The next group number of each wrap that the index knows. -/
def nextGroups (ix : Index) : List (Nat × Nat) :=
  ((ix.groups.map GroupEntry.wrap).dedup).map fun w =>
    (w, (ix.groups.filter fun (g : GroupEntry) => g.wrap == w).foldl (fun m g => max m (g.group + 1)) 0)

/-- The insole as it is read: index, copies, generations and append point (R221, R242, R243). -/
def Dev.readInsole (d : Dev) (env : LoadEnv) (readOnly : Bool) : Dev :=
  let (parts, d) := d.readZone env.parts
  let series := zoneSeries (completeCommits (parts.filterMap fun p => readCommit p.2.2))
  let ix := zoneIndex series
  let last := ix.commit.toNat
  let scan := scanNeeded ix env
  let d := { d with
    cart := ⟨true, readOnly, scan, env.pack⟩
    plc := { Plc.reset with nextDs := d.plc.nextDs, index := ix, nextGen := ix.genCeil + 1, zone := (zoneCopyOf 0 last parts, zoneCopyOf 1 last parts) } }
  let d := if scan then d.scan env else d
  let d := match env.heel with
    | some (w, slot) => d.modPlc fun p => { p with appendAt := { d.wrapPlace w with slot := slot } }
    | none => d
  let ix := d.plc.index
  let set := ((ix.raw.filter fun e => e.typ == 7).getLast?).map fun e => BitVec.ofNat 64 (fieldAt e.body 4 8)
  let d := { d with cas := { d.cas with setId := set } }
  let full := decide (1800 * 1966080 * 9 < 10 * entriesLength ix.entries)
  let d := d.modPlc fun p => { p with streams := ix.streams, groupNext := nextGroups ix, recorded := ix.commit
                                      stopped := if full then some stIndexFull else none }
  d.set F.plcGenCeilGenCeil ix.genCeil

/-- The rest of LOAD, once the channels are enabled and the reels turn. -/
def Dev.endLoad (d : Dev) (c : Cmd) (env : LoadEnv) : Dev :=
  match d.motionBar.or (motionDetail env.motion) with
  | some det => d.loadFails c.h stTransport det
  | none =>
    if !env.ztf1 || (d.casMode == 2 && !env.setOk) then d.loadFails c.h stMedium []
    else
      let readOnly := bitAt (c.par 16 1) 0
      let d := d.readInsole env readOnly
      let d := d.ensureSet
      let extra := d.bootExtras ++ d.joinExtras
      let d := if d.appendBar.isNone then d.zoneCommit extra true env.zone else d
      let d := closeOrder.foldl (fun d s => d.setClosed s true) d
      let d := d.loadCalibrate env.cal
      let d := ((d.set (F.tcePackLOfs.ix 0) env.pack.1.toNat).set (F.tcePackLOfs.ix 1) env.pack.2.toNat).showRadii
      let (at_, d) := d.fresh
      let d := (d.standAt (at_.toNat % 140508000)).judgeDead
      let d := (d.set F.plcCapacityRemainDs d.remainDs).checkCapacity
      ((d.goState .loaded).tellMembers .load).finish c.h stGood d.loadResult

/-- Whether what the insole says calls for a scan that has not begun (R242, R254): STATUS shows it from one meeting of the row to the next. -/
def Dev.startsScan (d : Dev) (env : LoadEnv) : Bool :=
  !d.plc.scanning && d.motionBar.isNone && motionDetail env.motion == none && env.ztf1
    && scanNeeded (zoneIndex (zoneSeries (completeCommits ((d.readZone env.parts).1.filterMap fun p => readCommit p.2.2)))) env

/-- LOAD (R313, R319). It waits for a restarting cobbler (R17) and for the end of maintenance that began in idle (R22; log 16). The row
stands for its beginning and, met again when the enable groups are on, for its end. -/
def Dev.load (d : Dev) (h : Nat) (env : LoadEnv) : Dev :=
  match d.ready? h opLoad with
  | none => d
  | some c =>
    if d.flag F.glbCobblerRestarting || d.glb.dev == .maintenance then d
    else if c.phase == .started then
      let running := [0, 1].all fun x => decide (2 ≤ d.reelMode x)
      if !d.zoneBuffer then (d.allocate 1 ownLast ownWrite).2
      else if (d.motionBar.isNone && motionDetail env.motion == none
          && (d.chan.groupsOn < 16 || !d.mdr.boot.isEmpty || !running)) then d
      else if d.startsScan env then d.modPlc fun p => { p with scanning := true }
      else d.endLoad c env
    else if d.cart.loaded then d.finish h stGood d.loadResult true
    else if !env.present then d.finish h stNoCartridge []
    else match d.motionBar with
      | some det => d.finish h stTransport det
      | none => (d.modCmd c.h fun c => { c with phase := .started, motion := true }).beginLoad

/-! ## UNLOAD (R320) -/

/-- The rest of UNLOAD, once no session is open and every commit is merged. Where its zone commit stops appending, the command fails
with that and the cartridge stays (R239, R325). -/
def Dev.endUnload (d : Dev) (c : Cmd) (zone : ZoneEnv) (m : Motion) : Dev :=
  match d.motionBar.or (motionDetail m) with
  | some det => d.finish c.h stTransport det
  | none =>
    let d := d.closeStreams
    let streams := (d.plc.changed.filterMap d.streamEntry?).map StreamEntry.bytes
    let d := if d.cart.readOnly then d else d.zoneCommit streams false zone
    if !(d.cqm.cmds.any fun k => k.h == c.h && k.phase == .started) then d.standStill
    else
      let d := ((d.unthread).disableChannels).forgetCartridge
      (d.toIdle.tellMembers .unload).finish c.h stGood []

/-- UNLOAD (R222, R313, R320). The row stands for its beginning, which ends an open session, and, met again, for its end. -/
def Dev.unload (d : Dev) (h : Nat) (zone : ZoneEnv) (m : Motion) : Dev :=
  match d.ready? h opUnload with
  | none => d
  | some c =>
    if d.flag F.glbCobblerRestarting then d
    else if c.phase == .started then
      if !d.cart.readOnly && !d.zoneBuffer then (d.allocate 1 ownLast ownWrite).2
      else if d.plc.session.isSome || (d.plc.commits.any fun k => k.verified && !k.merged) || !d.strm.reads.isEmpty then d
      else d.endUnload c zone m
    else if !d.cart.loaded then d.finish h stGood [] true
    else ((d.modCmd c.h fun c => { c with phase := .started, motion := true }).endForTape).streaming

/-! ## The cartridge goes (R320) -/

/-- CARTRIDGE_EJECTED (R22, R320): commands that need the tape fail, all streams close, the transport stops. -/
def Dev.ejected (d : Dev) : Dev :=
  if !d.cart.loaded then
    (d.cqm.cmds.filter fun c => c.opcode == opLoad && c.phase == .started).foldl (fun d c => d.loadFails c.h stRemoved []) d
  else
    let tape := d.cqm.cmds.filter fun c => match c.phase with
      | .dispatched | .started => isDataOp c.opcode
      | _ => false
    let d := { d with cqm := { d.cqm with waits := [] } }
    let d := (d.closeStreams).unthread
    let d := d.forgetCartridge
    let d := d.event 0x0317
    let d := if d.glb.dev == .maintenance then { d with glb := { d.glb with beforeMaint := .idle } } else d.goState .idle
    tape.foldl (fun d c => d.finish c.h stRemoved []) d

def execLoad (h : Nat) (env : LoadEnv) (s : State) : Host.Outcome State Fault Refusal := s.doing fun d => (d.load h env).hostSettle
def execUnload (h : Nat) (zone : ZoneEnv) (motion : Motion) (s : State) : Host.Outcome State Fault Refusal :=
  s.doing fun d => (d.unload h zone motion).hostSettle
def execCartridgeEjected (s : State) : Host.Outcome State Fault Refusal := s.doing fun d => d.ejected.hostSettle

end Sys2Proof.Machine
end

