-- ==== Sys2Proof/Machine/Position.lean ====
section
/-!
DEFINITION. The position timebase (chapter 03): servo frames, band words, signatures, eyelet windows and marks, with the
rows of that chapter, and the welt value (R125, R373).
-/
namespace Sys2Proof.Machine

/-! ## Lateral samples (R62 to R65) -/

/-- The stripes of a burst, when all three are there. -/
def burst (b : List (Option Int)) : Option (Int × Int × Int) :=
  match b with
  | [some x, some y, some z] => some (x, y, z)
  | _ => none

/-- The sum of the distances of a burst from burst K. -/
def burstSum (k b : Int × Int × Int) : Int := (b.1 - k.1).natAbs + (b.2.1 - k.2.1).natAbs + (b.2.2 - k.2.2).natAbs

/-- A frame as it is measured: the sums of three t_P and of three t_M. -/
def frameSums (f : ServoFrame) : Option (Int × Int) :=
  match burst f.k, burst f.p, burst f.m with
  | some k, some p, some m => some (burstSum k p, burstSum k m)
  | _, _, _ => none

/-- Whether the sample of a frame is valid (R64). -/
def frameValid (f : ServoFrame) : Bool :=
  f.flag.isSome && match frameSums f with
    | some (p, m) => decide ((p + m - 147456).natAbs ≤ 1536)
    | none => false

/-- y of R63 in 1/1,024 µm, within its range (R65). DESIGN CHOICE, log 44: rounded down. -/
def lateralOffset (p m : Int) : Int := satInt (-35840) 35840 ((p + m + 3 * (p - m)) * 20016128 / (300 * (p + m)))

/-- The word bit of a frame (R64), where the flag and stripe 3 of K, whichever passes first, are there. -/
def frameBit (f : ServoFrame) : Option Bool :=
  match f.flag, f.k with
  | some x, [_, _, some k] => some (decide ((x - k).natAbs < 4096))
  | _, _ => none

/-- The direction that a frame shows (R62): burst M before burst K is reverse. -/
def frameReverse (f : ServoFrame) : Option Bool :=
  match f.k.findSome? id, f.m.findSome? id with
  | some k, some m => some (decide (m < k))
  | _, _ => none

/-- Frames whose direction disagrees with the sign of V_CMD (R62, R386): the fourth in succession fails. Frames of the lateral
input beside the active band are counted (log 34). -/
def Dev.checkDirection (d : Dev) (input : Nat) (rev : Bool) : Dev :=
  let d := d.set F.posStatusDir (b2n rev)
  if input != d.get F.posStatusActiveBand then d
  else
    let wrong := if rev then decide (0 < d.tce.v) else decide (d.tce.v < 0)
    let n := if wrong then d.pos.wrongDir + 1 else 0
    let d := { d with pos := { d.pos with wrongDir := n } }
    if n = 4 && d.closed 2 then d.fail [(2, kindDir)] 0 else d

/-- A word with one more word bit (R32, R66): bit 0 of a band word passes first in forward motion and bit 47 in reverse. -/
def gatherBit (rev bit : Bool) (w : Word) : Word :=
  if rev then w <<< 1 ||| BitVec.ofNat 48 (b2n bit) else w >>> 1 ||| BitVec.ofNat 48 (b2n bit * 2 ^ 47)

/-- The word bits of a lateral input go on with the bit of a frame (R66). -/
def Dev.gather (d : Dev) (input : Nat) (bit : Bool) : Dev :=
  let (l, u) := d.pos.words
  let ws := if input = 0 then (gatherBit d.reverse bit l, u) else (l, gatherBit d.reverse bit u)
  { d with pos := { d.pos with words := ws } }

/-- LATERAL_SAMPLE (R63 to R65): what a frame that does not give a value shows is open (log 2). FRAME is taken from TPOS, in
the unset state from the value that it holds (DESIGN CHOICE, log 44). -/
def Dev.lateralSample (d : Dev) (input : Nat) (frame : Option ServoFrame) : Dev :=
  if 2 ≤ input then d
  else
    let f := frame.getD ⟨[], none, [], []⟩
    let (w, d) := d.fresh
    let y := match frameSums f with
      | some (p, m) => if p + m = 0 then (w.toNat % 16777216) else unsigned 24 (lateralOffset p m)
      | none => w.toNat % 16777216
    let bit := (frameBit f).getD (bitAt w.toNat 40)
    let d := (d.set (F.posLatWordBit.ix input) (b2n bit)).set (F.posLatValid.ix input) (b2n (frameValid f))
    let d := (d.set (F.posLatFrame.ix input) (unsigned 16 (d.tpos / 3200))).set (F.posLatOffset.ix input) y
    let d := match frameReverse f with
      | some r => d.checkDirection input r
      | none => d
    d.gather input bit

/-! ## Corrections (R68, R80) -/

/-- Armed starts and verify windows are cancelled and reported: the data sets are placed again as after an abort, and a copy
without its window fails (R79, R80, R84). -/
def Dev.cancelForStep (d : Dev) : Dev :=
  let starts := d.pos.entries.any Entry.isStart
  let slots := d.pos.entries.filterMap fun (e : Entry) => match e.owner with | .window g => some g | _ => none
  let mark := fun (k : Copy) => if slots.contains k.slot && k.step == .written then { k with noWindow := true } else k
  let d := d.modPlc fun p => { p with dsets := p.dsets.map fun (x : DSet) => { x with copies := x.copies.map mark } }
  let d := (d.cancelStarts.rewindFifos).dropEntries Entry.isWindow
  if starts || d.pos.regapFrom.isSome then { d with pos := { d.pos with regapFrom := some d.eyelet } } else d

/-- TPOS steps from its place to another: entries passed over fire at once, flagged jumped. -/
def Dev.stepTo (d : Dev) (p : Int) : Dev :=
  let d := d.cancelForStep
  let es := d.pos.entries.filter fun e => e.isSnapshot && decide (0 < d.aheadOf e)
  let d := ((d.setTpos p).bump C.posCorrect)
  let over_ := es.filter fun e => decide (d.aheadOf e ≤ 0)
  let shots := d.shotsOf over_
  ((d.dropEntries fun e => over_.contains e).takeShots shots true).fireTraces

/-- The position is confirmed (R80). -/
def Dev.confirm (d : Dev) : Dev :=
  let again := d.pos.regapFrom.map fun _ => d.eyelet
  ({ d with pos := { d.pos with uncertainFor := 0, relock := none, lastDiff := none, regapFrom := again } }).goMode .locked

/-- Copies whose writing or verify sampling meets the boundary are provisional (R81); each data set is counted once. -/
def Dev.markProvisional (d : Dev) (b : Int) : Dev :=
  let rev := d.reverse
  let at_ : Int := if rev then b - 1 else b
  let wSlot := at_ / 150
  let rSlot := (if rev then at_ + 200 else at_ - 200) / 150
  let mine := fun (k : Copy) => (k.step == .written || k.step == .read)
  let w := fun (k : Copy) => mine k && decide ((k.slot : Int) = wSlot)
  let r := fun (k : Copy) => mine k && decide ((k.slot : Int) = rSlot)
  let new := d.plc.dsets.countP fun x => x.member == d.self && x.copies.any fun k => (w k || r k) && !k.wProv && !k.rProv
  let mark := fun (k : Copy) => { k with wProv := k.wProv || w k, rProv := k.rProv || r k }
  (d.modPlc fun p => { p with dsets := p.dsets.map fun (x : DSet) =>
    if x.member = d.self then { x with copies := x.copies.map mark } else x }).bumpBy C.posProvisional new

/-- The position becomes uncertain (R68, R76), in the eyelet where TPOS stands: what is being written or sampled there is
provisional (R81, R82). The runs of marks that R80 asks for begin afresh (DEDUCED, log 44). -/
def Dev.becomeUncertain (d : Dev) : Dev :=
  let d := { d with pos := { d.pos with uncertainFor := 0, relock := none, runLower := 0, runUpper := 0 } }
  let d := d.markProvisional (if d.reverse then d.eyelet + 1 else d.eyelet)
  ((d.goMode .uncertain).set F.posStatusUncertainSeen 1).bump C.posUncertain

/-! ## Setting TPOS (R67) -/

/-- Whether the eyelet interval shows a speed of at least 0.95 m/s, and one below 0.90 m/s (R74). -/
def Pos.fast (p : Pos) : Bool := decide (0 < p.interval) && decide (95 * p.interval ≤ 800000)
def Pos.slow (p : Pos) : Bool := decide (80000 < 9 * p.interval)

/-- The state that follows when TPOS is set (R67, R74), by the speed that the last eyelet interval shows. -/
def Dev.setPosition (d : Dev) (p : Int) : Dev :=
  let d := { d with pos := d.pos.fresh.counted d.pos.interval }
  (d.goMode (if d.pos.fast then .acquire else .count)).setTpos p

/-- SIGNATURE_SEEN (R67): a complete origin or end signature sets TPOS while it is unset. -/
def Dev.signature (d : Dev) (endSig : Bool) : Dev :=
  if d.pos.mode != .unset then d
  else
    let e : Int := if endSig then (if d.reverse then 140508001 else 140508013) else (if d.reverse then -14 else -2)
    d.setPosition (512 * e)

/-! ## Band words (R66, R68, R80) -/

/-- One step of the CRC-8 of R32, bit by bit. -/
def wcrcBit (c : Nat) (b : Bool) : Nat := if (decide (128 ≤ c)) != b then 2 * c % 256 ^^^ 7 else 2 * c % 256

/-- WCRC over bits [39:8], bit 8 first (R32). -/
def wcrc (w : Word) : Nat := ((List.range 32).map fun i => w.getLsbD (8 + i)).foldl wcrcBit 0

/-- Whether a word shows SYNC. -/
def hasSync (w : Word) : Bool := w.toNat % 256 == 0x7E

/-- Whether a band word read in servo band `b` is valid (R66). -/
def wordValid (b : Nat) (w : Word) : Bool := hasSync w && w.toNat / 2 ^ 40 == wcrc w && w.toNat / 256 % 8 == b

/-- The number n of a band word (R32). -/
def wordNumber (w : Word) : Int := signed 29 (w.toNat / 2048 % 2 ^ 29)

/-- How far before its place on the centreline the last stripe of a frame lies in forward motion, in channel bits: the slant
of burst M at an offset y in 1/1,024 µm (R63). -/
def slant (y : Int) : Int := y * 12278 * 64 / 102400000

/-- TPOS when a band word is decoded (R31, R63, R64, R66): 64 channel bits past the last stripe of its last frame in the direction
of motion, burst M's at the offset y or in reverse the first of burst K. -/
def decodePlace (rev : Bool) (y n : Int) : Int := if rev then 153600 * n + 64 else 153600 * n + 152896 - slant y

/-- Eyelets between TPOS and the place of a word: TPOS stands where its last event left it, less than an eyelet behind. -/
def eyeletsOff (rev : Bool) (p tpos : Int) : Int := if rev then -((tpos - p) / 512) else (p - tpos) / 512

/-- Whether a word's frames were all read after the boundary where lock returned. -/
def readAfter (rev : Bool) (n e : Int) : Bool := if rev then decide (300 * n + 300 ≤ e) else decide (e ≤ 300 * n)

/-- The lateral offset that an input's last sample shows, where it is valid. -/
def Dev.offsetOf (d : Dev) (input : Nat) : Int :=
  if d.flag (F.posLatValid.ix input) then signed 24 (d.get (F.posLatOffset.ix input)) else 0

/-- A band word that counts (R66), from the input that gives it. -/
def Dev.useWord (d : Dev) (input : Nat) (n : Int) : Dev :=
  let rev := d.reverse
  let p := decodePlace rev (d.offsetOf input) n
  let k := eyeletsOff rev p d.tpos
  let d := if k != 0 && d.pos.mode != .unset then d.bump C.posWordMismatch else d
  let same := d.pos.lastDiff == some k
  let note := fun (d : Dev) => ({ d with pos := { d.pos with lastDiff := if k = 0 then none else some k } } : Dev)
  match d.pos.mode with
  | .unset =>
    let follows := d.pos.lastWord == some (if rev then n + 1 else n - 1)
    if follows then d.setPosition p else { d with pos := { d.pos with lastWord := some n } }
  | .locked => if k != 0 && same then (note d).becomeUncertain else note d
  | .uncertain =>
    match d.pos.relock with
    | none => d
    | some e =>
      if !readAfter rev n e then d
      else if k = 0 then d.confirm
      else if 3 ≤ k.natAbs then d.losePosition
      else ((d.stepTo (d.tpos + 512 * k)).set F.posStatusCorrected 1).confirm
  | .count | .acquire =>
    if k != 0 && same then
      let d := d.stepTo p
      { d with pos := { d.pos with lastDiff := none, runLower := 0, runUpper := 0 } }
    else note d

/-- BAND_WORD_DECODED (R66): the later of the samples of a word's last frame has issued. An input on which it issued decodes the word of
its last 48 word bits, of servo band d on the lower input and d + 1 on the upper. An input that gave no such sample decodes none. -/
def Dev.bandWord (d : Dev) (onLower onUpper : Bool) : Dev :=
  if d.follows then d else
  let b := d.pos.dataBand
  let (lower, upper) := d.pos.words
  let d := { d with pos := { d.pos with words := (0, 0) } }
  let bad := fun (band : Nat) (w : Word) => b2n (hasSync w && !wordValid band w)
  let good := fun (input : Nat) (w : Word) => if wordValid (b + input) w then some (input, w) else none
  let d := d.bumpBy C.posWordErr ((if onLower then bad b lower else 0) + (if onUpper then bad (b + 1) upper else 0))
  let l := if onLower then good 0 lower else none
  let u := if onUpper then good 1 upper else none
  match if d.flag F.posStatusActiveBand then u.or l else l.or u with
  | some w => d.useWord w.1 (wordNumber w.2)
  | none => d

/-! ## Eyelet windows (R69, R75 to R77, R80, R81) -/

/-- The expected omissions (R29, R69). -/
def omitted (e : Int) : Bool :=
  [-14, -13, -10, -8, -5, -2, 140508001, 140508004, 140508007, 140508009, 140508012, 140508013].contains e

/-- The greatest amplitude of a pulse. -/
def Pulse.peak (p : Pulse) : Nat := (p.map Prod.snd).foldl max 0

/-- The centre of a pulse as a mark (R75): the centroid of what lies above 40 % of the running amplitude, unless the pulse
stays below 50 % of it. DESIGN CHOICE, log 44: the centroid is rounded down to 1/16 channel bit. -/
def Pulse.centre (amp : Nat) (p : Pulse) : Option Int :=
  let top := p.filter fun x => decide (4 * amp < 10 * x.2)
  let weight := ((top.map Prod.snd).sum : Nat)
  if decide (2 * Pulse.peak p < amp) || weight = 0 then none
  else some ((top.map fun x => x.1 * (x.2 : Int)).sum / (weight : Int))

/-- The centres of the pulses that are marks. -/
def Marks.centres (amp : Nat) (ms : Marks) : List Int := ms.filterMap fun p => Pulse.centre amp p

/-- The running amplitude after the marks of a window (R75). -/
def Marks.amp (amp : Nat) (ms : Marks) : Nat :=
  (ms.filter fun p => (Pulse.centre amp p).isSome).foldl (fun a p => Config.markAmp a (Pulse.peak p)) amp

/-- The mark that a window uses (R75): the one nearest the prediction, of two at equal distance the one that passes earlier,
which in reverse is the one of greater TPOS; and how many marks are spurious. -/
def pickMark (rev : Bool) (ms : List Int) : Option Int × Nat :=
  let inside := ms.filter fun p => decide (p.natAbs ≤ 768)
  let earlier := fun (a b : Int) => if rev then decide (a < b) else decide (b < a)
  let nearer := fun (a b : Int) => if b.natAbs < a.natAbs || (b.natAbs == a.natAbs && earlier a b) then b else a
  match inside with
  | [] => (none, ms.length)
  | x :: xs => (some (xs.foldl nearer x), ms.length - 1)

/-- The eyelet boundary whose window closes next, and TPOS at its close. -/
def Dev.nextWindow (d : Dev) : Int × Int :=
  if d.reverse then
    let b := (d.tpos + 47) / 512
    (b, 512 * b - 48)
  else
    let b := (d.tpos - 48) / 512 + 1
    (b, 512 * b + 48)

/-- A run of windows with a mark within ±12 channel bits; an expected omission leaves it (R69, R74, R80). -/
def runAfter (n : Nat) (mark : Option Int) (skip : Bool) : Nat :=
  match mark with
  | some p => if p.natAbs ≤ 192 then n + 1 else 0
  | none => if skip then n else 0

/-- The mean offset of the upper band's mark (R77): over the last 64 eyelets at which both bands had one. DESIGN CHOICE, log 44:
the mean is rounded down, and SKEW and SKEW_VALID stay over a LOAD, which begins the 64 eyelets afresh. -/
def Dev.noteSkew (d : Dev) (lower upper : Option Int) : Dev :=
  match lower, upper with
  | some l, some u =>
    let now := if d.flag F.posBandSkewSkewValid then signed 16 (d.get F.posBandSkewSkew) else 0
    let ss := ((u + now - l) :: d.pos.skews).take 64
    let d := { d with pos := { d.pos with skews := ss } }
    if ss.length = 64 then (d.set F.posBandSkewSkew (unsigned 16 (satInt (-256) 256 (ss.sum / 64)))).set F.posBandSkewSkewValid 1 else d
  | _, _ => d

/-- The active band changes (R76, R80). -/
def Dev.switchBand (d : Dev) (upper : Bool) : Dev :=
  if d.flag F.posStatusActiveBand == upper then d else (d.set F.posStatusActiveBand (b2n upper)).bump C.posSwitch

/-- What the commanded acceleration adds to the channel clock over an eyelet, in 2^-24 MHz (R70, R71): dv = a · 8 µm / v. -/
def feedforward (v a : Int) : Int := if v = 0 then 0 else quot ((if v < 0 then -a else a) * 8 * 1073741824) v.natAbs

/-- The channel clock and the integrator after a phase error that is positive where the mark passes late (R71). -/
def Pos.pll (p : Pos) (gains : Nat × Nat) (ff err : Int) : Pos :=
  let i := p.integ + ff - gains.2 * err
  { p with integ := i, freq := ((i - gains.1 * err) / 256).toNat }

/-- The eyelet interval between the marks of two windows that follow each other, in ns: 512 channel bits and the change of
phase, at the channel clock (R74). -/
def Pos.timed (p : Pos) (err : Int) : Pos :=
  match p.phase with
  | some e => if p.freq = 0 then p else { p with interval := ((8192 + err - e) * 4096000 / (p.freq : Int)).toNat }
  | none => p

/-- The PLL takes the phase error of the active band's mark (R71, R76 step 1). -/
def Dev.takePhase (d : Dev) (p : Int) : Dev :=
  let err := if d.reverse then -p else p
  let ff := if d.flag F.posPllCfgAccFf then feedforward d.tce.v d.tce.a else 0
  { d with pos := { ((d.pos.timed err).pll (Config.pllGains (d.word F.posPllCfgBw.addr)) ff err) with phase := some err } }

/-- What a window close does to miss counts and the PLL (R76 steps 1 to 3). -/
def Dev.windowActions (d : Dev) (lower upper : Option Int) (skip : Bool) : Dev :=
  let up := d.flag F.posStatusActiveBand
  let (act, oth) := if up then (upper, lower) else (lower, upper)
  let fAct : Fld := if up then F.posStatusMissUpper else F.posStatusMissLower
  let fOth : Fld := if up then F.posStatusMissLower else F.posStatusMissUpper
  let miss := fun (d : Dev) (f : Fld) => d.set f (min 255 (d.get f + 1))
  let flew := act.isNone && !skip
  let d : Dev := match act with
    | some p => (d.takePhase p).set fAct 0
    | none =>
      let d := { d with pos := { d.pos with phase := none } }
      if skip then d else (miss d fAct).bump C.posFlywheel
  let d : Dev := { d with pos := { d.pos with sinceFly := if flew then 0 else d.pos.sinceFly + 1 } }
  let d : Dev := match oth with
    | some _ => d.set fOth 0
    | none => if skip then d else miss d fOth
  if 2 ≤ d.get fAct ∧ d.get fOth < 2 then d.switchBand (!up) else d

/-- What the runs of marks and the miss counts make of the state at the close of the window of boundary b (R74, R76 step 4,
R80). -/
def Dev.windowState (d : Dev) (b : Int) : Dev :=
  let up := d.flag F.posStatusActiveBand
  let both := decide (4 ≤ d.get F.posStatusMissUpper) && decide (4 ≤ d.get F.posStatusMissLower)
  let slow := d.pos.slow
  match d.pos.mode with
  | .acquire =>
    if slow then (d.goMode .count).closeGate
    else if decide (16 ≤ (if up then d.pos.runUpper else d.pos.runLower)) then d.goMode .locked else d
  | .locked => if both then d.becomeUncertain else if slow then (d.goMode .count).closeGate else d
  | .uncertain =>
    let d := { d with pos := { d.pos with uncertainFor := d.pos.uncertainFor + 1 } }
    match d.pos.relock with
    | some _ => if both then { d with pos := { d.pos with relock := none, runLower := 0, runUpper := 0 } } else d
    | none =>
      let l := decide (16 ≤ d.pos.runLower)
      let u := decide (16 ≤ d.pos.runUpper)
      if l || u then
        let d := { d with pos := { d.pos with relock := some b } }
        d.switchBand (if l && u then up else u)
      else d
  | .unset | .count => d

/-- EYELET_WINDOW_CLOSE (R75 to R77): the window of the next eyelet boundary closes with the marks that each band shows,
`lower` and `upper` as pulses placed against that band's prediction. -/
def Dev.windowClose (d : Dev) (lower upper : Marks) : Dev :=
  if d.follows then d
  else match d.pos.mode with
  | .unset | .count => d
  | .acquire | .locked | .uncertain =>
    let (b, p) := d.nextWindow
    let (l, ls) := pickMark d.reverse (Marks.centres d.pos.amps.1 lower)
    let (u, us) := pickMark d.reverse (Marks.centres d.pos.amps.2 upper)
    let skip := omitted b
    let d := ((d.bumpBy C.posSpurious ls).bumpBy (C.posSpurious + 1) us).reach p
    let d := { d with pos := { d.pos with amps := (Marks.amp d.pos.amps.1 lower, Marks.amp d.pos.amps.2 upper) } }
    let d := if skip then d.bumpBy C.posSignature (b2n l.isSome + b2n u.isSome) else d
    let d := { d with pos := { d.pos with runLower := runAfter d.pos.runLower l skip, runUpper := runAfter d.pos.runUpper u skip } }
    let d := (d.noteSkew l u).windowActions l u skip
    let d := if d.pos.sinceFly = 0 || d.pos.mode == .uncertain then d.markProvisional b else d
    let d := if l.isSome || u.isSome then d.eyeletCounted else d
    let d := d.sendBeacon (if d.reverse then b - 2 else b + 2) (d.pos.sinceFly == 0)
    let d := if b % 16 = 0 then { d with chan := { d.chan with ctleFreq := d.pos.freq } } else d
    (d.takeWords.windowState b).fireTraces

/-- UNCERTAIN_TIMEOUT (R86). -/
def Dev.uncertainTimeout (d : Dev) : Dev :=
  if d.pos.mode == .uncertain && decide (1200 ≤ d.pos.uncertainFor) then d.losePosition else d

/-- EYELET_MARK_COUNTED (R74): in the count state a mark `interval` ns after the one before it; in the unset state the interval
alone is measured. TIME stands no earlier than the mark (log 7). -/
def Dev.markCounted (d : Dev) (interval : Nat) : Dev :=
  if d.follows then d
  else
    let p := d.pos.interval
    let near := p = 0 || 4 * (max interval p - min interval p) ≤ p
    let far := 3 * p < 2 * interval
    let i := if near then interval else interval / 2
    if d.pos.mode == .unset then { d with pos := d.pos.counted (if near || far then i else p) }
    else if d.pos.mode != .count || (!near && !far) then d
    else
      let n : Int := if near then 1 else 2
      let place : Int := if d.reverse then 512 * ((d.tpos + 511) / 512 - n) - 1 else 512 * (d.eyelet + n)
      let d := if d.since d.pos.markTime < interval then d.set F.posTimeTime ((d.pos.markTime + interval) % 2 ^ 48) else d
      let d := { d with pos := { (d.pos.counted i) with markTime := d.time } }
      let d := (d.reach place).eyeletCounted
      let d := if d.pos.fast then ({ d with pos := { d.pos with runLower := 0, runUpper := 0, sinceFly := 8 } }).goMode .acquire else d
      d.fireTraces

/-! ## Welts (R125, R373) -/

/-- The welt value of one channel from its samples at phases 392 to 471, in 1/4,096 rounded down (DESIGN CHOICE, log 44). -/
def weltOf (odd : Bool) (xs : List Int) : Option Int :=
  let e := fun (ys : List Int) => ((ys.map Int.natAbs).sum : Int)
  let e1 := e (xs.take 40)
  let e2 := e ((xs.drop 40).take 40)
  if e1 + e2 < 2048 then none else some ((if odd then e2 - e1 else e1 - e2) * 4096 / (e1 + e2))

/-- The welt trim moves (R373), in 1/65,536 µm. -/
def Dev.trimBy (d : Dev) (w : Int) : Dev :=
  if !d.flag F.tceLatCfgWeltEn then d
  else
    let w0 := signed 16 (d.get F.tceWeltCalW0)
    let step := (w - w0) * (d.get F.tceWeltCalKW : Int) * (d.get F.tceWeltCalWeltGain : Int) / 4096
    let lim := (d.get F.tceWeltCalWeltLim : Int) * 65536 / 20
    { d with tce := { d.tce with weltTrim := satInt (-lim) lim (d.tce.weltTrim + step) } }

/-- The eyelet whose welt the read elements have just passed (R61): they follow the write elements by 200 eyelets. -/
def Dev.weltEyelet (d : Dev) : Int := if d.reverse then d.eyelet + 200 else d.eyelet - 200

/-- Whether the welt of an eyelet lies in a defect span that channel n has found in the retained slot (R122). -/
def Dev.weltSpoilt (d : Dev) (n : Nat) (e : Int) : Bool :=
  let rev := d.reverse
  d.chan.retained.any fun r => decide ((r.slot : Int) = e / 150) &&
    match r.reads.find? (fun t => t.channel == n), r.sets.find? (fun t => t.1 == n) with
    | some t, some s =>
      let lo := 512 * (e % 150) + 384
      let at_ := if rev then 76799 - (lo + 95) else lo
      (segView s.2 d.defectCfg r.slot rev d.oddLane t).spans.any fun x => decide (x.1 ≤ at_ + 95) && decide (at_ ≤ x.2)
    | _, _ => false

/-- WELT_VALUE (R125): the samples of the channels that read the welt; a channel whose welt lies in a defect span does not
contribute. DESIGN CHOICE, log 44: the mean is rounded down. -/
def Dev.weltValue (d : Dev) (samples : List (Nat × List Int)) : Dev :=
  let e := d.weltEyelet
  let ws := samples.filterMap fun s => if d.channelOn s.1 && !d.weltSpoilt s.1 e then weltOf d.oddLane s.2 else none
  let d := ((d.set F.rchWeltContrib ws.length).set F.rchWeltValid (b2n !ws.isEmpty)).set F.rchWeltEyeletLo (unsigned 16 e)
  if ws.isEmpty then d
  else
    let mean := ws.sum / (ws.length : Int)
    (d.set F.rchWeltMean (unsigned 16 mean)).trimBy mean

/-! ## The rows -/

def execEyeletWindowClose (lower upper : Marks) (s : State) : Host.Outcome State Fault Refusal :=
  s.doing fun d => (d.windowClose lower upper).hostSettle
def execLateralSample (input : Nat) (frame : Option ServoFrame) (s : State) : Host.Outcome State Fault Refusal :=
  s.doing fun d => (d.lateralSample input frame).hostSettle
def execBandWordDecoded (lower upper : Bool) (s : State) : Host.Outcome State Fault Refusal :=
  s.doing fun d => (d.bandWord lower upper).hostSettle
def execSignatureSeen (endSig : Bool) (s : State) : Host.Outcome State Fault Refusal := s.doing fun d => d.signature endSig
def execUncertainTimeout (s : State) : Host.Outcome State Fault Refusal := s.doing fun d => d.uncertainTimeout.hostSettle
def execEyeletMarkCounted (interval : Nat) (s : State) : Host.Outcome State Fault Refusal := s.doing fun d => d.markCounted interval
def execWeltValue (samples : List (Nat × List Int)) (s : State) : Host.Outcome State Fault Refusal :=
  s.doing fun d => d.weltValue samples

end Sys2Proof.Machine
end

