-- ==== Sys2Proof/Machine/Cascade.lean ====
section
/-!
DEFINITION. The cascade over the Andola link (chapter 14): link-up, joining, leaving and loss on the master and on a
member, beacons, flits, and what the devices of a set tell one another.
-/
namespace Sys2Proof.Machine

/-! ## Straps and views (R442, R465, R466) -/

/-- Whether role and ID keep R442 in a mode: the master has ID 0, members another one, in width mode up to 3. -/
def strapsKeep (mode : Nat) (role : Bool) (id : Nat) : Bool :=
  if role then id == 0 else id != 0 && (mode != 1 || decide (id ≤ 3))

/-- The device judges its straps when MODE takes effect (R442): straps that break the rule bar it, with CASCADE_CONFIG. -/
def Dev.judgeStraps (d : Dev) : Dev :=
  let mode := d.get F.casCfgMode % 3
  let bad := mode != 0 && !strapsKeep mode d.glb.straps.role d.ownId
  let was := d.cas.barred
  let d := { d with cas := { d.cas with barred := bad } }
  if bad && !was then d.event 0x030F else d

/-- CAS.STATUS.PRESENT: the joined devices of the set, as far as this device knows them. -/
def Dev.presentNow (d : Dev) : Nat :=
  if d.isMaster then d.present else if d.isMember && d.cas.joined then 2 ^ d.ownId else 0

/-- CAS.STATUS.WIDTH: the width of the open session's wrap in width mode. -/
def Dev.widthNow (d : Dev) : Nat :=
  if d.casMode = 1 then (match d.plc.session with | some s => s.place.width | none => 0) else 0

/-- The state of a member. -/
def Dev.memberState (d : Dev) (j : Nat) : Nat := ((d.cas.members.find? fun m => m.id == j).map CMember.state).getD 0

/-- Store a member in ID order. -/
def Dev.putMember (d : Dev) (m : CMember) : Dev :=
  let ms := d.cas.members.filter (fun x => decide (x.id < m.id)) ++ [m] ++ d.cas.members.filter (fun x => decide (m.id < x.id))
  { d with cas := { d.cas with members := ms } }

/-- Change the state of a member. -/
def Dev.setMember (d : Dev) (j state : Nat) : Dev :=
  let ms := d.cas.members.map fun (m : CMember) => if m.id = j then { m with state := state } else m
  { d with cas := { d.cas with members := ms } }

/-! ## Link-up and joining (R449 to R451) -/

/-- FW_DIGEST of the running slot (R505). -/
def Dev.fwDigest (d : Dev) : List Byte := ((d.slotHeader (d.flag F.glbBootSlot)).drop 28).take 48

/-- The checks of R450 on what a member reports. -/
def Dev.memberFits (d : Dev) (member : Nat) (info : LinkInfo) : Bool :=
  let ident := BitVec.ofNat 48 d.ident
  (info.mode.toNat % 3 == d.casMode)
    && F.glbIdentStepLetter.of info.ident == F.glbIdentStepLetter.of ident
    && F.glbIdentStepDigit.of info.ident == F.glbIdentStepDigit.of ident
    && info.fwDigest == d.fwDigest
    && !info.role && info.id.toNat == member && strapsKeep d.casMode false member && !info.idTaken
    && decide (info.latency.toNat ≤ 20000)

/-- CASCADE_LINK_UP: the port is up with 64 flits of credit per channel; the master checks the member, and a member notes its
latency and whether another device holds its ID (R442, R449, R450). -/
def Dev.cascadeUp (d : Dev) (port member : Nat) (info : LinkInfo) : Dev :=
  if 2 ≤ port then d
  else
    let d := ((d.noteId member).modCasPort port fun k => { k with up := true, rewinds := 0, credit := [64, 64, 64] }).pumpAll port
    if d.isMember then
      let d := { d with cas := { d.cas with lat := info.latency.toNat, masterLost := false } }
      if info.idTaken then ({ d with cas := { d.cas with barred := true } }).event 0x030F else d
    else if !d.isMaster || member = 0 || 16 ≤ member then d
    else
      let now := d.memberState member
      if now = 2 || now = 3 || now = 4 then d
      else
        let es := (⟨9, info.identity⟩ : RawEntry) :: info.records.map fun r => ⟨5, r⟩
        if d.memberFits member info then d.putMember ⟨member, 1, info.latency.toNat, es⟩
        else (d.putMember ⟨member, 0, info.latency.toNat, es⟩).event 0x030F

/-- Whether a joining member may become joined now (R451): no session, in width mode the end of the wrap, in stripe mode no
open C3 group. -/
def Dev.joinBoundary (d : Dev) : Bool :=
  match d.plc.session with
  | none => true
  | some s =>
    if d.casMode = 1 then decide (slotsLeft s.place.wrap s.place.slot ≤ 0)
    else s.index == 0 || decide (60 ≤ s.index)

/-- CASCADE_JOIN (R451), which waits for a restarting cobbler (R17): on the master; on a member, which is told of its own join. -/
def Dev.cascadeJoin (d : Dev) (member : Nat) : Dev :=
  if d.isMember then
    if member = d.ownId then ({ d with cas := { d.cas with joined := true } }).set F.casStatusJoinSeen 1 else d
  else if d.isMaster && d.memberState member = 2 && d.joinBoundary && !d.flag F.glbCobblerRestarting then
    (((d.setMember member 3).set F.casStatusJoinSeen 1).bump C.casJoin).event 0x030D
  else d

/-! ## Planned removal (R459) -/

/-- A leaving stripe member is absent once none of its clicks waits to be reported as passed. -/
def Dev.settleLeaving (d : Dev) : Dev :=
  if d.casMode = 2 then d.membersLeave fun m => !(d.strm.clicks.any fun c => c.member == m.id && c.at_ != .placed) else d

/-- MEMBER_LEAVE (R459, R462): a planned removal of a joined member begins; with no session open in width mode there is no
wrap turn to wait for. -/
def Dev.memberLeave (d : Dev) (member : Nat) : Dev :=
  if !d.isMaster || d.memberState member != 3 then d
  else
    let d := d.setMember member 4
    if d.casMode = 1 then (if d.plc.session.isNone then d.membersLeave fun _ => true else d)
    else (d.sendLink member 1 (.sessionEnd 0)).settleLeaving

/-! ## Losses (R458 to R462) -/

/-- A group that ends by a loss is merged at once (R460): a survivor's, or the lost member's with NO_C3. -/
def Dev.closeLost (d : Dev) (s : Session) (lost : Nat → Bool) (slot : Nat) : Dev :=
  let gs := (List.range s.place.width).map fun j =>
    let g := s.groupEntry j s.index slot true d.plc.runs d.plc.chains d.plc.replacing
    if lost j then { g with noC3 := true, lastSlot := slot } else g
  let es := (d.plc.noC3 ++ gs).flatMap GroupEntry.entries ++ (d.plc.changed.filterMap d.streamEntry?).map StreamEntry.bytes
    ++ [(s.entry 1 slot d.plc.index.commit).bytes]
  d.modPlc fun p =>
    let ix := p.index.merge (es.map fun e => (fieldAt e 0 2, e))
    { p with index := { ix with delta := ix.delta ++ es }, noC3 := [], changed := [], runs := [], chains := [], replacing := []
             groupNext := (s.place.wrap, s.group + 1) :: p.groupNext.filter fun x => x.1 != s.place.wrap }

/-- The session ends for the loss of width members (R460): nothing more is closed, the open group closes short, and what the
lost members had not verified is placed again in the next session. -/
def Dev.widthLoss (d : Dev) (lost : Nat → Bool) : Dev :=
  match d.plc.session with
  | none => d
  | some s =>
    let rev := wrapReverse s.place.wrap
    let back := (List.range 64).find? fun k => d.plc.dsets.any fun x => x.typ == 1 && x.wrap == s.place.wrap
      && x.first == slotAfter (!rev) s.place.slot (k + 1)
    let slot := slotAfter (!rev) s.place.slot (back.getD 0 + 1)
    let isOpen := decide (0 < s.index) && decide (s.index < 60)
    let d := if isOpen then d.closeLost s lost slot else d
    let d := d.modSession fun s =>
      let s := if isOpen then { s with index := 60, count := s.index, groups := s.groups + 1, lastGroup := some s.group } else s
      { s with ending := true, closing := true, lost := true }
    let gone := d.plc.dsets.filter fun x => lost x.member && !x.passed && !x.superseded
    let d := gone.foldl (fun d x => if x.typ = 1 then d.supersede x else d.modDset x.id fun y => { y with superseded := true }) d
    d.settleAppend

/-- Clicks of a lost stripe member are placed again by the master (R461): coded ones from their copies in P1, the others are
coded again from P0, each stream's first beginning a chain (R456). -/
def Dev.stripeLoss (d : Dev) (lost : Nat) : Dev :=
  let mine := d.strm.clicks.filter fun c => c.member == lost && c.at_ != .placed
  let take := fun (c : Click) => if c.member == lost && c.at_ != .placed then { c with member := 0 } else c
  let d := { d with strm := { d.strm with clicks := d.strm.clicks.map take } }
  let raw := mine.filter fun c => c.at_ == .cut
  let firsts := raw.filter fun c => !(raw.any fun k => k.ctx == c.ctx && k.chain == c.chain && decide (k.id < c.id))
  (firsts.foldl (fun d c => if c.reset then d else d.rechain c) d).stageAll

/-- A loss is noted (R458). -/
def Dev.noteLoss (d : Dev) : Dev := ((d.bump C.casLoss).set F.casStatusLossSeen 1).event 0x030E

/-- CASCADE_LOSS (R458 to R462): the master loses a member, or a member its master. Met again, the row says that the path to
a lost member is down (R449). -/
def Dev.cascadeLoss (d : Dev) (member : Nat) (ofMaster : Bool) : Dev :=
  if ofMaster then
    if !d.isMember || d.cas.masterLost then d
    else
      let d := ({ d with cas := { d.cas with masterLost := true, joined := false } }).noteLoss
      if d.follows then d.losePosition else d.endForTape
  else if !d.isMaster then d
  else
    let was := d.memberState member
    if was = 5 then d.setMember member 0
    else if was = 0 then d
    else
      let d := (d.setMember member 5).noteLoss
      if was = 3 || was = 4 then
        if d.casMode = 1 then
          let used := match d.plc.session with | some s => decide (member < s.place.width) && !s.lost | none => false
          if used then d.widthLoss fun j => j == member
          else
            let gone := d.plc.dsets.filter fun x => x.member == member && !x.passed && !x.superseded
            let d := gone.foldl (fun d x => if x.typ = 1 then d.supersede x else d.modDset x.id fun y => { y with superseded := true }) d
            d.settleAppend
        else d.stripeLoss member
      else d

/-! ## Flow control (R357, R455) -/

/-- FC_IN_CHANGE: the state of the pins, and in width mode what follows from it. -/
def Dev.fcIn (d : Dev) (level : BitVec 2) : Dev :=
  (d.set F.casStatusFcIn level.toNat).flowControl

/-! ## Beacons on a member in width mode (R452, R453) -/

/-- An eyelet boundary that a member's POS places: TPOS there, and what of writing and verify meets it. -/
def Dev.followBoundary (d : Dev) (p : Int) (fly : Bool) : Dev :=
  let d := d.reach p
  let d := { d with pos := { d.pos with sinceFly := if fly then 0 else d.pos.sinceFly + 1 } }
  let d := if fly || d.pos.mode == .uncertain then d.markProvisional (p / 512) else d
  d.takeWords.fireTraces

/-- A position that stays unconfirmed for 1,200 eyelets is lost (R453). -/
def Dev.followAge (d : Dev) : Dev :=
  if d.pos.mode == .uncertain then
    let d := { d with pos := { d.pos with uncertainFor := d.pos.uncertainFor + 1 } }
    if 1200 ≤ d.pos.uncertainFor then d.losePosition else d
  else d

/-- The beacon that the payload of a beacon flit spells (R452). -/
def beaconOf (bs : List Byte) : Beacon where
  tposE := BitVec.ofNat 48 (fieldAt bs 0 6)
  freq := BitVec.ofNat 32 (fieldAt bs 6 4)
  mode := BitVec.ofNat 3 (fieldAt bs 10 1)
  dir := bitAt (fieldAt bs 10 1) 3
  fly := bitAt (fieldAt bs 10 1) 4
  depOfs := BitVec.ofNat 16 (fieldAt bs 11 2)

/-- BEACON_RECEIVED, at the instant at which the boundary is placed (log 7): TPOS, clock, direction and state follow the master; a member uncertain by its own misses is confirmed by
16 beacons that agree with its prediction, and loses its position by one that does not. -/
def Dev.beacon (d : Dev) (b : Beacon) : Dev :=
  if !d.follows || d.cas.masterLost then d
  else
    let place := b.tposE.toInt
    let step : Int := if b.dir then -512 else 512
    let agrees := d.tpos + step == place
    let d := { d with cas := { d.cas with misses := 0 }, pos := { d.pos with freq := b.freq.toNat } }
    let d := d.set F.posStatusDir (b2n b.dir)
    if d.cas.unsure && d.pos.mode == .uncertain then
      if !agrees then ({ d with cas := { d.cas with unsure := false, agrees := 0 } }).losePosition
      else
        let d := ({ d with cas := { d.cas with agrees := d.cas.agrees + 1 } }).followBoundary place b.fly
        if 16 ≤ d.cas.agrees then
          ({ d with cas := { d.cas with unsure := false, agrees := 0 }, pos := { d.pos with uncertainFor := 0 } }).goMode .locked
        else d.followAge
    else
      let d := { d with cas := { d.cas with unsure := false, agrees := 0 } }
      let d := match b.mode.toNat with
        | 0 => if d.pos.mode == .unset then d else d.losePosition
        | 1 => d.goMode .count
        | 2 => d.goMode .acquire
        | 3 => ({ d with pos := { d.pos with uncertainFor := 0 } }).goMode .locked
        | 4 => if d.pos.mode == .uncertain then d else d.becomeUncertain
        | _ => d
      if b.mode = 0 then d else (d.followBoundary place b.fly).followAge

/-- BEACON_MISS: a flywheel insertion of the member's own; four in succession make the position uncertain. -/
def Dev.beaconMiss (d : Dev) : Dev :=
  if !d.follows || d.pos.mode == .unset then d
  else
    let d := (d.bump C.posFlywheel).bump C.casBeaconMiss
    let d := { d with cas := { d.cas with misses := d.cas.misses + 1, agrees := 0 } }
    let d := d.followBoundary (d.tpos + (if d.reverse then -512 else 512)) true
    let d := if 4 ≤ d.cas.misses && d.pos.mode != .uncertain then
        ({ d with cas := { d.cas with unsure := true } }).becomeUncertain else d
    d.followAge

/-! ## What a master receives -/

/-- The data set of a member that a message names. -/
def Dev.memberSet? (d : Dev) (member typ : Nat) (dsSeq : Word) : Option DSet :=
  d.plc.dsets.find? fun x => x.member == member && x.typ == typ && x.dsSeq == dsSeq && !x.passed && !x.superseded

/-- A member's verify decision (R454): the master gives the payload up once it has passed. -/
def Dev.verdictIn (d : Dev) (member typ : Nat) (dsSeq : Word) (passed : Bool) : Dev :=
  match d.memberSet? member typ dsSeq with
  | some x =>
    if passed then (((d.modDset x.id fun y => { y with passed := true }).freeDset x).verifyCommits).settleAppend else d
  | none => d

/-- A data set that a member could not write in its window is superseded (R180, R454). -/
def Dev.supersededIn (d : Dev) (member typ : Nat) (dsSeq : Word) : Dev :=
  match d.memberSet? member typ dsSeq with
  | some x => (if typ = 1 then d.supersede x else d.modDset x.id fun y => { y with superseded := true }).settleAppend
  | none => d

/-- A stripe member returns a coded click (R456): the master keeps the copy in P1 and gives the P0 granules up. -/
def Dev.codedIn (d : Dev) (member click : Nat) (raw : Bool) (bytes : List Byte) : Dev :=
  match d.strm.clicks.find? fun c => c.id == click && c.member == member && c.at_ == .cut with
  | none => d
  | some c =>
    let d := d.modClick c.id fun c => { c with at_ := .ready 16, raw := raw, coded := bytes }
    ((d.dropInput c).settleCtxs).stageAll

/-- A stripe member has verified the last piece of a click (R456). -/
def Dev.placedIn (d : Dev) (member click : Nat) : Dev :=
  match d.strm.clicks.find? fun c => c.id == click && c.member == member with
  | none => d
  | some c => ((d.modClick c.id fun c => { c with at_ := .placed, pieces := [] }).trimStage.settleAppend).settleLeaving

/-- A member returns a data set for a read (R454, R457); none while no P3 buffer is free. -/
def Dev.readBackIn (d : Dev) (member wrap group index klass : Nat) (payload : List Byte) : Option Dev :=
  match d.allocate 3 ownVerify ownVerify with
  | (none, _) => none
  | (some h, d) =>
    let d := d.putDdr (d.bufAddr h) (fitTo 1966080 payload)
    let x : Decode :=
      { slot := 0, wrap := wrap, member := member, verify := false, headers := [], syncs := [], reports := [], handle := h
        merged := [], c2Bad := some [], head := none, headerBad := [], group := group, index := index, corrected := false, content := true
        klass := some klass, step := 0 }
    some (d.addDecode x).settleReads

/-- The index entries of a stripe member (R457). -/
def Dev.entriesIn (d : Dev) (member : Nat) (es : List (List Byte)) : Dev :=
  let ix := Index.empty.merge (es.map fun e => (fieldAt e 0 2, e))
  d.modPlc fun p => { p with far := ix.groups.foldl (fun gs (g : GroupEntry) => putGroup { g with member := member } gs) p.far }

/-! ## What a member receives -/

/-- The session of a width member: what its master's data sets say (R454). -/
def sentSession (x : SentSet) : Session :=
  { generation := x.generation, firstWrap := x.wrap, startSlot := x.slot, place := ⟨x.wrap, x.band, x.lane, x.width, x.slot⟩
    dsSeq := x.dsSeq, group := x.group, index := x.index, count := 0, noParity := false, groupFirst := x.slot, groups := 0
    lastGroup := none, dataSets := 0, ending := false, closing := false, endCommit := 0, heel := none, lastUsed := none
    affMember := [], lost := false, owedGaps := 0, atEnd := false }

/-- A data set's payload comes to a width member (R454), which stamps the manifest with its own reference (R49): it lies in P1 and runs R15 from step 3; where the member's own copies
have taken its slot, its first copy is displaced. None while no P1 buffer is free. -/
def Dev.dataSetIn (d : Dev) (x : SentSet) (payload : List Byte) : Option Dev :=
  match (if x.last then d.takeParity 4 else some d).map fun d => d.allocate 1 ownLast ownWrite with
  | none | some (none, _) => none
  | some (some h, d) =>
    let d := (d.share h ownC3).2
    let d := d.putDdr (d.bufAddr h) (stampManifest d.glb.bootCount deviceRef (fitTo 1966080 payload))
    let s := match d.plc.session with
      | some s =>
        if s.generation != x.generation then sentSession x
        else if s.place.wrap = x.wrap then s
        else { sentSession x with firstWrap := s.firstWrap, startSlot := s.startSlot, groups := s.groups, dataSets := s.dataSets }
      | none => sentSession x
    let rev := wrapReverse x.wrap
    let g := if slotsFrom rev s.place.slot x.slot < 0 then s.place.slot else x.slot
    let s : Session := { s with
      place := ⟨x.wrap, x.band, x.lane, x.width, g⟩, dsSeq := x.dsSeq, group := x.group, index := x.index
      groupFirst := if x.index = 0 then g else s.groupFirst }
    let d := d.modPlc fun p => { p with session := some s }
    let y : DSet := { d.newDset s 1 d.self x.group x.index 0 h with flushEnd := x.flushEnd, last := x.last }
    let d := (d.addDset y).useSlot s
    let d := d.modSession fun t =>
      let t := { t with dsSeq := x.dsSeq + 1, dataSets := t.dataSets + 1 }
      if x.last then { t with index := 60, count := x.index + 1, groups := t.groups + 1, lastGroup := some x.group }
      else { t with index := x.index + 1 }
    some (if g = x.slot then d else d.tellMaster (.displaced x.dsSeq g))

/-- P0 granules for record bytes that a stripe member receives; none where too few are free. -/
def Dev.takeInput (d : Dev) : Nat → List Byte → Option (List Span × Dev)
  | 0, _ => some ([], d)
  | n + 1, bs =>
    if bs.isEmpty then some ([], d)
    else match d.allocate 0 ownComp ownHostRx with
      | (none, _) => none
      | (some h, d) =>
        let now := bs.take 65536
        let d := d.putDdr (d.bufAddr h) now
        match d.takeInput n (bs.drop 65536) with
        | some (ss, d) => some (⟨h, 0, now.length⟩ :: ss, d)
        | none => none

/-- The record bytes of a click come to the stripe member that codes and places it (R456); a session begins with the first. None while
too few P0 granules are free. Where no generation is left the member appends no more (R57; log 38). -/
def Dev.clickIn (d : Dev) (c : SentClick) (input : List Byte) : Option Dev :=
  if !d.cart.loaded then none
  else if d.plc.session.isNone && decide (0xFFFFFFFF < d.plc.nextGen) then some (d.stopNow stGenerations)
  else match d.takeInput (input.length / 65536 + 1) input with
    | none => none
    | some (spans, d) =>
      let d := d.beginSession
      let fresh : Ctx :=
        { id := d.strm.nextChain, stream := c.stream, endCut := false, chainSet := false, chainOpt := 0, affinity := c.affinity
          nextRec := c.record, owner := c.record, recStart := true, open_ := [], inLen := 0, ends := [], urgent := false
          sinceReset := 0, fresh := false, chain := c.chain, chainFrom := c.record, chainAt := none, member := 0
          lastUse := d.time, onDie := true, slot := [], slotChain := c.chain, spill := [], histLen := 0, spillAt := 0, closing := false }
      let x := ((d.ctx? c.stream)).getD fresh
      let next := c.record + BitVec.ofNat 48 c.ends.length
      let x : Ctx := { x with
        chain := c.chain, nextRec := next, lastUse := d.time
        chainFrom := if c.reset then c.record else x.chainFrom, chainAt := if c.reset then none else x.chainAt }
      let ctxs := (d.strm.ctxs.filter fun y => y.id != x.id) ++ [x]
      let k : Click :=
        { id := d.strm.nextClick, ctx := x.id, stream := c.stream, chain := c.chain, reset := c.reset, record := c.record
          recStart := c.recStart, spans := spans, inLen := input.length, ends := c.ends, cutFlush := c.cutFlush
          urgent := c.urgent, affinity := c.affinity, member := 0, at_ := .cut, input := [], raw := false, coded := []
          sent := 0, pieces := [], redo := [], source := none, remote := some c.click }
      let d := { d with strm := { d.strm with
        ctxs := ctxs, clicks := d.strm.clicks ++ [k], nextClick := d.strm.nextClick + 1
        nextChain := max d.strm.nextChain (c.chain + 1) } }
      some (d.noteStream (x.entry true))

/-- The master wants a data set of this member (R454, R457). -/
def Dev.wantIn (d : Dev) (wrap group index : Nat) (entry : List Byte) : Dev :=
  let g : GroupEntry := { GroupEntry.ofBytes entry with member := d.self }
  let known := d.plc.index.groups.any fun e => e.member == d.self && e.wrap == wrap && e.group == group
  let d := if entry.isEmpty || known then d else
    d.modPlc fun p => { p with index := { p.index with groups := p.index.groups ++ [g] } }
  let r : Read := ⟨2 ^ 48 + d.cqm.nextH, 0, 0, [⟨d.self, wrap, group, index, 0, 251⟩], [], 0, 0, [], [], false, true⟩
  { d with strm := { d.strm with reads := d.strm.reads ++ [r] }, cqm := { d.cqm with nextH := d.cqm.nextH + 1 } }

/-- LOAD or UNLOAD of a stripe member by its master (R457): a command of no connection, which its rows then run. -/
def Dev.memberCmd (d : Dev) (op : Nat) : Dev :=
  let c : Cmd :=
    { h := d.cqm.nextH, queue := 2 ^ 32, tag := 0, opcode := op, cls := 0, stream := 0xFFFF, block := leBytes 32 0, dataLen := 0
      data := [], phase := .dispatched, held := false, counts := false, inMaint := false, motion := true, record := 0 }
  { d with cqm := { d.cqm with cmds := d.cqm.cmds ++ [c], nextH := d.cqm.nextH + 1 } }

/-- A width member's device state follows its master's (R444), by the moves of R22. -/
def Dev.followState (d : Dev) (loaded moving : Bool) : Dev :=
  if !d.glb.dev.running then d
  else
    let d := { d with cart := { d.cart with loaded := loaded } }
    if moving then (if d.glb.dev == .idle then d.goState .loaded else d).goState .streaming
    else if loaded then d.goState .loaded else d.toIdle

/-- A message from a device of the set; none while it cannot be taken. -/
def Dev.linkIn (d : Dev) (src : Nat) (m : LinkMsg) : Option Dev :=
  if d.isMaster then
    match m with
    | .verdict typ n ok => some (d.verdictIn src typ n ok)
    | .displaced n slot => some (match d.memberSet? src 1 n with
        | some x => d.modDset x.id fun y => { y with first := slot }
        | none => d)
    | .superseded typ n => some (d.supersededIn src typ n)
    | .coded c raw bs => some (d.codedIn src c raw bs)
    | .placed c => some (d.placedIn src c)
    | .readBack w g i k bs => d.readBackIn src w g i k bs
    | .entries es => some (d.entriesIn src es)
    | .dataSet .. | .click .. | .want .. | .snapshot .. | .load | .unload | .streaming _ | .sessionEnd _ => some d
  else if d.isMember && src = 0 then
    match m with
    | .dataSet x bs => if d.follows then d.dataSetIn x bs else some d
    | .click c bs => if d.follows then some d else d.clickIn c bs
    | .want w g i e => some (d.wantIn w g i e)
    | .snapshot i t => some (if 4 ≤ d.cnt.armed.length then d else
        match d.arm ⟨t.toInt, d.reverse, .snapshot i⟩ with
        | some d => { d with cnt := { d.cnt with armed := d.cnt.armed ++ [⟨i, false, t⟩] } }
        | none => d.bump C.posLate)
    | .load => some (if d.follows then d.followState true false else d.memberCmd opLoad)
    | .unload => some (if d.follows then d.followState false false else d.memberCmd opUnload)
    | .streaming b => some (if d.follows then d.followState true b else d)
    | .sessionEnd c => some (if d.follows then d.modSession fun s => { s with ending := true, closing := true, endCommit := c } else d.endForTape)
    | .verdict .. | .displaced .. | .superseded .. | .coded .. | .placed _ | .readBack .. | .entries _ => some d
  else some d

/-! ## FLIT_RECEIVED and REPLAY_TIMEOUT (R446 to R448) -/

/-- The bytes that have come from a device on a channel. -/
def Dev.inboxOf (d : Dev) (src vc : Nat) : List Byte :=
  ((d.cas.inbox.find? fun x => x.1 == src && x.2.1 == vc).map fun x => x.2.2).getD []

/-- Store what has come from a device on a channel. -/
def Dev.putInbox (d : Dev) (src vc : Nat) (bs : List Byte) : Dev :=
  let rest := d.cas.inbox.filter fun x => !(x.1 == src && x.2.1 == vc)
  { d with cas := { d.cas with inbox := if bs.isEmpty then rest else rest ++ [(src, vc, bs)] } }

/-- Take the whole messages that have come from a device on a channel, at most `n`. -/
def Dev.takeMessages (d : Dev) (src vc : Nat) : Nat → Dev
  | 0 => d
  | n + 1 =>
    let bs := d.inboxOf src vc
    match Config.linkLength bs with
    | none => d
    | some k =>
      if k = 0 || bs.length < k then d
      else
        let d' := d.putInbox src vc (bs.drop k)
        match Config.linkMsg (bs.take k) with
        | none => d'.takeMessages src vc n
        | some m => match d'.linkIn src m with
          | some e => e.takeMessages src vc n
          | none => d

/-- A data or control flit that is the one expected: acknowledged, its credit returned, then taken or passed on (R443). -/
def Dev.acceptFlit (d : Dev) (p : Nat) (f : Flit) : Dev :=
  let d := d.modCasPort p fun k => { k with rcvSeq := (k.rcvSeq + 1) % 65536, waiting := false }
  let d := d.sendCredit p f.vc.toNat
  if f.dst.toNat != d.ownId then
    let q := d.onward p
    (d.modCasPort q fun k => { k with outq := k.outq ++ [f] }).pumpAll q
  else
    let src := f.src.toNat
    let vc := f.vc.toNat
    let d := d.putInbox src vc (d.inboxOf src vc ++ f.payload)
    d.takeMessages src vc (d.inboxOf src vc).length

/-- FLIT_RECEIVED: the bytes that have come. A beacon for this device is one that it receives (R452). -/
def Dev.flitIn (d : Dev) (p : Nat) (bs : List Byte) : Dev :=
  let k := d.casPort p
  if 2 ≤ p || !k.up then d
  else if !fcrcGood bs then (d.modCasPort p fun k => { k with waiting := true }).sendNak p
  else
    let f := flitOf bs
    let d := (((d.noteId f.src.toNat).noteId f.dst.toNat).modCasPort p fun k => k.acked f).pumpAll p
    match f.ftype.toNat with
    | 2 =>
      if f.dst.toNat = d.ownId then d.beacon (beaconOf f.payload)
      else if (d.casPort (d.onward p)).up then d.emit (.ofFlit (d.onward p) f) else d
    | 4 => (d.rewindPort p).pumpAll p
    | 1 | 3 =>
      let ahead := (f.seq.toNat + 65536 - k.rcvSeq) % 65536
      if ahead = 0 then d.acceptFlit p f
      else if 32768 ≤ ahead then d
      else if k.waiting then d
      else (d.modCasPort p fun k => { k with waiting := true }).sendNak p
    | _ => d

/-- REPLAY_TIMEOUT: ACK_SEQ has not advanced for 1 µs while flits are unacknowledged. -/
def Dev.replayTimeout (d : Dev) (p : Nat) : Dev :=
  let k := d.casPort p
  if k.up && !k.replay.isEmpty then d.rewindPort p else d

def execCascadeLinkUp (port member : Nat) (info : LinkInfo) (s : State) : Host.Outcome State Fault Refusal :=
  s.doing fun d => d.cascadeUp port member info
def execCascadeJoin (member : Nat) (s : State) : Host.Outcome State Fault Refusal := s.doing fun d => d.cascadeJoin member
def execFlitReceived (port : Nat) (flit : List Byte) (s : State) : Host.Outcome State Fault Refusal :=
  s.doing fun d => (d.flitIn port flit).hostSettle
def execReplayTimeout (port : Nat) (s : State) : Host.Outcome State Fault Refusal := s.doing fun d => d.replayTimeout port
def execBeaconReceived (beacon : Beacon) (s : State) : Host.Outcome State Fault Refusal :=
  s.doing fun d => (d.beacon beacon).hostSettle
def execBeaconMiss (s : State) : Host.Outcome State Fault Refusal := s.doing fun d => d.beaconMiss.hostSettle
def execCascadeLoss (member : Nat) (ofMaster : Bool) (s : State) : Host.Outcome State Fault Refusal :=
  s.doing fun d => (d.cascadeLoss member ofMaster).hostSettle
def execMemberLeave (member : Nat) (s : State) : Host.Outcome State Fault Refusal := s.doing fun d => d.memberLeave member
def execFcInChange (level : BitVec 2) (s : State) : Host.Outcome State Fault Refusal := s.doing fun d => d.fcIn level

end Sys2Proof.Machine
end

