-- ==== Sys2Proof/Machine/Dma.lean ====
section
/-!
DEFINITION. The DDR5 memory's upkeep (R335, R338) and the DMA engine (R358 to R362).
-/
namespace Sys2Proof.Machine

/-! ## DDR5 (R334 to R338) -/

/-- Both channels are trained (R334). -/
def Dev.ddrReady (d : Dev) : Bool := d.flag F.memStatusCh0Ready && d.flag F.memStatusCh1Ready

/-- Installed data capacity in bytes. -/
def Dev.ddrBytesInstalled (d : Dev) : Nat := d.get F.memStatusSizeGib * 1073741824

/-- DDR_REFRESH (R335): `double` says that a device reports the doubled rate. -/
def Dev.ddrRefresh (d : Dev) (double : Bool) : Dev :=
  if d.ddrReady then (d.set F.memStatusRefresh2x (b2n double)).bump C.memRetrain else d

/-- DDR_ZQ_CALIBRATION (R335). -/
def Dev.ddrZq (d : Dev) : Dev := if d.ddrReady then d.bump C.memRetrain else d

/-- DDR_RETRAIN (R335): one of the four subchannels. -/
def Dev.ddrRetrain (d : Dev) (sub : Nat) : Dev := if d.ddrReady && decide (sub < 4) then d.bump C.memRetrain else d

/-- PATROL_SCRUB (R337, R338): words found with a single-bit error are corrected; uncorrectable ones are left and reported. -/
def Dev.patrolScrub (d : Dev) (corrected bad : List Nat) (done : Bool) : Dev :=
  if !d.ddrReady || d.get F.memCfgScrubH = 0 then d
  else
    let inside := fun (a : Nat) => decide (4 * (a / 4) < d.ddrBytesInstalled)
    let ce := corrected.filter inside
    let d := if ce.isEmpty then d else (d.bumpBy C.memCe ce.length).set F.memStatusCeSeen 1
    let d := (bad.filter inside).foldl (fun (d : Dev) a =>
      let w := 4 * (a / 4)
      let d := if d.poison.contains w then d else { d with poison := d.poison ++ [w] }
      d.memoryError w) d
    if done then d.bump C.memScrub else d

/-! ## Address spaces (R359) -/

/-- The bytes of space 2: the bank that waits for readout (R531). -/
def Dev.shadowByte (d : Dev) (a : Nat) : Byte :=
  match d.cnt.banks with
  | (r :: _) :: _ => (bankBytes r).getD a (Config.staleByte a)
  | _ => Config.staleByte a

/-- The bytes of space 4: entry i of buffer t at 65,536 × t + 8 × i, the oldest record first (R394). -/
def Dev.traceByte (d : Dev) (a : Nat) : Byte :=
  let i := a % 65536 / 8
  match ((d.trace (a / 65536)).recs.reverse[i / 4]?).bind fun r => r[i % 4]? with
  | some w => (leBytes 8 w.toNat).getD (a % 8) 0
  | none => Config.staleByte a

/-- The size of a space; none where no bound is stated. -/
def Dev.spaceSize (d : Dev) (space : Nat) : Option Nat :=
  match space with
  | 0 => some (if d.ddrReady then d.ddrBytesInstalled else 0)
  | 1 => some 2097152
  | 2 => some 46144
  | 4 => some 262144
  | _ => none

/-- The error that an access meets, as (kind, address) (R362): reserved space, wrong direction, retention not loadable,
address outside the space, poisoned read. -/
def Dev.dmaError (d : Dev) (write : Bool) (space a n : Nat) : Option (Nat × Nat) :=
  if 5 ≤ space then some (5, a)
  else if (write && (space == 2 || space == 4)) || (!write && space == 3) then some (2, a)
  else if space = 3 && !(d.flag F.rchRetainTestLoad && d.glb.dev == .maintenance) then some (4, a)
  else
    let past := match d.spaceSize space with
      | some m => if m < a + n then some (1, max a m) else none
      | none => none
    match past with
    | some e => some e
    | none => if !write && space == 0 then (d.poisonIn a n).map fun w => (3, w) else none

/-- Read a burst. -/
def Dev.dmaRead (d : Dev) (space a n : Nat) : List Byte :=
  match space with
  | 0 => d.ddrBytes a n
  | 1 => Memory.bytes zeroByte d.cobMem a n
  | 2 => (List.range n).map fun i => d.shadowByte (a + i)
  | _ => (List.range n).map fun i => d.traceByte (a + i)

/-- Write a burst. -/
def Dev.dmaWrite (d : Dev) (space a : Nat) (bs : List Byte) : Dev :=
  match space with
  | 0 => d.putDdr a bs
  | 1 => { d with cobMem := Memory.storeAll zeroByte d.cobMem a bs }
  | _ =>
    let sets := (List.range 256).map fun n => (n, d.readSet n (d.get F.rchRetainLatestSlot))
    let blank : Retained := ⟨d.get F.rchRetainLatestSlot, (List.range 256).map fun n => ⟨n, [], [], [], none⟩, sets⟩
    let held := if d.chan.retained.isEmpty then [blank] else d.chan.retained
    let load := fun (r : Retained) => { r with reads := r.reads.map fun t =>
      { t with samples := Config.testLoad a bs r.slot t.channel t.samples } }
    { d with chan := { d.chan with retained := held.map load } }

/-! ## A channel's copy (R359, R360) -/

/-- A field of channel c. -/
def Dev.ch (d : Dev) (c : Nat) (f : Fld) : Nat := d.get (f.ix (8 * c))

/-- Set a field of channel c. -/
def Dev.setCh (d : Dev) (c : Nat) (f : Fld) (v : Nat) : Dev := d.set (f.ix (8 * c)) v

/-- The bursts of a channel's copy, as (source address, destination address, bytes). -/
def Dev.burstsOf (d : Dev) (c : Nat) : List (Nat × Nat × Nat) :=
  let x := d.ch c F.dmaChXM1 + 1
  (List.range (d.ch c F.dmaChYM1 + 1)).flatMap fun r =>
    let src := d.ch c F.dmaChSrcAddr + r * d.ch c F.dmaChSrcStride
    let dst := d.ch c F.dmaChDstAddr + r * d.ch c F.dmaChDstStride
    (List.range ((x + 255) / 256)).map fun b => (src + 256 * b, dst + 256 * b, min 256 (x - 256 * b))

/-- What a copy has come to: the device, the bytes read so far in copy order, and the bus error that ended it as (write,
space, kind, address). -/
structure Copying where
  dev   : Dev
  bytes : List Byte
  err   : Option (Bool × Nat × Nat × Nat)

/-- Copy bursts, each read in full before it is written. -/
def copyBursts (src dst : Nat) : List (Nat × Nat × Nat) → Copying → Copying
  | [], x => x
  | (a, b, n) :: rest, x =>
    match x.dev.dmaError false src a n with
    | some (k, at_) => { x with err := some (false, src, k, at_) }
    | none =>
      let bs := x.dev.dmaRead src a n
      match x.dev.dmaError true dst b n with
      | some (k, at_) => { x with err := some (true, dst, k, at_) }
      | none => copyBursts src dst rest ⟨x.dev.dmaWrite dst b bs, x.bytes ++ bs, none⟩

/-- Bytes written by a channel are counted. -/
def Dev.dmaDone (d : Dev) (c n : Nat) : Dev := (d.setCh c F.dmaChBytesDone (d.ch c F.dmaChBytesDone + n)).bumpBy C.dmaBytes n

/-- A channel leaves the running state. -/
def Dev.dmaEnds (d : Dev) (c state : Nat) : Dev := (d.setCh c F.dmaChState state).set F.dmaStatusBusy 0

/-- A bus error halts a channel (R362); a poisoned read is reported as every reader's is (R337, R339). -/
def Dev.dmaHalts (d : Dev) (c : Nat) (e : Bool × Nat × Nat × Nat) : Dev :=
  let (write, space, kind, a) := e
  let d := if kind = 3 then d.memoryError a else d
  let d := (((d.setCh c F.dmaChErrKind kind).setCh c F.dmaChErrDir (b2n write)).setCh c F.dmaChErrSpace space).setCh c F.dmaChErrAddr a
  let d := (d.dmaEnds c 4).set F.dmaStatusHalted (d.get F.dmaStatusHalted ||| 2 ^ c)
  ((d.set F.dmaStatusHaltSeen 1).bump C.dmaHalt).event 0x030A

/-- The running channel. -/
def Dev.dmaRunning (d : Dev) : Option Nat := if d.flag F.dmaStatusBusy then some (d.get F.dmaStatusCurrent) else none

/-- The CRC of a copy goes behind its last row (R360). -/
def Dev.dmaCrc (d : Dev) (c : Nat) (bytes : List Byte) : Dev :=
  let dst := d.ch c F.dmaChDstSpace
  let at_ := d.ch c F.dmaChDstAddr + d.ch c F.dmaChYM1 * d.ch c F.dmaChDstStride + d.ch c F.dmaChXM1 + 1
  match d.dmaError true dst at_ 4 with
  | some (k, a) => d.dmaHalts c (true, dst, k, a)
  | none =>
    let crc := crc32c bytes
    (((d.dmaWrite dst at_ (leBytes 4 crc)).dmaDone c 4).setCh c F.dmaChCrc crc).dmaEnds c 3

/-- The running channel copies to its end, or to the bus error that halts it. -/
def Dev.dmaRun (d : Dev) : Dev :=
  match d.dmaRunning with
  | none => d
  | some c =>
    let x := copyBursts (d.ch c F.dmaChSrcSpace) (d.ch c F.dmaChDstSpace) (d.burstsOf c) ⟨d, [], none⟩
    let d := x.dev.dmaDone c x.bytes.length
    match x.err with
    | some e => d.dmaHalts c e
    | none => if d.ch c F.dmaChCrcEn = 1 then d.dmaCrc c x.bytes else d.dmaEnds c 3

/-! ## The engine (R361, R362) -/

/-- DMA_GO (R361): an idle, done or stopped channel becomes ready. -/
def Dev.dmaGo (d : Dev) (c : Nat) : Dev :=
  let st := d.ch c F.dmaChState
  if 8 ≤ c || (st != 0 && st != 3 && st != 5) then d
  else
    let d := ((d.setCh c F.dmaChBytesDone 0).setCh c F.dmaChErrKind 0).setCh c F.dmaChErrDir 0
    ((d.setCh c F.dmaChErrSpace 0).setCh c F.dmaChErrAddr 0).setCh c F.dmaChState 1

/-- DMA_STOP (R361): a ready channel stops at once, a running one after the burst in progress, the `bursts`th. -/
def Dev.dmaStop (d : Dev) (c bursts : Nat) : Dev :=
  if 8 ≤ c then d
  else if d.ch c F.dmaChState = 1 then d.setCh c F.dmaChState 5
  else if d.dmaRunning == some c then
    let x := copyBursts (d.ch c F.dmaChSrcSpace) (d.ch c F.dmaChDstSpace) ((d.burstsOf c).take bursts) ⟨d, [], none⟩
    let d := x.dev.dmaDone c x.bytes.length
    match x.err with
    | some e => d.dmaHalts c e
    | none => d.dmaEnds c 5
  else d

/-- DMA_CLEAR (R362): a halted or stopped channel becomes idle. -/
def Dev.dmaClear (d : Dev) (c : Nat) : Dev :=
  let st := d.ch c F.dmaChState
  if 8 ≤ c || (st != 4 && st != 5) then d
  else (d.setCh c F.dmaChState 0).set F.dmaStatusHalted (d.get F.dmaStatusHalted &&& (255 - 2 ^ c))

/-- DMA_CHANNEL_START (R361): the next ready channel in ascending order after the one that ran last. -/
def Dev.dmaStart (d : Dev) : Dev :=
  if d.flag F.dmaStatusBusy || d.glb.dev == .standby then d
  else
    let last := d.get F.dmaStatusCurrent
    match ((List.range 8).map fun i => (last + 1 + i) % 8).find? fun c => d.ch c F.dmaChState == 1 with
    | none => d
    | some c => ((d.setCh c F.dmaChState 2).set F.dmaStatusBusy 1).set F.dmaStatusCurrent c

/-- DMA_HALTED (R362): the running channel copies up to the bus error that it meets. -/
def Dev.dmaHaltedRow (d : Dev) : Dev :=
  match d.dmaRunning with
  | none => d
  | some c => if (d.dmaRun).ch c F.dmaChState == 4 then d.dmaRun else d

def execDdrRefresh (double : Bool) (s : State) : Host.Outcome State Fault Refusal := s.doing fun d => d.ddrRefresh double
def execDdrZqCalibration (s : State) : Host.Outcome State Fault Refusal := s.doing Dev.ddrZq
def execDdrRetrain (subchannel : Nat) (s : State) : Host.Outcome State Fault Refusal := s.doing fun d => d.ddrRetrain subchannel
def execPatrolScrub (corrected : List Nat) (uncorrectable : List Nat) (passDone : Bool) (s : State) :
    Host.Outcome State Fault Refusal := s.doing fun d => d.patrolScrub corrected uncorrectable passDone
def execDmaGo (channel : Nat) (s : State) : Host.Outcome State Fault Refusal := s.doing fun d => d.dmaGo channel
def execDmaStop (channel bursts : Nat) (s : State) : Host.Outcome State Fault Refusal := s.doing fun d => d.dmaStop channel bursts
def execDmaClear (channel : Nat) (s : State) : Host.Outcome State Fault Refusal := s.doing fun d => d.dmaClear channel
def execDmaChannelStart (s : State) : Host.Outcome State Fault Refusal := s.doing Dev.dmaStart
def execDmaChannelDone (s : State) : Host.Outcome State Fault Refusal := s.doing Dev.dmaRun
def execDmaHalted (s : State) : Host.Outcome State Fault Refusal := s.doing Dev.dmaHaltedRow

end Sys2Proof.Machine
end

