-- ==== Sys2Proof/Machine/FifoFault.lean ====
section
/-!
DEFINITION. FIFO_POINTER_MISMATCH (R355, R356): a FIFO of the family resets, and what follows for its unit.
-/
namespace Sys2Proof.Machine

/-- A write-encode FIFO loses its content (R178): the rest of the slot being written is tail pad and its data set fails with
REASON 7; the one that is marked gets a gap in its slot and is placed again after it, its header values unchanged, and every
FIFO rewinds to its mark. -/
def Dev.writeFifoFault (d : Dev) : Dev :=
  match d.plc.session with
  | none => d
  | some s =>
    let rev := wrapReverse s.place.wrap
    let now := (d.tpos / 76800).toNat
    let open_ := d.flag F.posStatusWriteGate
    let spoil := fun (k : Copy) => if k.step == .written && k.slot == now && open_ then { k with underrun := true } else k
    let mine := fun (x : DSet) => if x.member = d.self then { x with copies := x.copies.map spoil } else x
    let hit := d.plc.dsets.any fun (x : DSet) => x.member == d.self && x.copies.any fun k => k.step == .written && k.slot == now
    let d := d.modPlc fun p => { p with dsets := p.dsets.map mine }
    let d := if open_ && hit then d.emit (.tailPad now d.tpos) else d
    let marked := d.plc.dsets.find? fun x => x.member == d.self && match x.last? with
      | some k => k.step == .marked && d.startArmed k.slot
      | none => false
    match marked with
    | none => d
    | some x =>
      let g := ((x.last?).map Copy.slot).getD 0
      d.unmark.shift 64 x.id (slotAfter rev g 1)

/-- A read-to-decoder FIFO loses its content (R356): the codewords of its channel still to be decoded in the slot read last
are reported as not converged. -/
def Dev.readFifoFault (d : Dev) (n : Nat) : Dev :=
  match (d.ecc.decodes.filter fun x => x.c2Bad.isNone && x.headers.any fun h => h.1 == n).getLast? with
  | none => d
  | some x =>
    let open_ := (List.range 8).filter fun c => !(x.reports.any fun r => r.channel == n && r.codeword == c)
    let lost := open_.map fun c => (⟨n, c, false, 0, 0, 0⟩ : C1Report)
    (d.modDecode x.handle fun x => { x with reports := x.reports ++ lost }).bumpBy C.eccC1Fail lost.length

/-- A crossing of snapshots loses its content (R356, R531): the bank in flight is marked INVALID. -/
def Dev.snapshotFault (d : Dev) : Dev :=
  let mark := fun (x : Shot) => { x with header := modAt (fun w => w ||| 0x200000) x.header 0 }
  { d with cnt := { d.cnt with banks := modAt (fun b => b.map mark) d.cnt.banks 0 } }

/-- A pointer mismatch in the FIFO with an ID. The frames of a host receive FIFO, a register access in flight and the samples
of a loop slot stand in no FIFO of the model: an ID of these leaves the record of the fault alone. -/
def Dev.fifoFault (d : Dev) (id : Nat) : Dev :=
  if 0x280 ≤ id then d
  else
    let d := (((d.set F.fifStatusFaultSeen 1).set F.fifStatusLastId id).bump C.fifFault).putFifo id Fifo.zero
    if 0x200 ≤ id ∧ id < 0x240 then d.txFault (id - 0x200)
    else
      let d := d.event 0x0309
      if id < 0x100 then d.writeFifoFault.settleFifos
      else if id < 0x200 then d.readFifoFault (id - 0x100)
      else if 0x250 ≤ id ∧ id < 0x258 then
        let p := (id - 0x250) / 4
        if (d.casPort p).up then d.rewindPort p else d
      else if 0x270 ≤ id then d.snapshotFault else d

def execFifoPointerMismatch (id : Nat) (s : State) : Host.Outcome State Fault Refusal := s.doing fun d => (d.fifoFault id).hostSettle

end Sys2Proof.Machine
end

