-- ==== Sys2Proof/Machine/Start.lean ====
section
/-!
DEFINITION. Start-up (chapter 15): reset and its release, attempts, slots and retries (R469 to R476), the NOR through its
registers (R476, R500), standby and wake (R484 to R486), and the resets that power makes (R26, R469, R561).
-/
namespace Sys2Proof.Machine

/-! ## Roles of balls (R553, R554) -/

/-- The role that a ball's configuration gives it: roles 5 and 7 only on GPIO[15:12], reserved ones as 0. -/
def Dev.ballRole (d : Dev) (i : Nat) : Nat :=
  let r := d.get (F.pinGpioCfgRole.ix i)
  if 8 ≤ r then 0 else if (r = 5 ∨ r = 7) ∧ i < 12 then 0 else r

/-- The ball that serves a role from 2 to 7: the lowest-numbered of those that hold it (R554). -/
def Dev.roleBall (d : Dev) (role : Nat) : Option Nat := (List.range 16).find? fun i => d.ballRole i == role

/-- Whether an input role that a ball serves is active at the filtered levels. -/
def Dev.roleActive (d : Dev) (role : Nat) : Bool :=
  match d.roleBall role with
  | some i => bitAt (d.get F.pinGpioInIn) i != d.flag (F.pinGpioCfgPol.ix i)
  | none => false

/-- The interlock roles that a ball serves and that are inactive (R555): bit 0 door, bit 1 loader. -/
def Dev.openInterlocks (d : Dev) : Nat :=
  let off := fun r => (d.roleBall r).isSome && !d.roleActive r
  b2n (off 3) + 2 * b2n (off 4)

/-! ## The NOR through its registers (R476, R500) -/

/-- The words of GLB.NOR_BUF take a page. -/
def Dev.loadNorBuf (d : Dev) (page : List Byte) : Dev :=
  (List.range 64).foldl (fun d i => d.set (F.glbNorBufData.ix i) (fieldAt page (4 * i) 4)) d

/-- The page that GLB.NOR_BUF holds. -/
def Dev.norBufPage (d : Dev) : List Byte := (List.range 64).flatMap fun i => leBytes 4 (d.get (F.glbNorBufData.ix i))

/-- The end of an operation: DONE, and ERR if it failed. -/
def Dev.norEnds (d : Dev) (failed : Bool) : Dev :=
  (({ d with glb := { d.glb with norOp := none } }).set F.glbNorCtrlDone 1).set F.glbNorCtrlErr (b2n failed)

/-- Whether an address lies in the running slot. -/
def Dev.touchesRunning (d : Dev) (addr : Nat) : Bool :=
  let b := slotBase (d.flag F.glbBootSlot)
  d.flag F.glbBootRunning && decide (b ≤ addr ∧ addr < b + 0x1000000)

/-- GO with an operation: in recovery and maintenance only, one at a time. The first erase or program of a recovery wait holds
the retry timer (R476); one that touches the running slot, or an address that is no multiple of the operation's unit, ends
with ERR 1 at once. -/
def Dev.norGo (d : Dev) (op addr : Nat) (page : List Byte) : Dev :=
  if (d.glb.dev != .recovery && d.glb.dev != .maintenance) || d.glb.norOp.isSome then d
  else
    let d := (d.set F.glbNorCtrlOp op).set F.glbNorCtrlAddr addr
    let writes := op == 1 || op == 2
    let d := if writes && d.glb.dev == .recovery then
        ({ d with glb := { d.glb with retryHeld := true } }).set F.glbBootRetryHeld 1
      else d
    if addr % (if op = 2 then 65536 else 256) != 0 || (writes && d.touchesRunning addr) then d.norEnds true
    else ({ d with glb := { d.glb with norOp := some ⟨op, addr, page⟩ } }).emit (.nor op addr)

/-- NOR_OPERATION_DONE: the page read stands in GLB.NOR_BUF, or the flash holds what was programmed or erased. An operation
that failed leaves what it was writing unstated. -/
def Dev.norDone (d : Dev) (failed : Bool) : Dev :=
  match d.glb.norOp with
  | none => d
  | some ⟨op, addr, page⟩ =>
    if failed then d.tearNor.norEnds true
    else if op = 1 then (d.putNor addr ((d.norBytes addr 256).zipWith (fun a b => a &&& b) d.norBufPage)).norEnds false
    else if op = 2 then (d.putNor addr (List.replicate 65536 0xFF)).norEnds false
    else if op = 3 then (d.loadNorBuf (fitTo 256 page)).norEnds false
    else (d.loadNorBuf (d.norBytes addr 256)).norEnds false

/-- An operation in progress completes before an attempt starts (R476). -/
def Dev.settleNor (d : Dev) : Dev := d.norDone false

/-! ## Attempts (R471 to R474) -/

/-- The registers of the NOR interface, which an attempt does not reset (R472). -/
def norKept : List Nat := F.glbNorCtrlOp.addr :: (List.range 64).map fun i => F.glbNorBufData.addr + i

/-- Registers that outlast a slot's failure and the entry into recovery: those of the boot ROM, of the NOR interface, and TIME
(R90, R472, R475, R498). -/
def bootKept : List Nat := [F.secStatusAmend.addr, F.secFlagsNewest.addr, F.calStatusSeq.addr, F.calStoredBootCount.addr,
  F.posTimeTime.addr] ++ norKept

/-- FAIL_A or FAIL_B. -/
def failField (b : Bool) : Fld := if b then F.glbBootFailB else F.glbBootFailA

/-- Whether MEM.CFG names an organisation of R333, and its capacity in GiB. -/
def Dev.capacity (d : Dev) : Option Nat :=
  let n := d.get F.memCfgDensity
  let up := d.get F.memCfgRanks + d.get F.memCfgWidth
  if n = 3 ∨ (n = 2 ∧ up = 2) then none else some (16 * 2 ^ (n + up))

/-- P4 granules of the spill table, one for 512 contexts of OPEN_MAX, and of the log, eight (R218, R326, R471 step 6). -/
def Dev.takeTables (d : Dev) : Dev :=
  let n := (d.get F.plcCfgOpenMax + 511) / 512
  let d := (List.range n).foldl (fun (d : Dev) _ => match d.allocate 4 ownDma ownDma with
    | (some h, d) => { d with strm := { d.strm with table := d.strm.table ++ [h] } }
    | (none, d) => d) { d with strm := { d.strm with table := [] } }
  (List.range 8).foldl (fun (d : Dev) _ => (d.allocate 4 ownDma ownDma).2) d

/-- How a slot comes out from step 4 to step 7: it runs, its image fails with a code of R498, or the attempt fails. -/
inductive SlotRun where
  | runs
  | imageFails (code : Nat)
  | attemptFails
  deriving DecidableEq, Repr

/-- Steps 4 to 7 of R471 for a slot. The organisation is checked before training, the pools after it (R334, R340, R472). -/
def Dev.tryImage (d : Dev) (b : Bool) (env : StartEnv) : SlotRun × Dev :=
  let d := d.set (failField b) 0
  let c := d.slotFail b (if b then env.headerOk.2 else env.headerOk.1)
  if c != 0 then (.imageFails c, d)
  else
    let d := d.applyConfig b
    match d.capacity with
    | none => (.imageFails 6, d)
    | some gib =>
      let d := d.set F.memStatusSizeGib gib
      if !env.ddrTrains.1 then (.attemptFails, d)
      else
        let d := d.set F.memStatusCh0Ready 1
        if !env.ddrTrains.2 then (.attemptFails, d)
        else
          let d := d.set F.memStatusCh1Ready 1
          if gib * 2 ^ 30 < d.poolsEnd then (.imageFails 6, d)
          else if d.firmwareOk b then (.runs, d.layPools.takeTables) else (.imageFails 8, d.layPools)

/-- A failed attempt (R472, R474): recovery, and the wait before the next. -/
def Dev.failAttempt (d : Dev) (k : Nat) : Dev :=
  ((d.resetUnits bootKept).goState .recovery).set F.glbBootBackoffS (min (2 ^ min (k - 1) 6) 60)

/-- Steps 8 to 10 of R471. -/
def Dev.finishStart (d : Dev) (b : Bool) (env : StartEnv) (k : Nat) : Dev :=
  let d := d.loadStartValues.sendServoGain
  let lost := !calSetOk d.calSet
  let d := if lost then ((d.set F.calStatusLost 1).fault F.glbFaultCalLost).event 0x0310 else d
  if !env.recordOk then d.failAttempt k
  else
    let fallback := b != d.prefSlot
    let d := (((d.set F.glbBootSlot (b2n b)).set F.glbBootFallback (b2n fallback)).set F.glbBootRunning 1).set F.glbImageVersion
      (fieldAt (d.slotHeader b) 8 4)
    let d := (d.recordBoot).goState .idle
    let d := { d with glb := { d.glb with interlock := d.openInterlocks } }
    let d := d.judgeStraps
    let d := if fallback then d.event 0x0311 else d
    if d.flag F.secFlagsSaturated then d.event 0x0312 else d

/-- One slot and, after an image failure, the other (R472). -/
def Dev.runSlots (d : Dev) (env : StartEnv) (k : Nat) (first : Bool) : Dev :=
  match d.tryImage first env with
  | (.runs, d) => d.finishStart first env k
  | (.attemptFails, d) => d.failAttempt k
  | (.imageFails c, d) =>
    let d := (d.set (failField first) c).resetUnits bootKept
    match d.tryImage (!first) env with
    | (.runs, d) => d.finishStart (!first) env k
    | (.attemptFails, d) => d.failAttempt k
    | (.imageFails c, d) => (d.set (failField (!first)) c).failAttempt k

/-- Attempt `k` of R471, beginning with a slot, once the units are in reset. In a factory test mode no image is applied and
start-up is not left (R550). The PLLs lock before the boot counter is touched. -/
def Dev.attempt (d : Dev) (env : StartEnv) (cause k : Nat) (first : Bool) : Dev :=
  let d := { d with glb := { d.glb with firstSlotB := first, retryHeld := false } }
  let d := (((d.set F.glbBootAttempt (min k 255)).set F.glbBootBackoffS 0).set F.glbBootRetryHeld 0).set F.glbBootStartCause cause
  let d := (((d.set F.glbBootNorMode 0).set F.glbBootFallback 0).set F.glbBootRunning 0).set F.glbBootPref (b2n d.prefSlot)
  if d.glb.straps.testMode != 0 then d
  else if !env.pllLocks then d.failAttempt k
  else
    let d := d.countBoot.syncCal
    if !env.norAnswer || !env.erase64k then d.failAttempt k
    else (d.set F.glbBootNorMode (if env.xspi then 2 else 1)).runSlots env k first

/-- Attempt 1, with the preferred slot (R474). -/
def Dev.firstAttempt (d : Dev) (env : StartEnv) (cause : Nat) : Dev := (d.attempt env cause 1 d.prefSlot).hostSettle

/-- A device restart (R522): connections are reset and start-up begins anew. -/
def Dev.deviceRestart (d : Dev) (env : StartEnv) : Dev :=
  (((d.settleNor).resetAllConns.resetUnits []).enterStartUp).firstAttempt env 4

/-- The next attempt from recovery, which begins with the other slot (R474). -/
def Dev.retry (d : Dev) (env : StartEnv) (k : Nat) : Dev :=
  let d := d.settleNor
  (((d.resetUnits norKept).goState .startUp).attempt env 5 k (!d.glb.firstSlotB)).hostSettle

/-- RETRY_TIMER (R474, R476): the wait ends, unless it is held. -/
def Dev.retryTimer (d : Dev) (env : StartEnv) : Dev :=
  if d.glb.dev == .recovery && !d.glb.retryHeld then d.retry env (d.get F.glbBootAttempt + 1) else d

/-- RETRY_NOW (R476, R499): in recovery only. -/
def Dev.retryNow (d : Dev) (env : StartEnv) : Dev := if d.glb.dev == .recovery then d.retry env 1 else d

/-- RETRY_HOLD_TIMEOUT (R476): the hold ends and the wait runs again from its start. -/
def Dev.retryHoldEnds (d : Dev) : Dev :=
  if d.glb.dev == .recovery && d.glb.retryHeld then
    ({ d with glb := { d.glb with retryHeld := false } }).set F.glbBootRetryHeld 0
  else d

/-- SET_PREF (R499): taken in recovery and maintenance. -/
def Dev.setPrefNow (d : Dev) (b : Bool) : Dev :=
  if d.glb.dev == .recovery || d.glb.dev == .maintenance then d.setPref b else d

/-! ## PORST_N, VAON and brown-out (R26, R469, R561) -/

/-- Codes of the JTAG instructions other than BYPASS (R570). -/
def jtagCodes : List Nat := [0x00, 0x01, 0x02, 0x04, 0x05, 0x08, 0x09]

/-- Codes of the JTAG instructions that drive balls. -/
def jtagDriving : List Nat := [0x00, 0x04, 0x05, 0x08, 0x09]

/-- Every unit and the always-on domain as after power-on; FeRAM, NOR and the levels at the balls are outside them. `d` says
what the balls show. -/
def Dev.fullReset (d : Dev) : Dev :=
  let r : Dev := { Dev.reset with
    nor := d.nor, feram := d.feram, freeIx := d.freeIx, out := d.out, pin := { Pin.reset with
      jtag := d.pin.jtag, jtagDrives := jtagDriving.contains d.pin.jtag.toNat } }
  let r := (r.set F.pinGpioInIn (d.get F.pinGpioInIn)).set F.casStatusFcIn (d.get F.casStatusFcIn)
  if d.glb.railEn then r else r.emit (.pin "RAIL_EN" 1)

/-- PORST_ASSERT (R26, R469): as a loss of power to all but FeRAM; a NOR operation is cut short. -/
def Dev.porstAssert (d : Dev) : Dev := d.tearNor.fullReset

/-- PORST_RELEASE (R469, R471): the straps are sampled and attempt 1 begins; JTAG lets go of the balls (R570). -/
def Dev.porstRelease (d : Dev) (straps : Straps) (env : StartEnv) : Dev :=
  if d.glb.porstLow then
    let d := { d with glb := { d.glb with porstLow := false, straps := straps }, pin := { d.pin with jtagDrives := false } }
    if d.inReset then d else d.firstAttempt env 0
  else d

/-- VAON_RISE (R26, R469, R553): power-on with PORST_N low; RAIL_EN is active. The power that went cut a NOR operation short. -/
def Dev.vaonRise (d : Dev) : Dev :=
  let d := d.tearNor
  ({ Dev.reset with nor := d.nor, feram := d.feram, freeIx := d.freeIx, out := d.out }).emit (.pin "RAIL_EN" 1)

/-- A reset of every unit but the always-on domain (R533, R561), with the sideband among them. -/
def Dev.unitReset (d : Dev) : Dev := ((d.resetUnits []).dropSideband).enterStartUp

/-- BROWN_OUT (R561): outside standby. -/
def Dev.brownOut (d : Dev) : Dev :=
  if d.glb.dev == .standby || d.glb.porstLow || d.glb.brownOut then d
  else { (d.unitReset) with glb := { (d.unitReset).glb with brownOut := true } }

/-- BROWN_OUT_RELEASE (R561): start-up as after the release of PORST_N. -/
def Dev.brownOutEnds (d : Dev) (env : StartEnv) : Dev :=
  if d.glb.brownOut then
    let d := { d with glb := { d.glb with brownOut := false } }
    if d.inReset then d else d.firstAttempt env 0
  else d

/-! ## Standby (R484 to R486) -/

/-- STANDBY_REQUEST (R484): a write of REQ 1, accepted in idle. -/
def Dev.standbyRequest (d : Dev) : Dev := if d.glb.dev == .idle then d.enterStandby else d

/-- STANDBY_REQ (R484): the role's request is held while it stays active, and acts in idle. -/
def Dev.standbyRole (d : Dev) (active : Bool) : Dev :=
  if (d.roleBall 6).isNone || d.glb.dev == .standby || d.inReset then d
  else ({ d with glb := { d.glb with standbyHeld := active } }).settleStandby

/-- A wake event (R486): RAIL_EN goes active; the cause is recorded. -/
def Dev.wake (d : Dev) (enabled : Bool) (cause : Nat) : Dev :=
  if enabled && d.glb.dev == .standby && !d.glb.waking then
    (({ d with glb := { d.glb with railEn := true, waking := true } }).emit (.pin "RAIL_EN" 1)).set F.glbBootStartCause cause
  else d

/-- WAKE_N (R486), held by a ball of GPIO[15:12]. -/
def Dev.wakeN (d : Dev) : Dev := d.wake (d.glb.wake.wakePin && (d.roleBall 5).isSome) 1

/-- WAKE_CARTRIDGE (R486), on GPIO[15:12] (R553). -/
def Dev.wakeCartridge (d : Dev) : Dev := d.wake (d.glb.wake.wakeCart && (d.roleBall 2).any fun i => decide (12 ≤ i)) 2

/-- WAKE_TIMER (R486): WAKE_S other than 0. -/
def Dev.wakeTimer (d : Dev) : Dev := d.wake (d.glb.wake.wakeS != 0) 3

/-- RAIL_WAIT_END (R486): attempt 1, RAIL_MS after RAIL_EN; the state leaves standby. -/
def Dev.railWaitEnds (d : Dev) (env : StartEnv) : Dev :=
  if d.glb.dev == .standby && d.glb.waking then
    let d := { d with glb := { d.glb with waking := false } }
    ((d.resetUnits []).goState .startUp).firstAttempt env (d.get F.glbBootStartCause)
  else d

/-! ## Meanings -/

def execPorstAssert (s : State) : Host.Outcome State Fault Refusal := s.doing Dev.porstAssert
def execPorstRelease (straps : Straps) (env : StartEnv) (s : State) : Host.Outcome State Fault Refusal :=
  s.doing fun d => d.porstRelease straps env
def execRetryTimer (env : StartEnv) (s : State) : Host.Outcome State Fault Refusal := s.doing fun d => d.retryTimer env
def execRetryNow (env : StartEnv) (s : State) : Host.Outcome State Fault Refusal := s.doing fun d => d.retryNow env
def execRetryHoldTimeout (s : State) : Host.Outcome State Fault Refusal := s.doing Dev.retryHoldEnds
def execSetPref (slotB : Bool) (s : State) : Host.Outcome State Fault Refusal := s.doing fun d => d.setPrefNow slotB
def execNorReadPage (addr : BitVec 32) (s : State) : Host.Outcome State Fault Refusal := s.doing fun d => d.norGo 0 addr.toNat []
def execNorProgramPage (addr : BitVec 32) (s : State) : Host.Outcome State Fault Refusal :=
  s.doing fun d => d.norGo 1 addr.toNat []
def execNorEraseBlock (addr : BitVec 32) (s : State) : Host.Outcome State Fault Refusal :=
  s.doing fun d => d.norGo 2 addr.toNat []
def execNorReadSfdp (addr : BitVec 32) (page : List Byte) (s : State) : Host.Outcome State Fault Refusal :=
  s.doing fun d => d.norGo 3 addr.toNat page
def execNorOperationDone (failed : Bool) (s : State) : Host.Outcome State Fault Refusal := s.doing fun d => d.norDone failed
def execStandbyRequest (s : State) : Host.Outcome State Fault Refusal := s.doing Dev.standbyRequest
def execStandbyReq (active : Bool) (s : State) : Host.Outcome State Fault Refusal := s.doing fun d => d.standbyRole active
def execWakeN (s : State) : Host.Outcome State Fault Refusal := s.doing Dev.wakeN
def execWakeCartridge (s : State) : Host.Outcome State Fault Refusal := s.doing Dev.wakeCartridge
def execWakeTimer (s : State) : Host.Outcome State Fault Refusal := s.doing Dev.wakeTimer
def execRailWaitEnd (env : StartEnv) (s : State) : Host.Outcome State Fault Refusal := s.doing fun d => d.railWaitEnds env
def execBrownOut (s : State) : Host.Outcome State Fault Refusal := s.doing Dev.brownOut
def execBrownOutRelease (env : StartEnv) (s : State) : Host.Outcome State Fault Refusal := s.doing fun d => d.brownOutEnds env
def execVaonRise (s : State) : Host.Outcome State Fault Refusal := s.doing Dev.vaonRise

end Sys2Proof.Machine
end

