-- ==== Sys2Proof/Machine/Power.lean ====
section
/-!
DEFINITION. Telemetry that acts (R533, R534, R559): junction temperature, rails and HFM temperatures, and the interlocks of R555.
-/
namespace Sys2Proof.Machine

/-- Log a device event, in the states in which there is a log (R471 step 6). -/
def Dev.eventIfUp (d : Dev) (code : Nat) : Dev := if d.glb.dev.hostUp then d.event code else d

/-! ## Temperature (R533) -/

/-- The highest reading and its sensor, the lowest-numbered of equals. -/
def hottest (sensors : List Int) : Option (Int × Nat) :=
  sensors.zipIdx.foldl (fun (acc : Option (Int × Nat)) x => match acc with
    | some y => if y.1 < x.1 then some x else some y
    | none => some x) none

/-- TJ_WARN is reached or has been left by 5 °C. -/
def Dev.warm (d : Dev) (tj : Int) : Dev :=
  let warn : Int := d.get F.glbThermalTjWarn * 4
  if warn ≤ tj then
    let d := d.set F.glbThermalWarnSeen 1
    if d.glb.warnArmed then ({ d with glb := { d.glb with warnArmed := false } }).eventIfUp 0x0314 else d
  else if tj ≤ warn - 20 then { d with glb := { d.glb with warnArmed := true } }
  else d

/-- TJ_CRIT is reached: each entry is counted and stops writing, the tape and appending. -/
def Dev.hot (d : Dev) (tj : Int) : Dev :=
  let crit := decide (d.get F.glbThermalTjCrit * 4 ≤ tj)
  let was := d.glb.wasCrit
  let d := { d with glb := { d.glb with wasCrit := crit } }
  if !crit then d
  else
    let d := (d.set F.glbThermalCritSeen 1).fault F.glbFaultThermal
    if was then d
    else
      let d := (d.bump C.cntThermal).eventIfUp 0x0315
      if d.glb.dev.hostUp then ((d.endAtBoundary).stopNow 0x0315).giveTarget .stop else d

/-- 125 °C: the Brake of R431, then every unit but the always-on domain is reset and held. -/
def Dev.tripped (d : Dev) : Dev :=
  let d := (if d.glb.dev.hostUp then d.brake else d).unitReset.set F.glbThermalTripSeen 1
  { d with glb := { d.glb with thermalHold := true } }

/-- THERMAL_SAMPLE: eight sensors, in 0.25 °C. The reset of a trip ends below 95 °C with attempt 1. -/
def Dev.thermal (d : Dev) (sensors : List Int) (env : StartEnv) : Dev :=
  match hottest sensors with
  | none => d
  | some (tj, n) =>
    if d.glb.dev == .standby || d.glb.porstLow || d.glb.brownOut then d
    else
      let d := (d.set F.glbThermalTjNow (unsigned 12 tj)).set F.glbThermalHotSensor n
      if d.glb.thermalHold then
        if tj < 380 then ({ d with glb := { d.glb with thermalHold := false } }).firstAttempt env 0 else d
      else if 500 ≤ tj then d.tripped
      else (d.warm tj).hot tj

/-! ## Rails (R534, R559) -/

/-- The operating range of each monitored rail in 0.1 mV: VCORE, VSRAM, VANA, VSER 0.90 V, VSER 1.20 V, VDDQ, VIO, VAON. -/
def railRange : List (Nat × Nat) :=
  [(7275, 7725), (7760, 8240), (8730, 9270), (8730, 9270), (11640, 12360), (10670, 11330), (17100, 18900), (17100, 18900)]

/-- One rail: its voltage and, once it has been out of its range for 1 ms, the fault. -/
def Dev.rail (d : Dev) (k mv : Nat) (out : Bool) : Dev :=
  let d := d.set (F.glbRailMv.ix k) mv
  let r := railRange.getD k (0, 0)
  let low := decide (mv * 10 < r.1)
  let high := decide (r.2 < mv * 10)
  if !out || !(low || high) then d
  else
    let d := (d.set (if low then F.glbRailLowSeen.ix k else F.glbRailHighSeen.ix k) 1).fault F.glbFaultRail
    if d.glb.dev.hostUp then (d.event 0x0316).stopEnding 0x0316 else d

/-- RAIL_SAMPLE. -/
def Dev.rails (d : Dev) (mv : List (BitVec 16)) (out : List Bool) : Dev :=
  if d.glb.dev == .standby || d.inReset then d
  else (mv.take 8).zipIdx.foldl (fun d x => d.rail x.2 x.1.toNat (out.getD x.2 false)) d

/-- TEMP of a module (R534): the frames that ask an enabled one go out; VALID shows whether its answer, which the operand gives,
was read. -/
def Dev.hfmTemp (d : Dev) (m : Nat) (temp : Option (BitVec 10)) : Dev :=
  if !d.moduleOn m then d.set (F.glbHfmTempValid.ix m) 0
  else
    let d := (d.hfmSend m (hfmWord true 0x03 0)).hfmNop m
    match temp with
    | some t => (d.set (F.glbHfmTempValid.ix m) 1).set (F.glbHfmTempTemp.ix m) t.toNat
    | none => d.set (F.glbHfmTempValid.ix m) 0

/-- HFM_TEMP_POLL (R534): every enabled module is asked, in loaded and streaming. -/
def Dev.hfmTemps (d : Dev) (temps : List (Nat × Option (BitVec 10))) : Dev :=
  if d.glb.dev != .loaded && d.glb.dev != .streaming then d
  else (List.range 8).foldl (fun d m => d.hfmTemp m ((temps.find? fun t => t.1 == m).bind Prod.snd)) d

/-! ## Interlocks (R555) -/

/-- A role becomes inactive while the tape moves: writing ends and the tape stops as in R388, and what it interrupts fails. -/
def Dev.interlockStop (d : Dev) : Dev :=
  let detail := leBytes 1 0xFF ++ leBytes 1 16
  if d.tce.reaction != 0 || d.tce.stopping || d.flag F.mdrStatusBrake then d.interrupt detail
  else
    let d := d.endAtBoundary.interrupt detail
    { d with tce := { d.tce with stopping := true, target := .stop, held := none, replanned := true } }

/-- INTERLOCK_CHANGE: of a role that a ball serves. When every held role is active again, appending may resume. -/
def Dev.interlock (d : Dev) (loader active : Bool) : Dev :=
  if (d.roleBall (if loader then 4 else 3)).isNone || d.glb.dev == .standby || d.inReset then d
  else
    let b := if loader then 2 else 1
    let was := d.glb.interlock
    let now := if active then was - (was &&& b) else was ||| b
    let d := { d with glb := { d.glb with interlock := now } }
    if now != 0 then if d.tce.v != 0 || d.tce.a != 0 || d.glb.dev == .streaming then d.interlockStop else d
    else if was != 0 then
      d.modPlc fun p => if p.hold && p.holdCause == 4 && p.session.isSome then { p with holdCause := 3 } else p
    else d

/-! ## Meanings -/

def execThermalSample (sensors : List Int) (env : StartEnv) (s : State) : Host.Outcome State Fault Refusal :=
  s.doing fun d => (d.thermal sensors env).hostSettle
def execRailSample (mv : List (BitVec 16)) (outFor1ms : List Bool) (s : State) : Host.Outcome State Fault Refusal :=
  s.doing fun d => (d.rails mv outFor1ms).hostSettle
def execHfmTempPoll (temps : List (Nat × Option (BitVec 10))) (s : State) : Host.Outcome State Fault Refusal :=
  s.doing fun d => d.hfmTemps temps
def execInterlockChange (loader active : Bool) (s : State) : Host.Outcome State Fault Refusal :=
  s.doing fun d => (d.interlock loader active).hostSettle

end Sys2Proof.Machine
end

