-- ==== Sys2Proof/Machine/RegView.lean ====
section
/-!
DEFINITION. Reading registers (R6 to R8): fields that show state held elsewhere, WO fields and reserved bits as 0, and what
a read of an RC field clears.
-/
namespace Sys2Proof.Machine

/-- Put values in fields of a word. -/
def putFields (w : Word) (fs : List (Fld × Nat)) : Word := fs.foldl (fun w f => f.1.into w f.2) w

/-! ## Fields that show state held elsewhere -/

/-- GLB.STATE (R26). -/
def Dev.stateView (d : Dev) : List (Fld × Nat) :=
  [(F.glbStateStateChanges, d.glb.changes), (F.glbStateMaintHeld, b2n d.glb.maintConn.isSome),
   (F.glbStateMaintConn, d.glb.maintConn.getD 0), (F.glbStatePrevState, d.glb.prev.code), (F.glbStateState, d.glb.dev.code)]

/-- Requests queued for the cobbler (R518). -/
def Dev.mgmtQueue (d : Dev) : Nat :=
  min 16 (d.cqm.cmds.filter fun c => c.phase == .accepted && (c.opcode == opReadLog || c.opcode == opResume)).length

/-- The open group of the C3 accumulator: its number and how many data data sets are folded (R153, R166). -/
def Dev.accView (d : Dev) : Option (Nat × Nat) :=
  d.ecc.accOpen

/-- The highest ladder step in progress (R162, R166): that of the group at steps 4 to 6, or of the data set that holds the pin. One
that waits for its step is not in progress. -/
def Dev.ladderNow (d : Dev) : Nat :=
  let group := d.ecc.decodes.filter fun x => x.failing && d.ecc.held == some (x.wrap, x.group) && decide (3 ≤ x.step)
  let pinned := d.ecc.decodes.filter fun x => x.failing && d.ecc.pin == some x.slot && decide (x.step < 2)
  ((group ++ pinned).map fun x => min 6 (x.step + 1)).foldl max 0

/-- ECC.STATUS (R166). -/
def Dev.eccView (d : Dev) : List (Fld × Nat) :=
  let acc := d.accView
  [(F.eccStatusAccOpen, b2n acc.isSome), (F.eccStatusAccGroup, (acc.map Prod.fst).getD 0),
   (F.eccStatusAccFolded, (acc.map Prod.snd).getD 0), (F.eccStatusLadderBusy, b2n (d.ladderNow != 0)),
   (F.eccStatusLadderStep, d.ladderNow)]

/-- VFY.DEAD of a module (R185). -/
def Dev.deadView (d : Dev) (m : Nat) : Nat :=
  (d.deadTracks.filter fun n => n / 32 == m).foldl (fun v n => v + 2 ^ (n % 32)) 0

/-- ENG_BUSY of CMP.STATUS (R211). -/
def Dev.busyView (d : Dev) : List (Fld × Nat) :=
  [(F.cmpStatusEngBusy, (List.range 16).foldl (fun v e => if (d.engine e).job == .none then v else v + 2 ^ e) 0)]

/-- CMP.ENGINE of engine `e` (R212): its mode is that of its job, else the device's. -/
def Dev.engineView (d : Dev) (e : Nat) : List (Fld × Nat) :=
  let g := d.engine e
  let mode := match g.job with | .code _ => false | .decode .. => true | .none => d.readMode
  let stream := match g.bound, g.reading with
    | some k, _ => k.1
    | none, some k => ((d.strm.reads.find? fun r => r.h == k.1).map Read.stream).getD 0
    | none, none => 0
  [(F.cmpEngineMode.ix e, b2n mode), (F.cmpEngineBound.ix e, b2n (g.bound.isSome || g.reading.isSome)), (F.cmpEngineStream.ix e, stream),
   (F.cmpEngineChainPos.ix e, g.pos)]

/-- PLC.STATUS (R254). -/
def Dev.plcView (d : Dev) : List (Fld × Nat) :=
  [(F.plcStatusUnmerged, min 15 d.unmerged), (F.plcStatusHold, b2n d.plc.hold), (F.plcStatusSession, b2n d.plc.session.isSome),
   (F.plcStatusScan, b2n d.plc.scanning), (F.plcStatusOpen, d.openStreams), (F.plcStatusCtxUsed, d.onDieCtxs)]

/-- HPT.CONN states (R296). -/
def CState.code : CState → Nat
  | .synRcvd => 1 | .established => 2 | .closeWait => 3 | .lastAck => 4

/-- HPT.CONN of a device ID (R296). -/
def Dev.connView (d : Dev) (c : Nat) : List (Fld × Nat) :=
  match d.conn? c with
  | none => []
  | some k =>
    let sent := k.tx.filter fun x => decide (0 < x.sends)
    let at_ := fun (f : Fld) => f.ix c
    [(at_ F.hptConnState, k.st.code), (at_ F.hptConnPort, k.port), (at_ F.hptConnHostConn, k.hostId),
     (at_ F.hptConnPeerCredit, (k.peerEdge - k.nextSeq).toNat % 65536), (at_ F.hptConnInFlight, sent.length)]

/-- Commands of a queue that a freeze holds (R322). -/
def Dev.heldIn (d : Dev) (q : Nat) : Nat := (d.cqm.cmds.filter fun c => c.queue == q && c.held).length

/-- CQM.STATUS (R330). -/
def Dev.cqmView (d : Dev) : List (Fld × Nat) :=
  [(F.cqmStatusOutstanding, (d.cqm.cmds.filter Cmd.outstanding).length),
   (F.cqmStatusFrozen, min 255 (d.cqm.queues.filter Queue.frozen).length),
   (F.cqmStatusOrphans, min 255 (d.cqm.queues.filter fun q => q.conn.isNone).length), (F.cqmStatusReads, d.readsOut)]

/-- CQM.CONN of a device ID (R330). -/
def Dev.cqmConnView (d : Dev) (c : Nat) : List (Fld × Nat) :=
  match d.conn? c with
  | none => []
  | some k =>
    let at_ := fun (f : Fld) => f.ix c
    [(at_ F.cqmConnFrozen, b2n (d.frozen k.queue)), (at_ F.cqmConnHeld, d.heldIn k.queue), (at_ F.cqmConnCreditCut, k.creditCut),
     (at_ F.cqmConnOutstanding, (d.cqm.cmds.filter fun x => x.queue == k.queue && x.outstanding).length)]

/-- BPM.POOL_STATUS (R364). -/
def Dev.poolView (d : Dev) (p : Nat) : List (Fld × Nat) :=
  match d.pool? p with
  | none => []
  | some q => [(F.bpmPoolStatusLevel.ix p, q.level), (F.bpmPoolStatusPeak.ix p, q.peak), (F.bpmPoolStatusInUse.ix p, q.inUse)]

/-- The target of the profile generator as a speed in 0.05 m/s, and MODE (R399). An interlock stop is no reaction (R555): it
shows as a target speed of 0. -/
def Dev.pgMode (d : Dev) : Int × Nat :=
  let base : Int × Nat := match d.tce.target with
    | .stop => (0, if d.tce.v = 0 ∧ d.tce.a = 0 then 0 else 1)
    | .speed v => (v, 1)
    | .place _ v _ => (v, 2)
  if d.tce.reaction = 1 then (0, 3) else if d.tce.reaction = 2 then (base.1, 4) else base

/-- TCE.PG_STATE (R399). -/
def Dev.pgView (d : Dev) : List (Fld × Nat) :=
  let (t, mode) := d.pgMode
  [(F.tcePgStateVCmd, unsigned 16 (d.tce.v / 1000000000)), (F.tcePgStateACmd, unsigned 16 (d.tce.a / 1000)),
   (F.tcePgStateVTgt, t.natAbs), (F.tcePgStateDirTgt, b2n (decide (t < 0))), (F.tcePgStateWriteOk, b2n d.writeOk),
   (F.tcePgStateWriteLim, b2n d.writeLimits), (F.tcePgStateMode, mode)]

/-- FLAGS_ANY: the slots with any sticky flag (R398). -/
def Dev.flagsAny (d : Dev) : Nat :=
  (List.range 8).foldl (fun v s => if d.get (F.tceSlotFlags.ix (64 * s)) = 0 then v else v + 2 ^ s) 0

/-- Word 2 of TCE.TRACE (R403). -/
def Dev.traceView (d : Dev) (b : Nat) : List (Fld × Nat) :=
  let t := d.trace b
  [(F.tceTraceState.ix (4 * b), t.state), (F.tceTraceRecords.ix (4 * b), t.recs.length),
   (F.tceTraceTrigRec.ix (4 * b), t.trigIndex.getD 0xFFF)]

/-- CAS.STATUS (R465). -/
def Dev.casView (d : Dev) : List (Fld × Nat) :=
  [(F.casStatusPresent, d.presentNow), (F.casStatusId, d.glb.straps.id.toNat), (F.casStatusRole, b2n d.glb.straps.role),
   (F.casStatusPort0Up, b2n (d.casPort 0).up), (F.casStatusPort1Up, b2n (d.casPort 1).up), (F.casStatusWidth, d.widthNow)]

/-- CAS.MEMBER (R466): values only on the master. -/
def Dev.memberView (d : Dev) (j : Nat) : List (Fld × Nat) :=
  if d.isMaster then
    [(F.casMemberState.ix j, d.memberState j),
     (F.casMemberLat.ix j, ((d.cas.members.find? fun m => m.id == j).map CMember.lat).getD 0)]
  else []

/-- The readout that CNT.SNAP_SEL selects: the newest with SNAP_ID (R531). -/
def Dev.selectedShot (d : Dev) : Option Shot :=
  let id := d.get F.cntSnapSelSnapId
  d.cnt.readouts.find? fun r => (r.header.headD 0).toNat % 65536 == id

/-- Word `i` of CNT.SNAP_WIN (R531): eight header words, then the counters by shadow number. -/
def Dev.snapWord (d : Dev) (i : Nat) : Word :=
  match d.selectedShot with
  | none => 0
  | some r => if i < 8 then r.header.getD i 0 else ((r.counts.find? fun c => c.1 == i - 8).map Prod.snd).getD 0

/-- PIN.STATUS (R578): the straps as sampled. -/
def Dev.strapView (d : Dev) : List (Fld × Nat) :=
  [(F.pinStatusTestMode, d.glb.straps.testMode.toNat), (F.pinStatusSbMode, b2n d.glb.straps.sbMode),
   (F.pinStatusCascRole, b2n d.glb.straps.role), (F.pinStatusCascId, d.glb.straps.id.toNat)]

/-- The fields at an address that show state held elsewhere. -/
def Dev.views (d : Dev) (a : Nat) : List (Fld × Nat) :=
  if a = 0x000000 then [(F.glbIdentTempGrade, Config.tempGrade.toNat)]
  else if a = 0x000001 then d.stateView
  else if a = 0x000012 then [(F.glbCobblerMgmtQueue, d.mgmtQueue)]
  else if a = 0x010001 then [(F.posTposTpos, unsigned 48 d.tposNow)]
  else if a = 0x040003 then d.eccView
  else if a = 0x050001 then
    [(F.vfyStatusPending, min 15 d.plc.pendingCopies.length), (F.vfyStatusDeadCount, min 255 d.deadTracks.length)]
  else if 0x050010 ≤ a ∧ a < 0x050018 then [(F.vfyDeadDead.ix (a - 0x050010), d.deadView (a - 0x050010))]
  else if a = 0x060001 then d.busyView
  else if 0x060010 ≤ a ∧ a < 0x060020 then d.engineView (a - 0x060010)
  else if a = 0x070002 then d.plcView
  else if a = 0x070005 then if d.cart.loaded then [(F.plcCapacityRemainDs, d.remainDs)] else []
  else if 0x080100 ≤ a ∧ a < 0x080140 then d.connView (a - 0x080100)
  else if a = 0x090002 then d.cqmView
  else if a = 0x090003 then [(F.cqmLogLastSeq, d.cqm.logSeq.toNat)]
  else if 0x090100 ≤ a ∧ a < 0x090140 then d.cqmConnView (a - 0x090100)
  else if 0x0A0008 ≤ a ∧ a < 0x0A000D then d.poolView (a - 0x0A0008)
  else if a = 0x0E0000 then [(F.tceStatusFlagsAny, d.flagsAny)]
  else if a = 0x0E0003 then d.pgView
  else if 0x0E0040 ≤ a ∧ a < 0x0E0050 ∧ a % 4 = 2 then d.traceView ((a - 0x0E0040) / 4)
  else if a = 0x100001 then d.casView
  else if 0x100010 ≤ a ∧ a < 0x100020 then d.memberView (a - 0x100010)
  else if 0x110100 ≤ a ∧ a < 0x110156 then
    [(F.secWinData.ix (a - 0x110100), fieldAt (d.secWindow (d.get F.secWinSelSel)) (6 * (a - 0x110100)) 6)]
  else if a = 0x120000 then [(F.cntStatusBanks, d.cnt.banks.length), (F.cntStatusReadouts, d.cnt.readouts.length)]
  else if a = 0x120001 then [(F.cntSnapSelArmed, d.cnt.armed.length), (F.cntSnapSelFound, b2n d.selectedShot.isSome)]
  else if 0x124000 ≤ a ∧ a < 0x125688 then [(F.cntSnapWinData.ix (a - 0x124000), (d.snapWord (a - 0x124000)).toNat)]
  else if a = 0x130012 then d.strapView
  else []

/-! ## Reads -/

/-- The bits that a read shows: those of every field but WO ones. -/
def RegRow.shown (r : RegRow) : Word := r.fields.foldl (fun m f => if f.acc == .wo then m else m ||| f.mask) 0

/-- What a read of an address returns (R6 to R8). An address without a register reads 0. -/
def Dev.readReg (d : Dev) (a : Nat) : Word :=
  match rowOf a with
  | none => 0
  | some r => putFields (d.word a) (d.views a) &&& r.shown

/-- What a read clears (R8): the RC fields of its register. -/
def Dev.clearRead (d : Dev) (a : Nat) : Dev :=
  match rowOf a with
  | none => d
  | some r =>
    let rc := r.fields.filter fun f => f.acc == .rc
    if 0x0A0008 ≤ a ∧ a < 0x0A000D then
      match d.pool? (a - 0x0A0008) with
      | some q => { d with pools := setAt d.pools (a - 0x0A0008) { q with peak := 0 } }
      | none => d
    else rc.foldl (fun d f => d.set (f.at_ a) f.reset) d

end Sys2Proof.Machine
end

