-- ==== Sys2Proof/Machine/RegWrite.lean ====
section
/-!
DEFINITION. Writing registers: who may write what and when (R7 to R9, R475, R581), what a write does beside storing its
fields, ball functions (R556), and the rows of the register file and the GPIO.
-/
namespace Sys2Proof.Machine

/-! ## Access (R8, R358, R475, R581) -/

/-- The registers that the sideband reaches in recovery and start-up (R475). -/
def bootRegister (a : Nat) : Bool :=
  [0x000000, 0x000001, 0x000002, 0x000003, 0x000004, 0x000008, 0x140000].contains a || decide (0x000040 ≤ a ∧ a < 0x000080)

/-- Registers that only the cobbler reaches: DMA.STATUS, DMA.CH, BPM.FW_OP and BPM.FW_RESULT (R358). -/
def cobblerOnly (a : Nat) : Bool :=
  a == 0x0C0000 || decide (0x0C0010 ≤ a ∧ a < 0x0C0050) || a == 0x0A0020 || a == 0x0A0021

/-- Whether a read on a path is served. -/
def Dev.mayRead (d : Dev) (p : Path) (a : Nat) : Bool :=
  match p with
  | .cobbler => true
  | .rrt => !cobblerOnly a
  | .sideband => !cobblerOnly a && (d.glb.dev.hostUp || bootRegister a)

/-- Whether the access code of a field lets it be written now (R8). -/
def Dev.fieldOpen (d : Dev) (a : Nat) (f : FieldRow) : Bool :=
  match f.acc with
  | .ro | .rc | .cfg => false
  | .rw | .w1c | .wo => true
  | .mnt => d.glb.dev == .maintenance
  | .lop => !d.closed ((a - 0x0E0100) / 64)

/-- Whether the path and the state let a register be written at all (R475, R581). -/
def Dev.registerOpen (d : Dev) (p : Path) (a : Nat) : Bool :=
  let boot := a == 0x000004 || a == 0x000008 || decide (0x000040 ≤ a ∧ a < 0x000080)
  let byPath := match p with
    | .cobbler => true
    | .rrt => !cobblerOnly a
    | .sideband => !cobblerOnly a && (d.glb.dev.hostUp || (d.glb.dev == .recovery && bootRegister a))
  byPath && (!boot || d.glb.dev == .recovery || d.glb.dev == .maintenance)
    && (!decide (0x100010 ≤ a ∧ a < 0x100020) || d.isMaster)

/-- Whether a write sets a one-bit field to 1. -/
def writesOne (f : Fld) (value mask : Word) : Bool := f.of (value &&& mask) == 1

/-- Channel and word of a DMA.CH register. -/
def dmaPlace (a : Nat) : Option (Nat × Nat) :=
  if 0x0C0010 ≤ a ∧ a < 0x0C0050 then some ((a - 0x0C0010) / 8, (a - 0x0C0010) % 8) else none

/-- Values that a register's own rule refuses: KICK from outside (R536), REQ outside idle (R484), the words of a ready or running
DMA channel and GO where the channel may not go (R361), RCH.TARGET (R117). -/
def Dev.valueOk (d : Dev) (p : Path) (a : Nat) (value mask : Word) : Bool :=
  if a = 0x000012 then p == .cobbler || F.glbCobblerKick.of mask == 0
  else if a = 0x000005 then !writesOne F.glbStandbyReq value mask || d.glb.dev == .idle
  else if a = 0x030001 then targetOk ((d.word a &&& ~~~mask) ||| (value &&& mask))
  else match dmaPlace a with
    | none => true
    | some (c, w) =>
      let st := d.ch c F.dmaChState
      if w < 4 then st != 1 && st != 2
      else if w = 4 && writesOne F.dmaChGo value mask then
        st != 1 && st != 2 && (st != 4 || writesOne F.dmaChClear value mask)
      else true

/-- Whether a write is accepted (R9): it lies in a register, every addressed bit lies in a field that may be written now or in
no field, and no rule refuses it. -/
def Dev.mayWrite (d : Dev) (p : Path) (a : Nat) (value mask : Word) : Bool :=
  match rowOf a with
  | none => false
  | some r => d.registerOpen p a && (r.fields.all fun f => !f.addressed mask || d.fieldOpen a f) && d.valueOk p a value mask

/-! ## Ball functions (R553, R556) -/

/-- The level that an output role drives: the level in bit 0 of an output on ball `i`. -/
def Dev.driveBall (d : Dev) (i : Nat) : Dev :=
  let pol := d.flag (F.pinGpioCfgPol.ix i)
  if d.ballRole i = 1 then d.emit (.pin "GPIO" (2 * i + b2n (d.flag (F.pinGpioCfgOut.ix i) != pol)))
  else if d.ballRole i = 7 && d.roleBall 7 == some i then d.emit (.pin "GPIO" (2 * i + b2n (d.glb.railEn != pol)))
  else d

/-- A ball goes high-impedance: its bit of PIN.STATUS is 1, and the level last sampled stands (R556). A new change within the
window starts it again. -/
def Dev.openWindow (d : Dev) (i : Nat) : Dev :=
  let hiz := d.get F.pinStatusHiz
  if bitAt hiz i then d
  else
    let level := bitAt (d.get F.pinGpioInIn) i
    let raw := if level then d.pin.raw ||| BitVec.ofNat 16 (2 ^ i) else d.pin.raw &&& ~~~BitVec.ofNat 16 (2 ^ i)
    ({ d with pin := { d.pin with raw := raw } }).set F.pinStatusHiz (hiz ||| 2 ^ i)

/-- A filtered level at a ball: IN and CHANGED, unless a window hides it (R553, R556, R577). -/
def Dev.ballLevel (d : Dev) (i : Nat) (level : Bool) : Dev :=
  let bit := 2 ^ i
  if bitAt (d.get F.pinStatusHiz) i then
    let raw := if level then d.pin.raw ||| BitVec.ofNat 16 bit else d.pin.raw &&& ~~~BitVec.ofNat 16 bit
    { d with pin := { d.pin with raw := raw } }
  else
    let now := d.get F.pinGpioInIn
    if bitAt now i == level then d
    else (d.set F.pinGpioInIn (now ^^^ bit)).set F.pinGpioInChanged (d.get F.pinGpioInChanged ||| bit)

/-- GPIO_INPUT_CHANGE: in every state; while PORST_N is low and in standby only the level is noted. -/
def Dev.gpioLevel (d : Dev) (i : Nat) (level : Bool) : Dev :=
  if 16 ≤ i then d
  else if d.inReset || d.glb.dev == .standby then
    let now := d.get F.pinGpioInIn
    if bitAt now i == level then d else d.set F.pinGpioInIn (now ^^^ 2 ^ i)
  else d.ballLevel i level

/-- What a write of PIN.GPIO_CFG does beside storing (R556): a change of ROLE, POL or OD opens the ball's window; another one
applies at once. -/
def Dev.ballWritten (d : Dev) (i : Nat) (was : Word) : Dev :=
  let now := d.word (F.pinGpioCfgRole.addr + i)
  let same := fun (f : Fld) => f.of was == f.of now
  if same F.pinGpioCfgRole && same F.pinGpioCfgPol && same F.pinGpioCfgOd then
    if bitAt (d.get F.pinStatusHiz) i || same F.pinGpioCfgOut then d else d.driveBall i
  else d.openWindow i

/-- PIN_WINDOW_END (R556): the new function drives or samples the ball; ball 16 stands for the trace balls. The interlocks are
those of the roles now in force (R555). -/
def Dev.windowEnds (d : Dev) (i : Nat) : Dev :=
  if i = 16 then d.set F.pinStatusTrcHiz 0
  else if 16 < i || !bitAt (d.get F.pinStatusHiz) i then d
  else
    let d := d.set F.pinStatusHiz (d.get F.pinStatusHiz ^^^ 2 ^ i)
    let d := (d.ballLevel i (d.pin.raw.getLsbD i)).driveBall i
    { d with glb := { d.glb with interlock := d.openInterlocks } }

/-! ## Writes -/

/-- BPM.FW_OP (R365): one operation. -/
def Dev.fwOp (d : Dev) (w : Word) : Dev :=
  let h := F.bpmFwOpHandle.of w
  let o := F.bpmFwOpOwner.of w
  match F.bpmFwOpOp.of w with
  | 0 => d.fwQuery h
  | 1 => d.fwAllocate o h
  | 2 => d.fwShare o h
  | _ => d.fwRelease o h

/-- DMA.CH word 4 (R361, R362): CLEAR, then GO, and STOP. How many bursts a running channel has made by then is open (log 40). -/
def Dev.dmaControl (d : Dev) (c : Nat) (value mask : Word) : Dev :=
  let d := if writesOne F.dmaChClear value mask then d.dmaClear c else d
  let d := if writesOne F.dmaChGo value mask then d.dmaGo c else d
  if writesOne F.dmaChStop value mask then
    let (w, e) := d.fresh
    if d.ch c F.dmaChState = 1 then d.dmaStop c 0 else e.dmaStop c (w.toNat % (d.ch c F.dmaChYM1 + 2))
  else d

/-- GLB.NOR_CTRL with GO (R500): `w` is the register as written. What an SFDP page holds is open (log 40). -/
def Dev.norControl (d : Dev) (w : Word) : Dev :=
  let op := F.glbNorCtrlOp.of w
  if op < 3 then d.norGo op (F.glbNorCtrlAddr.of w) []
  else
    let page := (List.range 256).map fun i => BitVec.ofNat 8 (Config.freeWord (d.freeIx + i)).toNat
    ({ d with freeIx := d.freeIx + 256 }).norGo op (F.glbNorCtrlAddr.of w) page

/-- WCH.HFM_TX with GO (R137): one frame goes out, and what the module answers is open (log 40). -/
def Dev.hfmWritten (d : Dev) : Dev :=
  let (r, d) := d.fresh
  d.hfmTalk (d.get F.wchHfmTxModule)
    (hfmWord (d.flag F.wchHfmTxRd) (d.get F.wchHfmTxAddr) (d.get F.wchHfmTxData)) (BitVec.ofNat 40 r.toNat)

/-- GLB.BOOT_CTRL: SET_PREF, and RETRY_NOW (R499), of which what the attempt meets is open (log 40). -/
def Dev.bootControl (d : Dev) (value mask : Word) : Dev :=
  let d := if writesOne F.glbBootCtrlSetPref value mask then d.setPrefNow (writesOne F.glbBootCtrlPrefVal value mask) else d
  let (w, e) := d.fresh
  let b := fun (i : Nat) => w.getLsbD i
  if writesOne F.glbBootCtrlRetryNow value mask then e.retryNow ⟨b 0, b 1, b 2, b 3, (b 4, b 5), (b 6, b 7), b 8⟩ else d

/-- What an accepted write does beside storing the fields: `was` is the register before it. What an operation then meets outside is
open here; the rows HFM_FRAME_SEND, RETRY_NOW, NOR_READ_SFDP and DMA_STOP are the same writes with what they meet (log 40). -/
def Dev.writeActs (d : Dev) (a : Nat) (value mask was : Word) : Dev :=
  if a = 0x000004 then d.bootControl value mask
  else if a = 0x020040 then if writesOne F.wchHfmTxGo value mask then d.hfmWritten else d
  else if a = 0x000005 then if writesOne F.glbStandbyReq value mask then d.standbyRequest else d
  else if a = 0x000008 then if writesOne F.glbNorCtrlGo value mask then d.norControl (d.word a) else d
  else if a = 0x0A0020 then d.fwOp (value &&& mask)
  else if 0x0E0040 ≤ a ∧ a < 0x0E0050 ∧ a % 4 = 0 then
    if writesOne (F.tceTraceArm.ix (a - 0x0E0040)) value mask then d.traceArm (.register ((a - 0x0E0040) / 4)) else d
  else if 0x100010 ≤ a ∧ a < 0x100020 then
    if writesOne F.casMemberLeave value mask then d.memberLeave (a - 0x100010) else d
  else if 0x130000 ≤ a ∧ a < 0x130010 then d.ballWritten (a - 0x130000) was
  else if a = 0x130011 then
    if F.pinTraceEn.of was == d.get F.pinTraceEn then d else d.set F.pinStatusTrcHiz 1
  else match dmaPlace a with
    | some (c, 4) => d.dmaControl c value mask
    | _ => d

/-- A masked write (R6, R9): it is refused whole, with no change, or takes effect whole. -/
def Dev.writeReg (d : Dev) (p : Path) (a : Nat) (value mask : Word) : Option Dev :=
  if !d.mayWrite p a value mask then none
  else if a = 0x0E0001 then d.loopCtrl value mask
  else some ((d.store a value mask).writeActs a value mask (d.word a))

/-- A read (R6, R8, R10): its value, with RC fields cleared; none where it is refused. -/
def Dev.readOn (d : Dev) (p : Path) (a : Nat) : Option (Word × Dev) :=
  if d.mayRead p a then some (d.readReg a, d.clearRead a) else none

/-- Whether a path reaches the register file now: management messages and the cobbler need the running image, the sideband
every state but standby (R519), and nothing is reached in reset. -/
def Dev.pathUp (d : Dev) (p : Path) : Bool :=
  !d.inReset && match p with
    | .rrt | .cobbler => d.glb.dev.hostUp
    | .sideband => d.glb.dev != .standby

/-- REGISTER_WRITE. -/
def Dev.registerWrite (d : Dev) (p : Path) (a : Nat) (value mask : Word) : Dev :=
  if d.pathUp p then (d.writeReg p a value mask).getD d else d

/-- RC_FIELD_READ: the value is returned and its RC fields are cleared. -/
def Dev.rcRead (d : Dev) (p : Path) (a : Nat) : Dev :=
  if d.pathUp p then ((d.readOn p a).map fun x => x.2.emit (.regRead p a x.1)).getD d else d

/-- PIN_FUNCTION_CHANGE: a write of PIN.GPIO_CFG of a ball, or of PIN.TRACE for ball 16. -/
def Dev.pinChange (d : Dev) (i : Nat) (value mask : Word) : Dev :=
  if 16 < i then d else d.registerWrite .rrt (if i = 16 then 0x130011 else 0x130000 + i) value mask

/-! ## Meanings -/

def execRegisterWrite (path : Path) (addr : BitVec 24) (value mask : Word) (s : State) : Host.Outcome State Fault Refusal :=
  s.doing fun d => (d.registerWrite path addr.toNat value mask).hostSettle
def execRcFieldRead (path : Path) (addr : BitVec 24) (s : State) : Host.Outcome State Fault Refusal :=
  s.doing fun d => d.rcRead path addr.toNat
def execGpioInputChange (ball : Nat) (level : Bool) (s : State) : Host.Outcome State Fault Refusal :=
  s.doing fun d => d.gpioLevel ball level
def execPinFunctionChange (ball : Nat) (value mask : Word) (s : State) : Host.Outcome State Fault Refusal :=
  s.doing fun d => d.pinChange ball value mask
def execPinWindowEnd (ball : Nat) (s : State) : Host.Outcome State Fault Refusal := s.doing fun d => d.windowEnds ball
/-- COBBLER_KICK (R520): the write of KICK restarts the watchdog period, whose end is the row WATCHDOG_EXPIRY (log 7). -/
def execCobblerKick (s : State) : Host.Outcome State Fault Refusal := s.doing fun d => d.registerWrite .cobbler 0x000012 1 1

end Sys2Proof.Machine
end

