-- ==== Sys2Proof/Machine/Maint.lean ====
section
/-!
DEFINITION. MAINT_RESTART (R523, R524), the watchdog and the restart of the cobbler (R520 to R522, R536).
-/
namespace Sys2Proof.Machine

/-- The end of maintenance (R523, R524): OP 0. `inMaint` says whether the device was in maintenance before the command. -/
def Dev.maintEnds (d : Dev) (h : Nat) : Dev :=
  d.maint h opRestart 0 fun c =>
    let back := d.glb.beforeMaint
    (d.endMaint).finish h stGood (leBytes 1 back.code) (!c.inMaint)

/-- Steps 1 to 3 of R520 begin: the core and its local memory are reset; every unit runs on and every register stays. -/
def Dev.restartCobbler (d : Dev) : Dev := ({ d with cobMem := [] }).set F.glbCobblerRestarting 1

/-- OP 1 of R523: the cobbler restarts; the command waits for the end of it. -/
def Dev.maintRestart (d : Dev) (h : Nat) : Dev :=
  d.maint h opRestart 1 fun c =>
    (d.modCmd c.h fun c => { c with phase := .started }).restartCobbler

/-- The firmware runs again (R520): the log entries of freezes are written (R17), and each OP 1 that waited completes. -/
def Dev.cobblerRuns (d : Dev) : Dev :=
  if d.flag F.glbCobblerRestarting then
    let d := d.set F.glbCobblerRestarting 0
    let d := d.cqm.owed.foldl (fun (d : Dev) e => d.log e) { d with cqm := { d.cqm with owed := [] } }
    (d.cqm.cmds.filter fun c => c.opcode == opRestart && c.phase == .started).foldl (fun d c => d.finish c.h stGood []) d
  else d

/-- Send every segment of a connection that may be sent now. -/
def Dev.sendAll (d : Dev) (c : Nat) : Dev :=
  let d := d.fillTx c
  match d.conn? c with
  | some k => d.resend c (k.tx.length - k.rp)
  | none => d

/-- OP 2 of R523: with CONFIRM 0xA5 the STATUS is sent, and the device restarts (R522). -/
def Dev.maintDevice (d : Dev) (h : Nat) (env : StartEnv) : Dev :=
  d.maint h opRestart 2 fun c =>
    if c.par 17 1 != 0xA5 then d.finish h stParam []
    else
      let conn := (d.queue? c.queue).bind Queue.conn
      let d := d.finish h stGood []
      (match conn with | some k => d.sendAll k | none => d).deviceRestart env

/-- WATCHDOG_EXPIRY (R520, R522, R536): the restart is counted, shown as a fault and logged; with both copies of the firmware
bad, or at the fourth within 60 s, the device restarts instead. -/
def Dev.watchdog (d : Dev) (ddrOk slotOk : Bool) (env : StartEnv) : Dev :=
  if !d.glb.dev.hostUp || d.inReset || d.flag F.glbCobblerRestarting then d
  else
    let d := d.set F.glbCobblerRestarts (min (d.get F.glbCobblerRestarts + 1) 0xFFFF)
    let d := ((d.bump C.cntWdog).fault F.glbFaultCobbler).event 0x0313
    let times := d.time :: d.glb.wdogTimes.filter fun t => decide (d.since t < 60 * 1000000000)
    let d := { d with glb := { d.glb with wdogTimes := times } }
    if 4 ≤ times.length ∨ (ddrOk = false ∧ slotOk = false) then d.deviceRestart env else d.restartCobbler

/-! ## Meanings -/

def execMaintEnd (h : Nat) (s : State) : Host.Outcome State Fault Refusal := s.doing fun d => (d.maintEnds h).hostSettle
def execCobblerRestartCmd (h : Nat) (s : State) : Host.Outcome State Fault Refusal :=
  s.doing fun d => (d.maintRestart h).hostSettle
def execDeviceRestartCmd (h : Nat) (env : StartEnv) (s : State) : Host.Outcome State Fault Refusal :=
  s.doing fun d => (d.maintDevice h env).hostSettle
def execCobblerRestartDone (s : State) : Host.Outcome State Fault Refusal := s.doing fun d => d.cobblerRuns.hostSettle
def execWatchdogExpiry (ddrOk slotOk : Bool) (env : StartEnv) (s : State) : Host.Outcome State Fault Refusal :=
  s.doing fun d => (d.watchdog ddrOk slotOk env).hostSettle

end Sys2Proof.Machine
end

