-- ==== Sys2Proof/Machine/Ports.lean ====
section
/-!
DEFINITION. Port events (chapter 09): neighbour discovery and MLD (R263), echo, priority flow control (R261), links
(R291) and dropped frames (R259, R264, R266).
-/
namespace Sys2Proof.Machine

/-- The all-nodes group. -/
def allNodes : IPv6 := BitVec.ofNat 128 (0xFF02 * 2 ^ 112 + 1)

/-- Where MLDv2 reports go (RFC 3810). -/
def mldRouters : IPv6 := BitVec.ofNat 128 (0xFF02 * 2 ^ 112 + 0x16)

/-- Whether a port is one of the device's ports (R256, R258). -/
def Dev.portExists (d : Dev) (p : Nat) : Bool :=
  decide (p < 4) && bitAt (d.get F.hptPortCfgPortEn) p && (d.get F.hptPortCfgMode != 2 || p == 0)

/-- A port's addresses: link-local, then the global one when configured (R262). -/
def Dev.addresses (d : Dev) (p : Nat) : List IPv6 :=
  d.linkLocal p :: (if d.flag (F.hptIpAddrEn.ix (4 * p)) then [d.globalIp p] else [])

/-- The addresses in use: neither under Duplicate Address Detection nor found duplicate (R263). -/
def Dev.addressesInUse (d : Dev) (p : Nat) : List IPv6 :=
  let q := d.port p
  (if q.dadLocal || q.dupLocal then [] else [d.linkLocal p])
    ++ (if q.dadGlobal || q.dupGlobal || !d.flag (F.hptIpAddrEn.ix (4 * p)) then [] else [d.globalIp p])

/-- The groups that a port joins (R263). -/
def Dev.groups (d : Dev) (p : Nat) : List IPv6 := allNodes :: (d.addresses p).map solicitedNode

/-- MLDv2 report for the groups of a port (R263). -/
def Dev.mldReport (d : Dev) (p : Nat) : Dev := d.emit (d.icmpTo p 143 (d.linkLocal p) mldRouters (d.macOf p mldRouters) ((d.groups p).flatMap ipBytes))

/-- A Neighbor Solicitation for one of the device's addresses is answered with an advertisement (R263). -/
def Dev.nsReceived (d : Dev) (p : Nat) (target src : IPv6) (mac : Word) (hop : Byte) : Dev :=
  if d.glb.dev.hostUp && hop == 255 && (d.addressesInUse p).contains target
  then d.emit (if src = 0 then d.icmpTo p 136 target allNodes (groupMac allNodes) (ipBytes target)
    else d.icmpTo p 136 target src mac (ipBytes target)) else d

/-- A Neighbor Advertisement updates the cache of 128 entries, least recently used replaced first (R263). -/
def Dev.naReceived (d : Dev) (p : Nat) (target : IPv6) (mac : Word) (hop : Byte) : Dev :=
  if d.glb.dev.hostUp && hop == 255 then
    d.modPort p fun q => { q with neighbors := ((⟨target, mac⟩ : Neighbor) :: q.neighbors.filter fun n => n.ip != target).take 128 }
  else d

/-- An Echo Request of up to 1,280 bytes is answered (R263); one to another destination is dropped (R264). -/
def Dev.echoReceived (d : Dev) (p : Nat) (src dst : IPv6) (body : List Byte) : Dev :=
  if !d.glb.dev.hostUp then d
  else if !((d.addressesInUse p) ++ d.groups p).contains dst then d.bump C.hptDropFrame
  else if body.length ≤ 1280 then d.emit (d.icmpTo p 129 (if isLinkLocal dst || (d.addresses p).contains dst then dst else d.sourceIp p src) src (d.macOf p src) body) else d

/-- PORT_STATUS.PFC_PAUSED follows the paused priorities (R296). -/
def Dev.syncPaused (d : Dev) (p : Nat) : Dev := d.set (F.hptPortStatusPfcPaused.ix p) (b2n (!(d.port p).paused.isEmpty))

/-- A received PFC frame (R261): enabled priorities without a storm pause, or go on where the quanta are 0. -/
def Dev.pfcReceived (d : Dev) (p : Nat) (quanta : List (Nat × BitVec 16)) : Dev :=
  if !d.glb.dev.hostUp then d
  else
    let on := quanta.filter fun q => decide (q.1 < 8) && bitAt (d.get F.hptPfcCfgPfcEn) q.1 && !(d.port p).storms.contains q.1
    let d := on.foldl (fun d q => d.modPort p fun s => { s with
      paused := (s.paused.filter fun x => x != q.1) ++ (if q.2 = 0 then [] else [q.1]) }) d
    d.syncPaused p

/-- A PFC storm (R261). -/
def Dev.pfcStorm (d : Dev) (p prio : Nat) : Dev :=
  if (d.port p).paused.contains prio then
    let d := (d.modPort p fun s => { s with paused := s.paused.filter fun x => x != prio, storms := s.storms ++ [prio] }).syncPaused p
    (d.set (F.hptPortStatusPfcStormSeen.ix p) 1).event 0x0304
  else d

/-- The quanta of a priority run out (R261). -/
def Dev.pfcEnd (d : Dev) (p prio : Nat) : Dev :=
  (d.modPort p fun s => { s with paused := s.paused.filter fun x => x != prio }).syncPaused p

/-- The one mode that a port advertises in Clause 73 auto-negotiation, where AN_EN has it run (R256, R257); MODE 3 is applied as 0. -/
def Dev.advertised (d : Dev) : Option Nat :=
  if d.flag F.hptPortCfgAnEn then some (if d.get F.hptPortCfgMode = 3 then 0 else d.get F.hptPortCfgMode) else none

/-- A link comes up (R257, R261, R263, R296), after auto-negotiation and link training where AN_EN and LT_EN have them run (with neither, AN_DONE
stays 0: DESIGN CHOICE, log 48): storms are forgotten, Duplicate Address Detection runs and MLD reports go out. -/
def Dev.linkUp (d : Dev) (p : Nat) : Dev :=
  if d.glb.dev.hostUp && d.portExists p then
    let en := d.flag (F.hptIpAddrEn.ix (4 * p))
    let d := d.emit (.negotiate p d.advertised (d.flag F.hptPortCfgLtEn))
    let d := ((d.set (F.hptPortStatusLinkUp.ix p) 1).set (F.hptPortStatusAnDone.ix p) (b2n (d.advertised.isSome || d.flag F.hptPortCfgLtEn))).set (F.hptPortStatusAddrOk.ix p) 0
    let d := d.modPort p fun s => { s with storms := [], dupLocal := false, dupGlobal := false, dadLocal := true, dadGlobal := en }
    let d := (d.addresses p).foldl (fun d a => d.emit (d.icmpTo p 135 0 (solicitedNode a) (groupMac (solicitedNode a)) (ipBytes a))) d
    d.mldReport p
  else d

/-- A link goes down (R291): noted and logged; connections stay open. -/
def Dev.linkDown (d : Dev) (p : Nat) : Dev :=
  if d.flag (F.hptPortStatusLinkUp.ix p) then
    let d := ((d.set (F.hptPortStatusLinkUp.ix p) 0).set (F.hptPortStatusAnDone.ix p) 0).set (F.hptPortStatusAddrOk.ix p) 0
    (d.set (F.hptPortStatusLinkDownSeen.ix p) 1).event 0x0307
  else d

/-- The 1 s wait of Duplicate Address Detection ends (R263). -/
def Dev.dadEnd (d : Dev) (p : Nat) (global duplicate : Bool) : Dev :=
  let s := d.port p
  if (if global then s.dadGlobal else s.dadLocal) then
    let d := d.modPort p fun s =>
      if global then { s with dadGlobal := false, dupGlobal := duplicate } else { s with dadLocal := false, dupLocal := duplicate }
    if duplicate then (d.set (F.hptPortStatusDadFailSeen.ix p) 1).event 0x0305
    else if global then d.set (F.hptPortStatusAddrOk.ix p) 1 else d
  else d

/-- A dropped frame or packet (R259, R260, R262 to R264, R266, R291). A neighbour discovery message with another hop
limit and other ICMPv6 are dropped without a count. -/
def Dev.dropped (d : Dev) (p : Nat) (cause : DropCause) : Dev :=
  if !d.glb.dev.hostUp then d
  else match cause with
    | .fec => (d.bump C.hptFecUncorr).set (F.hptPortStatusFecUncorrSeen.ix p) 1
    | .hopLimit | .otherIcmp => d
    | .fcs | .tooLong | .notOurMac | .vlan | .version | .extension | .nextHeader | .notOurIp | .lengthMismatch
    | .udpPort | .checksum | .routerAdvert => d.bump C.hptDropFrame

def execNeighborSolicitation (port : Nat) (target src : IPv6) (mac : Word) (hopLimit : Byte) (s : State) :
    Host.Outcome State Fault Refusal := s.doing fun d => d.nsReceived port target src mac hopLimit
def execNeighborAdvertisement (port : Nat) (target : IPv6) (mac : Word) (hopLimit : Byte) (s : State) :
    Host.Outcome State Fault Refusal := s.doing fun d => d.naReceived port target mac hopLimit
def execMldQuery (port : Nat) (_src : IPv6) (s : State) : Host.Outcome State Fault Refusal :=
  s.doing fun d => if d.glb.dev.hostUp then d.mldReport port else d
def execEchoRequest (port : Nat) (src dst : IPv6) (body : List Byte) (s : State) : Host.Outcome State Fault Refusal :=
  s.doing fun d => d.echoReceived port src dst body
def execPfcFrame (port : Nat) (quanta : List (Nat × BitVec 16)) (s : State) : Host.Outcome State Fault Refusal :=
  s.doing fun d => d.pfcReceived port quanta
def execPauseFrame (_port : Nat) (s : State) : Host.Outcome State Fault Refusal :=
  s.doing fun d => if d.glb.dev.hostUp then d.bump C.hptDropFrame else d
def execPfcStorm (port prio : Nat) (s : State) : Host.Outcome State Fault Refusal := s.doing fun d => d.pfcStorm port prio
def execLinkUp (port : Nat) (s : State) : Host.Outcome State Fault Refusal := s.doing fun d => d.linkUp port
def execLinkDown (port : Nat) (s : State) : Host.Outcome State Fault Refusal := s.doing fun d => d.linkDown port
def execDadTimeout (port : Nat) (global duplicate : Bool) (s : State) : Host.Outcome State Fault Refusal :=
  s.doing fun d => d.dadEnd port global duplicate
def execPfcPauseEnd (port prio : Nat) (s : State) : Host.Outcome State Fault Refusal := s.doing fun d => d.pfcEnd port prio
def execReceivedFrameDropped (port : Nat) (cause : DropCause) (s : State) : Host.Outcome State Fault Refusal :=
  s.doing fun d => d.dropped port cause

end Sys2Proof.Machine
end

