-- ==== Sys2Proof/Machine/Sideband.lean ====
section
/-!
DEFINITION. The sideband (R519, R525, R526): its three commands with their status bytes, the I3C common commands; and the JTAG
port (R570).
-/
namespace Sys2Proof.Machine

/-- Status bytes of R526. -/
def sbOk : Nat := 0x00
def sbDenied : Nat := 0x01
def sbMalformed : Nat := 0x02
def sbReplaced : Nat := 0x03

/-- Whether the sideband takes a transaction: in SMBus mode one without a valid PEC is ignored and counted. -/
def Dev.sidebandTakes (d : Dev) (pecOk : Bool) (f : Dev → Dev) : Dev :=
  if !d.pathUp .sideband then d
  else if d.glb.straps.sbMode && !pecOk then d.bump C.cntSbErr
  else f d

/-- SIDEBAND_READ: the status byte and, on success, the six bytes of the value; what follows another status is not stated. -/
def Dev.sidebandRead (d : Dev) (a : Nat) (pecOk lengthOk : Bool) : Dev := d.sidebandTakes pecOk fun d =>
  if !lengthOk then (d.bump C.cntSbErr).emit (.sideband (leBytes 1 sbMalformed))
  else match d.readOn .sideband a with
    | some (w, d) => d.emit (.sideband (leBytes 1 sbOk ++ leBytes 6 w.toNat))
    | none => d.emit (.sideband (leBytes 1 sbDenied))

/-- The result of a write waits for the result command; one not read before the next write is lost. -/
def Dev.sidebandResultIs (d : Dev) (st : Nat) : Dev :=
  { d with pin := { d.pin with sbStatus := st, sbLost := d.pin.sbLost || d.pin.sbUnread, sbUnread := true } }

/-- SIDEBAND_WRITE. -/
def Dev.sidebandWrite (d : Dev) (a : Nat) (value mask : Word) (pecOk lengthOk : Bool) : Dev := d.sidebandTakes pecOk fun d =>
  if !lengthOk then (d.bump C.cntSbErr).sidebandResultIs sbMalformed
  else match d.writeReg .sideband a value mask with
    | some e => e.sidebandResultIs sbOk
    | none => d.sidebandResultIs sbDenied

/-- SIDEBAND_RESULT: the status of the last write, or that an earlier one was replaced unread. -/
def Dev.sidebandTell (d : Dev) (pecOk : Bool) : Dev := d.sidebandTakes pecOk fun d =>
  let st := if d.pin.sbLost then sbReplaced else d.pin.sbStatus
  ({ d with pin := { d.pin with sbUnread := false, sbLost := false } }).emit (.sideband (leBytes 1 st))

/-- What a GET command returns: bytes that the spec does not state (log 2). GETPID, GETBCR, GETDCR, GETSTATUS, GETMWL and
GETMRL, from 0 up. -/
def Dev.cccAnswer (d : Dev) (what : Nat) : Dev :=
  match [6, 1, 1, 2, 2, 2][what]? with
  | none => d
  | some n =>
    let bs := (List.range n).map fun i => BitVec.ofNat 8 (Config.freeWord (d.freeIx + i)).toNat
    ({ d with freeIx := d.freeIx + n }).emit (.sideband bs)

/-- I3C_COMMAND (R525): in I3C mode. Other codes are not supported and change nothing. -/
def Dev.i3c (d : Dev) (c : Ccc) : Dev :=
  if !d.pathUp .sideband || d.glb.straps.sbMode then d
  else match c with
    | .setdasa a | .entdaa a => { d with pin := { d.pin with dynAddr := some a } }
    | .rstdaa => { d with pin := { d.pin with dynAddr := none } }
    | .get what => d.cccAnswer what
    | .enec => { d with pin := { d.pin with ibiOn := true } }
    | .disec => { d with pin := { d.pin with ibiOn := false } }
    | .other => d

/-! ## JTAG (R570) -/

/-- The device identification code for B1. -/
def idcode : Nat := 0x2 * 2 ^ 28 + 0x4860 * 2 ^ 12 + Config.jep106.toNat * 2 + 1

/-- JTAG_INSTRUCTION: every code but those of R570 is BYPASS; those that drive balls act only while PORST_N is low. -/
def Dev.jtagLoad (d : Dev) (code : BitVec 6) : Dev :=
  let c := code.toNat
  let d := { d with pin := { d.pin with
    jtag := if jtagCodes.contains c then code else 0x3F, jtagDrives := jtagDriving.contains c && d.glb.porstLow } }
  if c = 1 then d.emit (.pin "IDCODE" idcode) else d

/-! ## Meanings -/

def execSidebandRead (addr : BitVec 24) (pecOk lengthOk : Bool) (s : State) : Host.Outcome State Fault Refusal :=
  s.doing fun d => d.sidebandRead addr.toNat pecOk lengthOk
def execSidebandWrite (addr : BitVec 24) (value mask : Word) (pecOk lengthOk : Bool) (s : State) :
    Host.Outcome State Fault Refusal := s.doing fun d => (d.sidebandWrite addr.toNat value mask pecOk lengthOk).hostSettle
def execSidebandResult (pecOk : Bool) (s : State) : Host.Outcome State Fault Refusal := s.doing fun d => d.sidebandTell pecOk
def execI3cCommand (ccc : Ccc) (s : State) : Host.Outcome State Fault Refusal := s.doing fun d => d.i3c ccc
def execJtagInstruction (code : BitVec 6) (s : State) : Host.Outcome State Fault Refusal := s.doing fun d => d.jtagLoad code

end Sys2Proof.Machine
end

