-- ==== Sys2Proof/Machine/Transport.lean ====
section
/-!
DEFINITION. Segments from hosts (chapter 09): connection set-up (R272 to R274, R278), checks (R269, R270), acknowledgement
(R279 to R283), placement and handover (R271, R287, R349) and management requests (R289, R290, R518).
-/
namespace Sys2Proof.Machine

/-! ## Segments of no connection (R273, R276) -/

/-- An RST outside any connection: it answers a segment, carries no connection of the device and no numbers. -/
def Dev.strayRst (d : Dev) (s : Seg) (epoch : BitVec 32) (reason : Nat) : Dev :=
  let r : Seg := ⟨s.port, s.src, s.sport, 1, 5, true, true, false, [], s.srcConn, 0xFFFF, epoch, 0, 0, 0, 2, 2, 0,
    d.tsVal, s.tsVal, leBytes 2 reason⟩
  let (w, d) := d.fresh
  d.sendCtrl r (w &&& 0xFFFFF)

/-- A segment that names no open connection (R276): unless an RST, one answer per host address and millisecond. -/
def Dev.unknownConn (d : Dev) (s : Seg) : Dev :=
  if s.typ == 5 || d.hpt.unknown.any fun x => x.1 == s.src && decide (d.since x.2 < 1000000) then d
  else
    let hpt := { d.hpt with unknown := (s.src, d.time) :: d.hpt.unknown.filter fun x => x.1 != s.src }
    ({ d with hpt := hpt }).strayRst s s.epoch rsnUnknownConn

/-! ## Set-up (R272 to R274, R278) -/

/-- The queue of a new connection: the orphan of its key, adopted or discarded, or a new one (R278, R293). -/
def Dev.queueFor (d : Dev) (c : Nat) (s : Seg) (epoch : Nat) : Nat × List Msg × Dev :=
  let hostId := s.srcConn.toNat
  let adopt := bitAt (fieldAt s.payload 2 1) 0
  let fits := fun (q : Queue) => adopt && decide (d.since q.orphanAt ≤ d.get F.hptTmrCfgOrphanS * 1000000000)
  match d.cqm.queues.find? fun q => q.orphanOf s.src hostId && fits q with
  | some q => (q.id, q.kept, d.modQueue q.id fun q => { q with conn := some c, epochs := epoch :: q.epochs, kept := [] })
  | none =>
    let d := (d.cqm.queues.filter fun q => q.orphanOf s.src hostId).foldl Dev.discardOrphan d
    let n := d.cqm.nextQ
    (n, [], { d with cqm := { d.cqm with
      queues := d.cqm.queues ++ [⟨n, s.src, hostId, [epoch], some c, false, [], 0⟩], nextQ := n + 1 } })

/-- How often a device ID has been set up since start-up. -/
def Dev.setupsOf (d : Dev) (c : Nat) : Nat := ((d.hpt.setups.find? fun x => x.1 == c).map Prod.snd).getD 0

/-- A connection in SYN_RCVD with a free device ID (R272, R275). The initial sequence number and the flow label are the
device's own (log 2). -/
def Dev.setUp (d : Dev) (c : Nat) (s : Seg) : Dev :=
  let n := (d.setupsOf c + 1) % 65536
  let epoch := d.glb.bootCount % 65536 * 65536 + n
  let (iss, d) := d.fresh
  let (flow, d) := d.fresh
  let (q, kept, d) := d.queueFor c s epoch
  let k : Conn := ⟨c, .synRcvd, s.port, s.src, s.sport.toNat, s.srcConn.toNat, epoch, flow &&& 0xFFFFF, q,
    fieldAt s.payload 0 2, iss, s.seq, s.seq + 1, s.seq + 1, [], none, [], 0, 0, iss, iss + 1,
    iss + 1 + BitVec.ofNat 48 s.credit.toNat, kept, 0, 0, [], 0⟩
  let t : Timers := ⟨c, none, 0, 1000000, 0, s.tsVal, 0, 1⟩
  let hpt : Hpt := { d.hpt with
    conns := d.hpt.conns ++ [k]
    timers := d.hpt.timers ++ [t]
    setups := (c, n) :: d.hpt.setups.filter fun x => x.1 != c }
  ({ d with hpt := hpt }).sendSynAck k

/-- A SYN for a new connection: the lowest free device ID, or CONNECTION_LIMIT (R273). -/
def Dev.openConn (d : Dev) (s : Seg) : Dev :=
  match (List.range 64).find? fun i => !d.hpt.conns.any fun k => k.id == i with
  | some c => d.setUp c s
  | none => (d.bump C.hptRefused).strayRst s 0 rsnConnectionLimit

/-- A SYN outside any connection (R272 to R274): one that repeats a connection's numbers is a retransmission; another one from
the same host ID means that the host restarted. A SYN without a set-up request is ignored. -/
def Dev.synArrives (d : Dev) (s : Seg) : Dev :=
  if s.ver != 1 || s.payLen.toNat != s.payload.length || decide (s.payload.length < 8) then d
  else match d.hpt.conns.find? fun k => k.host == s.src && k.hostId == s.srcConn.toNat with
    | some k =>
      if k.hostIsn == s.seq && (k.st == .synRcvd || k.st == .established) then d.sendSynAck k
      else (d.resetConn k.id rsnHostRestart).openConn s
    | none => d.openConn s

/-! ## Acknowledgements (R275, R279 to R283, R288) -/

/-- Free the first `n` descriptors of a transmit FIFO (R282): messages wholly acknowledged leave, HPT releases their buffers,
and a command whose STATUS is among them is no longer outstanding (R305). -/
def Dev.advanceMark (d : Dev) (c n : Nat) : Dev :=
  match d.conn? c with
  | none => d
  | some k =>
    let freed := k.tx.take n
    let whole := fun (m : Msg) => freed.any fun x => x.last && x.msg == m.id && x.typ == m.typ
    let gone := k.msgs.filter whole
    let d := d.modConn c fun k => { k with
      tx := k.tx.drop n, rp := k.rp - n, sndUna := k.sndUna + BitVec.ofNat 48 n
      msgs := k.msgs.filter fun m => !whole m, cutIx := k.cutIx - gone.length }
    let d := d.releaseAll (gone.flatMap Msg.bufs) ownHostTx
    let records := freed.filter fun x => x.typ == typDataIn && k.msgs.any fun m => m.id == x.msg && m.typ == x.typ && !m.payload.parts.isEmpty
    let n := (records.map fun x => x.len - (if x.first then 16 else 0)).sum
    let d := if n = 0 then d else { d with plc := { d.plc with taken := d.noteBytes d.plc.taken n } }
    let d := d.dropCmds fun x => gone.any fun m => m.status == some x.h
    if freed.any fun x => x.typ == 4 then d.closeConn c 0 else d

/-- The clock's distance in ns since a time that the host echoes (R288). -/
def Dev.rttOf (d : Dev) (s : Seg) : Nat := (d.tsVal - s.tsEcho).toNat

/-- Mark the sent segments that SACK blocks cover (R281, R283). -/
def markSacked (blocks : List (Word × Word)) (x : Desc) : Desc :=
  if decide (0 < x.sends) && blocks.any fun b => atOrBefore48 b.1 x.seq && before48 x.seq b.2 then { x with sacked := true } else x

/-- Whether the segment at a place of the FIFO is to be sent again at once (R283): at least 3 segments above it are covered,
and the last time lies a smoothed round trip back. -/
def Dev.fastDue (d : Dev) (k : Conn) (i : Nat) : Bool :=
  match k.tx[i]? with
  | none => false
  | some x =>
    let srtt := ((d.hpt.timers.find? fun t => t.id == k.id).bind Timers.srtt).getD 0
    let rested := match x.fastAt with | some t => decide (srtt ≤ d.since t) | none => true
    decide (0 < x.sends) && !x.sacked && decide (3 ≤ ((k.tx.drop (i + 1)).filter Desc.sacked).length) && rested
      && d.descOpen k x

/-- Fast retransmit of the segment at a place of the FIFO; the read pointer stays. -/
def Dev.fastSend (d : Dev) (c i : Nat) : Dev :=
  match d.conn? c with
  | none => d
  | some k =>
    if !d.fastDue k i then d
    else match k.tx[i]? with
      | none => d
      | some x =>
        match d.descPoison k x with
        | some a => d.txPoisoned k x a
        | none =>
          let now := d.time
          (d.sendDesc c i).modConn c fun k => { k with tx := modAt (fun y => { y with fastAt := some now }) k.tx i }

/-- The acknowledgement that a segment carries (R281): it comes first. In SYN_RCVD it opens the connection when it covers the
SYN_ACK. -/
def Dev.applyAck (d : Dev) (c : Nat) (s : Seg) : Dev :=
  match d.conn? c with
  | none => d
  | some k =>
    let n := (s.ack - k.sndUna).toNat
    if k.st == .synRcvd then
      if n = 1 then
        let e := s.ack + BitVec.ofNat 48 s.credit.toNat
        (d.modConn c fun k => { k with st := .established, sndUna := s.ack,
                                       peerEdge := if before48 k.peerEdge e then e else k.peerEdge }).rttSample c (d.rttOf s)
      else d
    else
      let sent := (k.tx.filter fun x => decide (0 < x.sends)).length
      let past := atOrBefore48 s.ack k.sndUna
      if !past && decide (sent < n) then d
      else
        let e := s.ack + BitVec.ofNat 48 s.credit.toNat
        let d := d.modConn c fun k => { k with peerEdge := if before48 k.peerEdge e then e else k.peerEdge }
        let d := if past then d else (d.rttSample c (d.rttOf s)).advanceMark c n
        let d := d.modConn c fun k => { k with tx := k.tx.map (markSacked s.sack) }
        (List.range sent).foldl (fun d i => d.fastSend c i) d

/-! ## Acceptance (R270, R280) -/

/-- The largest CMD message (R270). -/
def cmdMax : Nat := 16781312

/-- What R270 asks of a segment by itself. -/
def RSeg.wellFormed (x : RSeg) : Bool :=
  x.typ == 4 || (x.first == (x.off == 0) && x.last == (x.off + x.len == x.msgLen) && decide (x.off + x.len ≤ x.msgLen)
    && (x.last || decide (1024 ≤ x.len)) && (x.typ != 0x10 || decide (x.msgLen ≤ cmdMax))
    && (x.typ != 0x20 || (x.first && x.last)))

/-- What R270 asks of two segments with consecutive numbers. -/
def RSeg.follows (x y : RSeg) : Bool :=
  if x.last then y.first else !y.first && x.typ == y.typ && x.msgLen == y.msgLen && y.off == x.off + x.len

/-- What R270 asks of a segment beside those accepted and not yet handed over. -/
def Conn.fits (k : Conn) (x : RSeg) : Bool :=
  x.wellFormed
    && (match k.rcv.find? fun y => y.seq == x.seq - 1 with
        | some y => y.follows x
        | none => x.seq != k.rcvNext || x.first)
    && (match k.rcv.find? fun y => y.seq == x.seq + 1 with | some y => x.follows y | none => true)

/-- A received segment as it is kept. A FIN is a message of its own without bytes. -/
def keptSeg (s : Seg) : RSeg :=
  if s.typ == 4 then ⟨s.seq, 4, true, true, 0, 0, 0, []⟩
  else ⟨s.seq, s.typ.toNat, s.first, s.last, s.msgLen.toNat, s.msgOff.toNat, s.payload.length, s.payload⟩

/-- Accepted segments in the order of their numbers. -/
def insertSeg (x : RSeg) : List RSeg → List RSeg
  | [] => [x]
  | y :: ys => if before48 x.seq y.seq then x :: y :: ys else y :: insertSeg x ys

/-- The right neighbour of the contiguous run of accepted segments from a number on. -/
def runEnd (rcv : List RSeg) (e : Word) : Nat → Word
  | 0 => e
  | n + 1 => if rcv.any fun x => x.seq == e then runEnd rcv (e + 1) n else e

/-! ## Record bytes in P0 (R271, R287, R349) -/

/-- Accepted segments of the same message before a segment, nearest first. -/
def runBack (rcv : List RSeg) (x : RSeg) : Nat → List RSeg
  | 0 => []
  | n + 1 =>
    if x.first then []
    else match rcv.find? fun y => y.seq == x.seq - 1 with
      | some y => y :: runBack rcv y n
      | none => []

/-- Accepted segments of the same message after a segment. -/
def runOn (rcv : List RSeg) (x : RSeg) : Nat → List RSeg
  | 0 => []
  | n + 1 =>
    if x.last then []
    else match rcv.find? fun y => y.seq == x.seq + 1 with
      | some y => y :: runOn rcv y n
      | none => []

/-- The run of accepted segments, without a gap, that a segment joins in its message. -/
def msgRun (rcv : List RSeg) (x : RSeg) : List RSeg :=
  (runBack rcv x rcv.length).reverse ++ [x] ++ runOn rcv x rcv.length

/-- The record bytes of a segment as [from, to) in the record: they follow the command block of 32 bytes. -/
def RSeg.record (x : RSeg) : Nat × Nat := (max x.off 32 - 32, x.off + x.len - 32)

/-- The granules of a record that a segment's bytes touch. -/
def RSeg.granules (x : RSeg) : List Nat :=
  let r := x.record
  if r.1 < r.2 then (List.range (r.2 / 65536 + 1)).filter fun j => decide (r.1 < 65536 * (j + 1)) && decide (65536 * j < r.2)
  else []

/-- Write a segment's record bytes at their place. -/
def Dev.placeBytes (d : Dev) (gs : List Gran) (x : RSeg) : Dev :=
  let r := x.record
  x.granules.foldl (fun d j =>
    match gs.find? fun g => g.index == j with
    | none => d
    | some g =>
      let lo := max r.1 (65536 * j)
      let hi := min r.2 (65536 * (j + 1))
      d.putDdr (d.bufAddr g.handle + (lo - 65536 * j)) ((x.head.drop (lo + 32 - x.off)).take (hi - lo))) d

/-- Take granules for a segment; none where P0 has none (R287). -/
def Dev.takeGranules (d : Dev) (seq : Word) : List Nat → Option (List Gran × Dev)
  | [] => some ([], d)
  | j :: js =>
    match d.allocate 0 ownHostRx ownHostRx with
    | (none, _) => none
    | (some h, d) => (Dev.takeGranules d seq js).map fun x => (⟨seq, j, h⟩ :: x.1, x.2)

/-- How many of the granules for a segment P0 gives before it has none: what is left of a try that fails (R345, R347). -/
def Dev.failGranules (d : Dev) : List Nat → Dev
  | [] => d
  | _ :: js =>
    match d.allocate 0 ownHostRx ownHostRx with
    | (none, d) => d
    | (some h, d) => (Dev.failGranules d js).release h ownHostRx

/-- The granules that a run of segments keeps: one for each place in the record, the others given up. -/
def keepFirst : List Gran → List Gran
  | [] => []
  | g :: gs => g :: (keepFirst gs).filter fun x => x.index != g.index

/-- Place the record bytes of a segment (R271), which `k` has not yet accepted; none where they find no room (R287, R349). Two
runs that a segment joins share their granules from then on: the later ones are released and their bytes written again. -/
def Dev.placeSeg (d : Dev) (k : Conn) (x : RSeg) : Option Dev :=
  let run := msgRun k.rcv x
  let urgent := match run.head? with
    | some f => f.first && fieldAt f.head 5 1 % 8 == 4
    | none => false
  let mine := k.grans.filter fun g => run.any fun y => y.seq == g.seq
  let need := x.granules.filter fun j => !mine.any fun g => g.index == j
  if !x.granules.isEmpty && decide (3 ≤ d.level 0) && !urgent then none
  else (d.takeGranules x.seq need).map fun (got, d) =>
    let kept := keepFirst (mine ++ got)
    let spare := mine.filter fun g => !kept.contains g
    let d := d.releaseAll (spare.map Gran.handle) ownHostRx
    let d := (if spare.isEmpty then [x] else run).foldl (fun d y => d.placeBytes kept y) d
    d.modConn k.id fun k => { k with grans := (k.grans.filter fun g => !spare.contains g) ++ got }

/-! ## Management requests (R289, R290, R518) -/

/-- The payload of a MGMT_RSP. -/
def mgmtBytes (req status done retry : Nat) (values : List Word) : List Byte :=
  leBytes 2 req ++ leBytes 2 status ++ leBytes 1 done ++ leBytes 1 retry ++ leBytes 2 0
    ++ values.flatMap fun w => leBytes 6 w.toNat

/-- Read registers one at a time, up to the first that is refused. -/
def Dev.mgmtRead (d : Dev) (a : Nat) : Nat → List Word × Dev
  | 0 => ([], d)
  | n + 1 =>
    match (if d.pathUp .rrt then d.readOn .rrt a else none) with
    | none => ([], d)
    | some (w, d) => let (ws, d) := Dev.mgmtRead d (a + 1) n; (w :: ws, d)

/-- Write registers one at a time, up to the first that is refused: how many were written. -/
def Dev.mgmtWrite (d : Dev) (a : Nat) : List (Word × Word) → Nat × Dev
  | [] => (0, d)
  | (v, m) :: rest =>
    match (if d.pathUp .rrt then d.writeReg .rrt a v m else none) with
    | none => (0, d)
    | some d => let (n, d) := Dev.mgmtWrite d (a + 1) rest; (n + 1, d)

/-- The entries of a write: value and mask. -/
def mgmtEntries (bs : List Byte) (n : Nat) : List (Word × Word) :=
  (List.range n).map fun i => (BitVec.ofNat 48 (fieldAt bs (8 + 12 * i) 6), BitVec.ofNat 48 (fieldAt bs (14 + 12 * i) 6))

/-- Answer a management request. -/
def Dev.serveMgmt (d : Dev) (c : Nat) (bs : List Byte) : Dev :=
  let req := fieldAt bs 0 2
  let op := fieldAt bs 2 1
  let n := fieldAt bs 3 1
  let a := fieldAt bs 4 3
  let answer := fun (d : Dev) (st done retry : Nat) (ws : List Word) =>
    let p := mgmtBytes req st done retry ws
    d.sendMsg c typMgmtRsp 4 (Payload.onDie p) p.length none []
  match d.cobblerBusy with
  | some r => answer (d.bump C.cqmBusy) stBusy 0 r []
  | none =>
    if bs.length < 8 then answer d stParam 0 0 []
    else if op != 1 && op != 2 then answer d stDenied 0 0 []
    else if n = 0 ∨ 64 < n ∨ bs.length != 8 + (if op = 2 then 12 * n else 0) then answer d stParam 0 0 []
    else if op = 1 then
      let (ws, d) := d.mgmtRead a n
      answer d (if ws.length = n then stGood else stDenied) ws.length 0 ws
    else
      let (m, d) := d.mgmtWrite a (mgmtEntries bs n)
      answer d (if m = n then stGood else stDenied) m 0 []

/-! ## Handover (R271, R275) -/

/-- The granules of a message in the order of the record. -/
def inOrder (gs : List Gran) : List Nat :=
  (List.range 257).filterMap fun j => (gs.find? fun g => g.index == j).map Gran.handle

/-- Hand over one message: a command to CQM, a management request to the cobbler; a FIN closes the host's side and what
follows it is not accepted. -/
def Dev.deliverMsg (d : Dev) (c : Nat) (ms : List RSeg) : Dev :=
  match d.conn? c, ms.head? with
  | some k, some f =>
    let mine := k.grans.filter fun g => ms.any fun y => y.seq == g.seq
    let d := d.modConn c fun k => { k with grans := k.grans.filter fun g => !mine.contains g }
    if f.typ = 4 then
      let d := d.releaseAll ((k.grans.filter fun g => !mine.contains g).map Gran.handle) ownHostRx
      d.modConn c fun k => { k with st := .closeWait, rcv := [], grans := [] }
    else if f.typ = 0x10 then d.handover c (fitTo 32 f.head) f.msgLen (inOrder mine) ms.length
    else d.serveMgmt c f.head
  | _, _ => d

/-- Hand over, in order, every message whose segments have all been accepted. -/
def Dev.handMessages (d : Dev) (c : Nat) : Nat → Dev
  | 0 => d
  | n + 1 =>
    match d.conn? c with
    | none => d
    | some k =>
      if k.st != .established then d
      else
        let ready := k.rcv.takeWhile fun x => before48 x.seq k.rcvNext
        match ready.findIdx? RSeg.last with
        | none => d
        | some i =>
          let ms := ready.take (i + 1)
          Dev.handMessages ((d.modConn c fun k => { k with rcv := k.rcv.drop (i + 1) }).deliverMsg c ms) c n

/-- The acknowledgement of an accepted segment (R280): at once out of order, on request or after every second one, or with no
delay configured. -/
def Dev.ackAccepted (d : Dev) (c : Nat) (now : Bool) : Dev :=
  match d.conn? c with
  | none => d
  | some k => if now || decide (2 ≤ k.unacked) || d.get F.hptRrtCfgAckDelay == 0 then d.sendAck c false else d

/-- A consuming segment of an open connection (R270, R271, R280, R287). -/
def Dev.consume (d : Dev) (c : Nat) (s : Seg) : Dev :=
  match d.conn? c with
  | none => d
  | some k =>
    if k.st == .synRcvd then d
    else
      let window := atOrBefore48 k.rcvNext s.seq && before48 s.seq k.rcvEdge
      let dup := k.rcv.any fun x => x.seq == s.seq
      if !window || dup then (d.bump C.hptDropWindow).sendAck c false
      else if k.st != .established then d
      else
        let x := keptSeg s
        if !k.fits x then d.resetConn c rsnProtocolError
        else
          let placed := if x.typ = 0x10 then d.placeSeg k x else some d
          match placed with
          | none =>
            let run := msgRun k.rcv x
            let need := x.granules.filter fun j => !k.grans.any fun g => g.index == j && run.any fun y => y.seq == g.seq
            let d := if decide (3 ≤ d.level 0) then d else d.failGranules need
            d.bump C.hptDropNobuf
          | some d =>
            let inSeq := s.seq == k.rcvNext
            let d := (d.bump C.hptRxSeg).modConn c fun k =>
              let rcv := insertSeg x k.rcv
              { k with rcv := rcv, rcvNext := runEnd rcv k.rcvNext rcv.length, lastRcv := some s.seq, unacked := k.unacked + 1 }
            (d.handMessages c (k.rcv.length + 1)).ackAccepted c (!inSeq || s.ackNow)

/-! ## The rows -/

/-- Whether a segment reaches the transport: its port exists and is up in a running state (R256, R258). -/
def Dev.hears (d : Dev) (s : Seg) : Bool :=
  d.glb.dev.hostUp && decide (s.port < 4) && bitAt (d.get F.hptPortCfgPortEn) s.port
    && (d.get F.hptPortCfgMode != 2 || s.port == 0) && d.flag (F.hptPortStatusLinkUp.ix s.port)

/-- TYPEs that a host sends (R268). -/
def hostTypes : List Nat := [0x01, 0x03, 0x04, 0x05, 0x10, 0x20]

/-- R269 for a segment of an existing connection. -/
def breaksHeader (s : Seg) : Bool :=
  s.ver != 1 || !hostTypes.contains s.typ.toNat || s.typ == 1 || s.payLen.toNat != s.payload.length
    || decide (4 < s.sack.length) || s.sack.any fun b => atOrBefore48 b.2 b.1

/-- A segment that names a connection. The acknowledgement that it carries is applied first (R281). -/
def Dev.onConn (d : Dev) (k : Conn) (s : Seg) : Dev :=
  let d := d.modTimers k.id fun t => { t with probes := 0, tsEcho := s.tsVal }
  if breaksHeader s then d.resetConn k.id rsnProtocolError
  else if s.typ = 5 then (d.bump C.hptReset).closeConn k.id 0
  else
    let d := d.applyAck k.id s
    if s.typ = 3 then (if s.ackNow then d.sendAck k.id false else d) else d.consume k.id s

/-- A segment from a host. -/
def Dev.receive (d : Dev) (s : Seg) : Dev :=
  if !d.hears s then d
  else if s.typ = 1 ∧ s.dstConn = 0xFFFF then d.synArrives s
  else match d.hpt.conns.find? fun k => k.id == s.dstConn.toNat && k.epoch == s.epoch.toNat with
    | some k => d.onConn k s
    | none => d.unknownConn s

/-- A row's segment: one of its own TYPE, or one whose TYPE no host may send (R269). A segment of another row's TYPE is that
row's. -/
def Dev.receiveAs (d : Dev) (typ : Nat) (s : Seg) : Dev :=
  if s.typ.toNat = typ ∨ hostTypes.contains s.typ.toNat = false then d.receive s else d

/-! ## Meanings -/

def execSyn (seg : Seg) (s : State) : Host.Outcome State Fault Refusal := s.doing fun d => (d.receiveAs 0x01 seg).hostSettle
def execAck (seg : Seg) (s : State) : Host.Outcome State Fault Refusal := s.doing fun d => (d.receiveAs 0x03 seg).hostSettle
def execFin (seg : Seg) (s : State) : Host.Outcome State Fault Refusal := s.doing fun d => (d.receiveAs 0x04 seg).hostSettle
def execRst (seg : Seg) (s : State) : Host.Outcome State Fault Refusal := s.doing fun d => (d.receiveAs 0x05 seg).hostSettle
def execCmd (seg : Seg) (s : State) : Host.Outcome State Fault Refusal := s.doing fun d => (d.receiveAs 0x10 seg).hostSettle
def execMgmtReadRequest (seg : Seg) (s : State) : Host.Outcome State Fault Refusal :=
  s.doing fun d => (d.receiveAs 0x20 seg).hostSettle
def execMgmtWriteRequest (seg : Seg) (s : State) : Host.Outcome State Fault Refusal :=
  s.doing fun d => (d.receiveAs 0x20 seg).hostSettle

end Sys2Proof.Machine
end

