-- ==== Sys2Proof/Machine/Dispatch.lean ====
section
/-!
DEFINITION. One arm per command: its meaning.
-/
namespace Sys2Proof.Machine

def exec (i : Instr) (s : State) : Host.Outcome State Fault Refusal :=
  match i with
  | .openStream h => Sys2Proof.Machine.execOpenStream h s
  | .closeStream h => Sys2Proof.Machine.execCloseStream h s
  | .writeRecord h => Sys2Proof.Machine.execWriteRecord h s
  | .readRecord h motion => Sys2Proof.Machine.execReadRecord h motion s
  | .locate h motion => Sys2Proof.Machine.execLocate h motion s
  | .flush h => Sys2Proof.Machine.execFlush h s
  | .queryIndex h => Sys2Proof.Machine.execQueryIndex h s
  | .readLog h => Sys2Proof.Machine.execReadLog h s
  | .resume h => Sys2Proof.Machine.execResume h s
  | .load h env => Sys2Proof.Machine.execLoad h env s
  | .unload h zone motion => Sys2Proof.Machine.execUnload h zone motion s
  | .snapshot h => Sys2Proof.Machine.execSnapshot h s
  | .calibrateStore h readBack => Sys2Proof.Machine.execCalibrateStore h readBack s
  | .calibrateSelf h env => Sys2Proof.Machine.execCalibrateSelf h env s
  | .calibrateFull h env => Sys2Proof.Machine.execCalibrateFull h env s
  | .calibrateInvalidate h => Sys2Proof.Machine.execCalibrateInvalidate h s
  | .loopOpen h => Sys2Proof.Machine.execLoopOpen h s
  | .loopClose h => Sys2Proof.Machine.execLoopClose h s
  | .loopTestRun h env => Sys2Proof.Machine.execLoopTestRun h env s
  | .nvmRead h => Sys2Proof.Machine.execNvmRead h s
  | .nvmWrite h readBack => Sys2Proof.Machine.execNvmWrite h readBack s
  | .nvmPrefer h => Sys2Proof.Machine.execNvmPrefer h s
  | .nvmInvalidate h => Sys2Proof.Machine.execNvmInvalidate h s
  | .nvmVerify h => Sys2Proof.Machine.execNvmVerify h s
  | .maintEnd h => Sys2Proof.Machine.execMaintEnd h s
  | .cobblerRestartCmd h => Sys2Proof.Machine.execCobblerRestartCmd h s
  | .deviceRestartCmd h env => Sys2Proof.Machine.execDeviceRestartCmd h env s
  | .traceArm a => Sys2Proof.Machine.execTraceArm a s
  | .traceStop h => Sys2Proof.Machine.execTraceStop h s
  | .traceRead h => Sys2Proof.Machine.execTraceRead h s
  | .dispatchCommand => Sys2Proof.Machine.execDispatchCommand s
  | .syn seg => Sys2Proof.Machine.execSyn seg s
  | .ack seg => Sys2Proof.Machine.execAck seg s
  | .fin seg => Sys2Proof.Machine.execFin seg s
  | .rst seg => Sys2Proof.Machine.execRst seg s
  | .cmd seg => Sys2Proof.Machine.execCmd seg s
  | .mgmtReadRequest seg => Sys2Proof.Machine.execMgmtReadRequest seg s
  | .mgmtWriteRequest seg => Sys2Proof.Machine.execMgmtWriteRequest seg s
  | .segmentTransmit => Sys2Proof.Machine.execSegmentTransmit s
  | .lastAckClose conn => Sys2Proof.Machine.execLastAckClose conn s
  | .retransmissionTimeout conn => Sys2Proof.Machine.execRetransmissionTimeout conn s
  | .delayedAck conn => Sys2Proof.Machine.execDelayedAck conn s
  | .keepaliveTimeout conn => Sys2Proof.Machine.execKeepaliveTimeout conn s
  | .creditProbe conn => Sys2Proof.Machine.execCreditProbe conn s
  | .synAckTimeout conn => Sys2Proof.Machine.execSynAckTimeout conn s
  | .orphanExpiry orphan => Sys2Proof.Machine.execOrphanExpiry orphan s
  | .neighborSolicitation port target src mac hopLimit => Sys2Proof.Machine.execNeighborSolicitation port target src mac hopLimit s
  | .neighborAdvertisement port target mac hopLimit => Sys2Proof.Machine.execNeighborAdvertisement port target mac hopLimit s
  | .mldQuery port src => Sys2Proof.Machine.execMldQuery port src s
  | .echoRequest port src dst body => Sys2Proof.Machine.execEchoRequest port src dst body s
  | .pfcFrame port quanta => Sys2Proof.Machine.execPfcFrame port quanta s
  | .pauseFrame port => Sys2Proof.Machine.execPauseFrame port s
  | .pfcStorm port prio => Sys2Proof.Machine.execPfcStorm port prio s
  | .linkUp port => Sys2Proof.Machine.execLinkUp port s
  | .linkDown port => Sys2Proof.Machine.execLinkDown port s
  | .dadTimeout port global duplicate => Sys2Proof.Machine.execDadTimeout port global duplicate s
  | .idleCut stream => Sys2Proof.Machine.execIdleCut stream s
  | .compressionJobStart engine => Sys2Proof.Machine.execCompressionJobStart engine s
  | .clickCoded engine err => Sys2Proof.Machine.execClickCoded engine err s
  | .decompressionJobStart engine => Sys2Proof.Machine.execDecompressionJobStart engine s
  | .clickDecoded engine err => Sys2Proof.Machine.execClickDecoded engine err s
  | .contextSpill stream => Sys2Proof.Machine.execContextSpill stream s
  | .contextRestore stream => Sys2Proof.Machine.execContextRestore stream s
  | .dataSetClose => Sys2Proof.Machine.execDataSetClose s
  | .c3Fold accError => Sys2Proof.Machine.execC3Fold accError s
  | .fifoMark => Sys2Proof.Machine.execFifoMark s
  | .dataSetStart underrun => Sys2Proof.Machine.execDataSetStart underrun s
  | .verifyWindow reads => Sys2Proof.Machine.execVerifyWindow reads s
  | .c1CodewordDecoded channel codeword => Sys2Proof.Machine.execC1CodewordDecoded channel codeword s
  | .c2Decode => Sys2Proof.Machine.execC2Decode s
  | .verifyDecision => Sys2Proof.Machine.execVerifyDecision s
  | .speedMatch running => Sys2Proof.Machine.execSpeedMatch running s
  | .holdEnd => Sys2Proof.Machine.execHoldEnd s
  | .sessionIdleTimeout => Sys2Proof.Machine.execSessionIdleTimeout s
  | .wrapTurn zone => Sys2Proof.Machine.execWrapTurn zone s
  | .indexCommitMerge => Sys2Proof.Machine.execIndexCommitMerge s
  | .zoneCommit zone => Sys2Proof.Machine.execZoneCommit zone s
  | .reDecode => Sys2Proof.Machine.execReDecode s
  | .c3ErasureDecode => Sys2Proof.Machine.execC3ErasureDecode s
  | .groupReread reads => Sys2Proof.Machine.execGroupReread reads s
  | .eyeletWindowClose lower upper => Sys2Proof.Machine.execEyeletWindowClose lower upper s
  | .lateralSample input frame => Sys2Proof.Machine.execLateralSample input frame s
  | .bandWordDecoded lower upper => Sys2Proof.Machine.execBandWordDecoded lower upper s
  | .signatureSeen endSig => Sys2Proof.Machine.execSignatureSeen endSig s
  | .uncertainTimeout => Sys2Proof.Machine.execUncertainTimeout s
  | .snapshotFire => Sys2Proof.Machine.execSnapshotFire s
  | .snapshotReadout => Sys2Proof.Machine.execSnapshotReadout s
  | .weltValue samples => Sys2Proof.Machine.execWeltValue samples s
  | .hfmFaultPoll responses => Sys2Proof.Machine.execHfmFaultPoll responses s
  | .hfmFrameSend module command response => Sys2Proof.Machine.execHfmFrameSend module command response s
  | .enableGroupStep => Sys2Proof.Machine.execEnableGroupStep s
  | .fifoPointerMismatch id => Sys2Proof.Machine.execFifoPointerMismatch id s
  | .ddrRefresh double => Sys2Proof.Machine.execDdrRefresh double s
  | .ddrZqCalibration => Sys2Proof.Machine.execDdrZqCalibration s
  | .ddrRetrain subchannel => Sys2Proof.Machine.execDdrRetrain subchannel s
  | .patrolScrub corrected uncorrectable passDone => Sys2Proof.Machine.execPatrolScrub corrected uncorrectable passDone s
  | .poolQuery owner handle => Sys2Proof.Machine.execPoolQuery owner handle s
  | .poolAllocate owner handle => Sys2Proof.Machine.execPoolAllocate owner handle s
  | .poolShare owner handle => Sys2Proof.Machine.execPoolShare owner handle s
  | .poolRelease owner handle => Sys2Proof.Machine.execPoolRelease owner handle s
  | .dmaGo channel => Sys2Proof.Machine.execDmaGo channel s
  | .dmaStop channel bursts => Sys2Proof.Machine.execDmaStop channel bursts s
  | .dmaClear channel => Sys2Proof.Machine.execDmaClear channel s
  | .dmaChannelStart => Sys2Proof.Machine.execDmaChannelStart s
  | .dmaChannelDone => Sys2Proof.Machine.execDmaChannelDone s
  | .dmaHalted => Sys2Proof.Machine.execDmaHalted s
  | .loopSample slot lost delay => Sys2Proof.Machine.execLoopSample slot lost delay s
  | .profileGeneratorStep => Sys2Proof.Machine.execProfileGeneratorStep s
  | .appendResumeAfterStop => Sys2Proof.Machine.execAppendResumeAfterStop s
  | .loopCtrlWrite value mask => Sys2Proof.Machine.execLoopCtrlWrite value mask s
  | .pwmPeriod group => Sys2Proof.Machine.execPwmPeriod group s
  | .currentSenseConversion codes => Sys2Proof.Machine.execCurrentSenseConversion codes s
  | .reelCommutation reel => Sys2Proof.Machine.execReelCommutation reel s
  | .alignEnd reel => Sys2Proof.Machine.execAlignEnd reel s
  | .eyeletTimeout => Sys2Proof.Machine.execEyeletTimeout s
  | .observerReacqAttempt reel plausible => Sys2Proof.Machine.execObserverReacqAttempt reel plausible s
  | .bootstrapEnd => Sys2Proof.Machine.execBootstrapEnd s
  | .stepperHold => Sys2Proof.Machine.execStepperHold s
  | .quadratureEdge q a b => Sys2Proof.Machine.execQuadratureEdge q a b s
  | .quadratureIndex q => Sys2Proof.Machine.execQuadratureIndex q s
  | .gateDriverFault g => Sys2Proof.Machine.execGateDriverFault g s
  | .gdEnReassert g => Sys2Proof.Machine.execGdEnReassert g s
  | .gdRestartCheck g high => Sys2Proof.Machine.execGdRestartCheck g high s
  | .cascadeLinkUp port member info => Sys2Proof.Machine.execCascadeLinkUp port member info s
  | .cascadeJoin member => Sys2Proof.Machine.execCascadeJoin member s
  | .flitReceived port flit => Sys2Proof.Machine.execFlitReceived port flit s
  | .replayTimeout port => Sys2Proof.Machine.execReplayTimeout port s
  | .beaconReceived beacon => Sys2Proof.Machine.execBeaconReceived beacon s
  | .beaconMiss => Sys2Proof.Machine.execBeaconMiss s
  | .cascadeLoss member ofMaster => Sys2Proof.Machine.execCascadeLoss member ofMaster s
  | .memberLeave member => Sys2Proof.Machine.execMemberLeave member s
  | .fcInChange level => Sys2Proof.Machine.execFcInChange level s
  | .porstAssert => Sys2Proof.Machine.execPorstAssert s
  | .porstRelease straps env => Sys2Proof.Machine.execPorstRelease straps env s
  | .retryTimer env => Sys2Proof.Machine.execRetryTimer env s
  | .retryNow env => Sys2Proof.Machine.execRetryNow env s
  | .retryHoldTimeout => Sys2Proof.Machine.execRetryHoldTimeout s
  | .setPref slotB => Sys2Proof.Machine.execSetPref slotB s
  | .norReadPage addr => Sys2Proof.Machine.execNorReadPage addr s
  | .norProgramPage addr => Sys2Proof.Machine.execNorProgramPage addr s
  | .norEraseBlock addr => Sys2Proof.Machine.execNorEraseBlock addr s
  | .norReadSfdp addr page => Sys2Proof.Machine.execNorReadSfdp addr page s
  | .norOperationDone failed => Sys2Proof.Machine.execNorOperationDone failed s
  | .standbyRequest => Sys2Proof.Machine.execStandbyRequest s
  | .standbyReq active => Sys2Proof.Machine.execStandbyReq active s
  | .wakeN => Sys2Proof.Machine.execWakeN s
  | .wakeCartridge => Sys2Proof.Machine.execWakeCartridge s
  | .wakeTimer => Sys2Proof.Machine.execWakeTimer s
  | .railWaitEnd env => Sys2Proof.Machine.execRailWaitEnd env s
  | .brownOut => Sys2Proof.Machine.execBrownOut s
  | .thermalSample sensors env => Sys2Proof.Machine.execThermalSample sensors env s
  | .railSample mv outFor1ms => Sys2Proof.Machine.execRailSample mv outFor1ms s
  | .hfmTempPoll temps => Sys2Proof.Machine.execHfmTempPoll temps s
  | .cobblerKick => Sys2Proof.Machine.execCobblerKick s
  | .watchdogExpiry ddrOk slotOk env => Sys2Proof.Machine.execWatchdogExpiry ddrOk slotOk env s
  | .sidebandRead addr pecOk lengthOk => Sys2Proof.Machine.execSidebandRead addr pecOk lengthOk s
  | .sidebandWrite addr value mask pecOk lengthOk => Sys2Proof.Machine.execSidebandWrite addr value mask pecOk lengthOk s
  | .sidebandResult pecOk => Sys2Proof.Machine.execSidebandResult pecOk s
  | .registerWrite path addr value mask => Sys2Proof.Machine.execRegisterWrite path addr value mask s
  | .rcFieldRead path addr => Sys2Proof.Machine.execRcFieldRead path addr s
  | .cartridgeEjected => Sys2Proof.Machine.execCartridgeEjected s
  | .interlockChange loader active => Sys2Proof.Machine.execInterlockChange loader active s
  | .gpioInputChange ball level => Sys2Proof.Machine.execGpioInputChange ball level s
  | .pinFunctionChange ball value mask => Sys2Proof.Machine.execPinFunctionChange ball value mask s
  | .pinWindowEnd ball => Sys2Proof.Machine.execPinWindowEnd ball s
  | .jtagInstruction code => Sys2Proof.Machine.execJtagInstruction code s
  | .eyeletMarkCounted interval => Sys2Proof.Machine.execEyeletMarkCounted interval s
  | .pfcPauseEnd port prio => Sys2Proof.Machine.execPfcPauseEnd port prio s
  | .receivedFrameDropped port cause => Sys2Proof.Machine.execReceivedFrameDropped port cause s
  | .i3cCommand ccc => Sys2Proof.Machine.execI3cCommand ccc s
  | .cobblerRestartDone => Sys2Proof.Machine.execCobblerRestartDone s
  | .brownOutRelease env => Sys2Proof.Machine.execBrownOutRelease env s
  | .vaonRise => Sys2Proof.Machine.execVaonRise s

end Sys2Proof.Machine
end

