-- ==== Sys2Proof/Machine/Step.lean ====
section
/-!
DEFINITION. A step: the command at the front of the queue runs with the rest of the queue; on an empty queue TIME goes
on (R90; log 1).
-/
namespace Sys2Proof.Machine

/-- What happens when no command waits: TIME counts one more nanosecond, but in standby, where core power is off
(R90, R485; log 1). -/
def State.idle (s : State) : State := { s with dev := s.dev.tick }

/-- One step. -/
def step (s : State) : Host.Outcome State Fault Refusal :=
  match s.pending with
  | [] => .next s.idle
  | c :: rest => exec c { s with pending := rest }

/-- The state with the command that a word spells at the front of its queue (log 15). -/
def State.withFetchWord (s : State) (nbits w : Nat) : State :=
  match decodeTableWord nbits w with
  | some c => { s with pending := c :: s.pending }
  | none => s

end Sys2Proof.Machine
end

