-- ==== Sys2Proof/Machine/Balls.lean ====
section
/-!
DEFINITION. The balls (chapter 18): which net every ball of the grid carries (R541 to R549), and the levels that the device drives
on those that show its state (R21, R535, R551, R552).
-/
namespace Sys2Proof.Machine

/-- The net of a ball: a supply, or a signal with its name, the bank that it belongs to, its index and whether it is the negative
ball of its pair. The bank is 2c + s for subchannel s of DDR5 channel c, c for its RESET_N and RCOMP, and 0 elsewhere. -/
inductive Net where
  | vss | vcore | vsram | vana | vser09 | vser12 | vddq | vio | vaon
  | signal (name : String) (bank ix : Nat) (neg : Bool)
  deriving DecidableEq, Repr

/-- A signal that stands alone, or one of a numbered group. -/
def Net.one (name : String) (ix : Nat) : Net := .signal name 0 ix false

/-- The letters of the rows, row 1 first (R541). -/
def rowLetters : List String :=
  ["A", "B", "C", "D", "E", "F", "G", "H", "J", "K", "L", "M", "N", "P", "T", "U", "V", "W", "Y"]
    ++ ["AA", "AB", "AC", "AD", "AE", "AF", "AG", "AH", "AJ", "AK", "AL", "AM", "AN", "AP", "AT", "AU", "AV", "AW", "AY"]
    ++ ["BA", "BB", "BC", "BD", "BE", "BF", "BG", "BH", "BJ", "BK", "BL", "BM", "BN", "BP", "BT", "BU", "BV", "BW", "BY"]
    ++ ["CA", "CB", "CC", "CD", "CE", "CF", "CG"]

/-- Head region (R543): row 1 + r + floor(r/2) of a group of rows holds the channels with i mod 32 in 4r to 4r + 3. -/
def headNet (row col : Nat) : Net :=
  let at_ := fun (name : String) (y : Nat) =>
    let x := col - 1
    if y % 3 = 2 ∨ 12 ≤ y then Net.vss
    else .signal name 0 (32 * (x / 8) + 4 * (2 * (y / 3) + y % 3) + x % 8 / 2) (x % 2 == 1)
  if row < 14 then at_ "WD" (row - 1) else at_ "RD" (row - 14)

/-- Row AG (R544). -/
def servoNet (col : Nat) : Net :=
  if col < 25 ∨ 40 < col then .vss
  else
    let k := (col - 25) / 4
    match (col - 25) % 4 with
    | 1 => .signal "SV" 0 k false
    | 2 => .signal "SV" 0 k true
    | _ => .one "SVGND" 0

/-- The first of a list of (columns, nets) runs that holds a column: a run of `n` balls from a column. -/
def runNet (runs : List (Nat × Nat × (Nat → Net))) (col : Nat) : Net :=
  match runs.find? fun r => decide (r.1 ≤ col) && decide (col < r.1 + r.2.1) with
  | some r => r.2.2 (col - r.1)
  | none => .vio

/-- One of a list of names. -/
def named (names : List String) (i : Nat) : Net := .one (names.getD i "RSVD") 0

/-- A run of differential pairs, the positive ball first. -/
def pairs (name : String) (i : Nat) : Net := .signal name 0 (i / 2) (i % 2 == 1)

/-- Row AH from column 1 (R545, R546). -/
def rowAH : List (Nat × Nat × (Nat → Net)) := [
  (1, 6, .one "PWM_RA"), (7, 6, .one "PWM_RB"), (13, 4, .one "PWM_VC"), (17, 4, .one "PWM_ST"), (21, 8, .one "NOR_IO"),
  (29, 4, named ["NOR_DQS", "NOR_SCK", "NOR_CS_N", "NOR_RESET_N"]), (37, 4, named ["HFM_SCK", "HFM_SDO", "HFM_SDI", "HFM_RST_N"]),
  (41, 8, .one "HFM_CS_N"), (53, 1, .one "TRC_CLK"), (54, 8, .one "TRC_D")]

/-- Row AJ. -/
def rowAJ : List (Nat × Nat × (Nat → Net)) := [
  (1, 4, .one "GD_EN"), (5, 4, .one "GD_FLT_N"), (9, 6, fun i => .one (["QA", "QB", "QI"].getD (i % 3) "QI") (i / 3)),
  (15, 6, fun _ => .one "CSGND" 0), (21, 16, .one "GPIO"), (41, 2, .one "FC_OUT"), (43, 2, .one "FC_IN"), (45, 1, .one "CASC_ROLE"),
  (46, 4, .one "CASC_ID"), (50, 3, .one "STATUS"), (53, 2, named ["FAULT_N", "READY"]), (59, 5, named ["TCK", "TMS", "TDI", "TDO", "TRST_N"])]

/-- Row AK. -/
def rowAK : List (Nat × Nat × (Nat → Net)) := [
  (1, 20, pairs "CS"), (21, 4, named ["PORST_N", "SB_SCL", "SB_SDA", "SB_MODE"]), (25, 8, fun _ => .vaon),
  (33, 2, named ["XTAL_IN", "XTAL_OUT"]), (35, 2, pairs "REFCLK"), (37, 2, named ["TDIODE_A", "TDIODE_K"]),
  (39, 3, named ["SENSE_VCORE", "SENSE_VSRAM", "SENSE_GND"]), (42, 2, .one "TEST_MODE"), (44, 2, named ["SER_RCAL", "CAS_RCAL"]),
  (50, 15, fun _ => .one "RSVD" 0)]

/-- Signal j of the list of DDR5 channel c (R548). -/
def ddrSignal (c j : Nat) : Net :=
  let bus := fun (bank k : Nat) =>
    let sig := fun (name : String) (ix : Nat) (neg : Bool) => Net.signal name bank ix neg
    if k < 50 then
      if k % 10 < 8 then sig "DQ" (8 * (k / 10) + k % 10) false else sig "DQS" (k / 10) (k % 10 == 9)
    else if k < 64 then sig "CA" (k - 50) false
    else if k < 66 then sig "CS_N" (k - 64) false
    else if k < 68 then sig "CK" 0 (k == 67) else sig "ALERT_N" 0 false
  if j < 69 then bus (2 * c) j
  else if j = 69 then .signal "DDR_RESET_N" c 0 false
  else if j < 139 then bus (2 * c + 1) (j - 70) else .signal "DDR_RCOMP" c 0 false

/-- DDR5 channel c (R548): t counts rows from AL, q columns from the outer one. -/
def ddrNet (c t q : Nat) : Net :=
  if q < 4 then ddrSignal c (4 * t + q)
  else if q = 5 ∨ q = 6 ∧ t % 7 ≤ 4 then .vddq else .vss

/-- The core supply (R549). -/
def coreNet (row col : Nat) : Net :=
  if (row + col) % 2 = 1 then .vss else if row < 38 then .vana else if row < 42 then .vsram else .vcore

/-- The SerDes region (R547). -/
def serdesNet (row col : Nat) : Net :=
  let lanes := fun (host cascade : String) =>
    let pair := fun (name : String) (x : Nat) =>
      if x % 4 = 0 then Net.signal name 0 (x / 4) false else if x % 4 = 1 then .signal name 0 (x / 4) true else .vss
    if 26 ≤ col ∧ col < 56 then pair cascade (col - 26) else if 10 ≤ col ∧ col < 24 then pair host (col - 10) else .vss
  match row with
  | 59 => lanes "HTX" "CTX"
  | 61 =>
    if col = 16 ∨ col = 17 then .signal "HREF" 0 0 (col == 17)
    else if col = 40 ∨ col = 41 then .signal "CREF" 0 0 (col == 41) else .vser09
  | 62 => if col < 25 then .vser09 else .vser12
  | 63 => lanes "HRX" "CRX"
  | _ => .vss

/-- The net of the ball at a row and a column, both from 1 to 64 (R542). -/
def netAt (row col : Nat) : Net :=
  if row < 26 then headNet row col
  else match row with
    | 26 => servoNet col
    | 27 => runNet rowAH col
    | 28 => runNet rowAJ col
    | 29 => runNet rowAK col
    | _ =>
      if col ≤ 8 then ddrNet 0 (row - 30) (col - 1)
      else if 57 ≤ col then ddrNet 1 (row - 30) (64 - col)
      else if row < 58 then coreNet row col else serdesNet row col

/-! ## Levels (R21, R535, R551, R552) -/

/-- The levels of the balls that show the device's state: STATUS[2:0], READY and FAULT_N in every state, HFM_RST_N, which holds
the HFMs at their power-up values in the states without a running image, GD_EN[3:0] and FC_OUT[1:0]. -/
def Dev.shownLevels (d : Dev) : List (String × Nat) :=
  [("STATUS", d.glb.dev.code), ("READY", b2n d.glb.dev.ready), ("FAULT_N", b2n (!d.faultLow)), ("HFM_RST_N", b2n d.glb.dev.hostUp),
   ("GD_EN", d.get F.mdrStatusGdEn), ("FC_OUT", d.cas.fcOut), ("RAIL_EN", b2n d.glb.railEn)]

end Sys2Proof.Machine
end

