-- ==== Sys2Proof/WellFormed.lean ====
section
/-!
DEFINITION. Well-formed commands: every operand that numbers a part of the block names one that the spec gives it. A command
that is not well formed names nothing, and its meaning leaves the device alone where the rule gives it nothing to act on.
-/
namespace Sys2Proof

/-- A slot of samples names channels of the head (R92). -/
def TrackSignal.wf (r : TrackSignal) : Bool := decide (r.channel < 256)

/-- A header cut into fields: at most 4 SACK blocks (R267), from one of the four ports (R256). -/
def Seg.wf (s : Seg) : Bool := decide (s.port < 4) && decide (s.sack.length ≤ 4)

/-- Operand ranges by constructor. -/
def Instr.wf : Instr → Bool
  | .traceArm (.register t) => decide (t < 4)
  | .syn s | .ack s | .fin s | .rst s | .cmd s | .mgmtReadRequest s | .mgmtWriteRequest s => s.wf
  | .lastAckClose c | .retransmissionTimeout c | .delayedAck c | .keepaliveTimeout c | .creditProbe c | .synAckTimeout c =>
    decide (c < 64)
  | .neighborSolicitation p .. | .neighborAdvertisement p .. | .mldQuery p _ | .echoRequest p .. | .pauseFrame p | .linkUp p
  | .linkDown p | .dadTimeout p .. | .receivedFrameDropped p _ => decide (p < 4)
  | .pfcFrame p qs => decide (p < 4) && qs.all fun q => decide (q.1 < 8)
  | .pfcStorm p k | .pfcPauseEnd p k => decide (p < 4) && decide (k < 8)
  | .compressionJobStart e | .clickCoded e _ | .decompressionJobStart e | .clickDecoded e _ => decide (e < 16)
  | .dataSetStart us => us.all fun c => decide (c < 256)
  | .verifyWindow rs => rs.all TrackSignal.wf
  | .c1CodewordDecoded n k => decide (n < 256) && decide (k < 8)
  | .lateralSample i _ => decide (i < 2)
  | .hfmFrameSend m .. => decide (m < 8)
  | .ddrRetrain c => decide (c < 4)
  | .fifoPointerMismatch i => decide (i < 0x280)
  | .dmaGo c | .dmaStop c _ | .dmaClear c => decide (c < 8)
  | .loopSample i .. => decide (i < 8)
  | .pwmPeriod g => decide (g < 4)
  | .reelCommutation r | .alignEnd r | .observerReacqAttempt r _ => decide (r < 2)
  | .quadratureEdge q .. | .quadratureIndex q => decide (q < 2)
  | .gateDriverFault g | .gdEnReassert g | .gdRestartCheck g _ => decide (g < 4)
  | .cascadeLinkUp p m _ => decide (p < 2) && decide (m < 16)
  | .cascadeJoin m | .cascadeLoss m _ | .memberLeave m => decide (m < 16)
  | .flitReceived p _ | .replayTimeout p => decide (p < 2)
  | .thermalSample ts _ => decide (ts.length = 8)
  | .gpioInputChange b _ => decide (b < 16)
  | .pinFunctionChange b .. | .pinWindowEnd b => decide (b < 17)
  | .openStream _ | .closeStream _ | .writeRecord _ | .readRecord .. | .locate .. | .flush _ | .queryIndex _ | .readLog _
  | .resume _ | .load .. | .unload .. | .snapshot _ | .calibrateStore .. | .calibrateSelf .. | .calibrateFull ..
  | .calibrateInvalidate _ | .loopOpen _ | .loopClose _ | .loopTestRun .. | .nvmRead _ | .nvmWrite .. | .nvmPrefer _
  | .nvmInvalidate _ | .nvmVerify _ | .maintEnd _ | .cobblerRestartCmd _ | .deviceRestartCmd .. | .traceArm (.command _)
  | .traceStop _ | .traceRead _ | .dispatchCommand | .segmentTransmit | .orphanExpiry _ | .idleCut _ | .contextSpill _
  | .contextRestore _ | .dataSetClose | .c3Fold _ | .fifoMark | .c2Decode | .verifyDecision | .speedMatch _ | .holdEnd
  | .sessionIdleTimeout | .wrapTurn _ | .indexCommitMerge | .zoneCommit _ | .reDecode | .c3ErasureDecode | .groupReread _
  | .eyeletWindowClose .. | .bandWordDecoded .. | .signatureSeen _ | .uncertainTimeout | .snapshotFire | .snapshotReadout
  | .weltValue _ | .hfmFaultPoll _ | .enableGroupStep | .ddrRefresh _ | .ddrZqCalibration
  | .patrolScrub .. | .poolQuery .. | .poolAllocate .. | .poolShare .. | .poolRelease .. | .dmaChannelStart
  | .dmaChannelDone | .dmaHalted | .profileGeneratorStep | .appendResumeAfterStop | .loopCtrlWrite ..
  | .currentSenseConversion _ | .eyeletTimeout | .bootstrapEnd | .stepperHold | .beaconReceived _ | .beaconMiss
  | .fcInChange _ | .porstAssert | .porstRelease .. | .retryTimer _ | .retryNow _ | .retryHoldTimeout | .setPref _
  | .norReadPage _ | .norProgramPage _ | .norEraseBlock _ | .norReadSfdp .. | .norOperationDone _ | .standbyRequest
  | .standbyReq _ | .wakeN | .wakeCartridge | .wakeTimer | .railWaitEnd _ | .brownOut | .railSample .. | .hfmTempPoll _
  | .cobblerKick | .watchdogExpiry .. | .sidebandRead .. | .sidebandWrite .. | .sidebandResult _ | .registerWrite ..
  | .rcFieldRead .. | .cartridgeEjected | .interlockChange .. | .jtagInstruction _ | .eyeletMarkCounted _ | .i3cCommand _
  | .cobblerRestartDone | .brownOutRelease _ | .vaonRise => true

end Sys2Proof
end

