-- ==== Sys2Proof/Safety.lean ====
section
/-!
DEFINITION. What claims speak of: that a command runs, what it may change, and the device with nothing to settle after a command.
-/
namespace Sys2Proof.Machine

/-- A command runs: `exec` answers a next state that has property `p`. -/
def Runs (c : Instr) (s : State) (p : State → Prop) : Prop := ∃ t, exec c s = .next t ∧ p t

/-- Nothing follows a command on the host side but credit (R275, R484, R286): no connection waits in CLOSE_WAIT and the
STANDBY_REQ role holds no request. -/
def Dev.calm (d : Dev) : Bool := (d.hpt.conns.all fun k => k.st != .closeWait) && !d.glb.standbyHeld

/-- The device has no work in hand: no command, no click, no read, no session and nothing of one, no event entry, no profile
towards a place. -/
def Dev.quiet (d : Dev) : Bool :=
  d.calm && d.cqm.cmds.isEmpty && d.cqm.waits.isEmpty && d.strm.clicks.isEmpty && d.strm.reads.isEmpty
    && (d.strm.ctxs.all fun x => x.inLen == 0 && x.open_.isEmpty) && d.plc.session.isNone && d.plc.dsets.isEmpty && d.plc.staged.isEmpty
    && d.plc.commits.isEmpty && d.pos.entries.isEmpty && !d.tce.target.isPlace

/-- The command is the only one in the device. It came over the only connection, which is established, and its queue is not
frozen; no standby request is held. -/
abbrev Dev.alone (d : Dev) (c : Cmd) (k : Conn) (q : Queue) : Prop :=
  d.cqm.cmds = [c] ∧ d.cqm.queues = [q] ∧ q.id = c.queue ∧ q.conn = some k.id ∧ q.frozen = false ∧ d.hpt.conns = [k]
    ∧ k.st = .established ∧ k.queue = q.id ∧ d.glb.standbyHeld = false

/-- What R275 to R286 leave alone when they send acknowledgements and credit: a connection without its credit and its count of
segments to acknowledge. -/
def Conn.core (k : Conn) : Conn := { k with rcvEdge := 0, unacked := 0, creditCut := 0 }

/-- The newest message of the only connection is the STATUS of a command: GOOD, without log entry and retry, with the early
warning as the device `d` has it (R300). The command waits for the acknowledgement where it counts towards a limit (R305). -/
def State.toldGood (t : State) (d : Dev) (c : Cmd) (k : Conn) (already : Bool) (detail : List Byte) : Prop :=
  t.dev.cqm.cmds = (if c.counts then [{ c with phase := .completed, data := [] }] else [])
    ∧ (t.dev.hpt.conns.map fun k => (k.id, k.msgs.getLast?.map fun m => (m.typ, m.payload.head, m.status)))
      = [(k.id, some (typStatus, statusBytes c.tag c.opcode false (d.flag F.plcStatusEwSeen) already stGood 0 0 detail, some c.h))]

/-- The newest message of the only connection but one is a DATA_IN of a command with these bytes (R301). -/
def State.gaveData (t : State) (c : Cmd) (bytes : List Byte) : Prop :=
  (t.dev.hpt.conns.map fun k => k.msgs.dropLast.getLast?.map fun m => (m.typ, m.payload.head))
    = [some (typDataIn, leBytes 4 c.tag ++ leBytes 1 c.opcode ++ leBytes 3 0 ++ leBytes 4 bytes.length ++ leBytes 4 0 ++ bytes)]

/-- An accepted maintenance command of an operation is the only command, and its turn has come: no freeze holds it, the device is in
maintenance and the cobbler runs. -/
abbrev State.maintains (s : State) (c : Cmd) (k : Conn) (q : Queue) (op sub : Nat) : Prop :=
  s.dev.alone c k q ∧ c.phase = .accepted ∧ c.held = false ∧ c.opcode = op ∧ c.par 16 1 = sub ∧ s.dev.glb.dev = .maintenance
    ∧ s.dev.flag F.glbCobblerRestarting = false

/-- Every memory and the register file in its canonical form. -/
def Dev.canonical (d : Dev) : Bool :=
  sparseWf resetWord d.regs && Memory.wf zeroByte d.ddr && Memory.wf erasedByte d.nor && Memory.wf zeroByte d.feram
    && Memory.wf zeroByte d.cobMem

/-- Nothing changed but words of the register file. -/
def State.onlyRegs (s t : State) : Prop := t = { s with dev := { s.dev with regs := t.dev.regs } }

/-- Nothing changed but words of the register file and what block GLB holds outside it. -/
def State.onlyRegsGlb (s t : State) : Prop := t = { s with dev := { s.dev with glb := t.dev.glb, regs := t.dev.regs } }

/-- Nothing changed but the pools and words of the register file. -/
def State.onlyPools (s t : State) : Prop := t = { s with dev := { s.dev with pools := t.dev.pools, regs := t.dev.regs } }

/-- Words of the register file outside a list of addresses stand as they were. -/
def State.wordsBut (s t : State) (as : List Nat) : Prop := ∀ a, a ∉ as → t.dev.word a = s.dev.word a

/-- Every byte of every memory stands as it was. -/
def State.memoriesStand (s t : State) : Prop :=
  (∀ a, t.dev.ddr.byte zeroByte a = s.dev.ddr.byte zeroByte a) ∧ (∀ a, t.dev.nor.byte erasedByte a = s.dev.nor.byte erasedByte a)
    ∧ (∀ a, t.dev.feram.byte zeroByte a = s.dev.feram.byte zeroByte a)
    ∧ (∀ a, t.dev.cobMem.byte zeroByte a = s.dev.cobMem.byte zeroByte a)

/-- A queue of commands that are all well formed. -/
def State.queueWf (s : State) : Bool := s.pending.all Instr.wf

end Sys2Proof.Machine
end

