-- ==== Sys2Proof/Certificates/Slice0/Obligations.lean ====
section
/-!
DEFINITION. The statements for the provers, by chapter. `Runs` says that a command answers a next state, and what that state holds.
-/
open Sys2Proof Sys2Proof.Machine

/-! ## The block -/

/-- A step runs the command at the front of the queue on the state with the rest of the queue. -/
def Obligations.StepRunsFront : Prop :=
  ∀ (c : Instr) (rest : List Instr) (s : State), step { s with pending := c :: rest } = exec c { s with pending := rest }

/-- Right after reset: start-up, with every register at the value of its fields' reset column, no memory written, no connection,
command, stream, session or cartridge, the position unset and the tape at rest; no command waits. Values without a column are the
log's (log 3). -/
def Obligations.ResetAsSpecified : Prop :=
  State.reset.pending = [] ∧ State.reset.dev.glb.dev = .startUp ∧ (∀ a, State.reset.dev.word a = resetWord a)
    ∧ State.reset.dev.ddr = [] ∧ State.reset.dev.nor = [] ∧ State.reset.dev.feram = [] ∧ State.reset.dev.hpt.conns = []
    ∧ State.reset.dev.cqm.cmds = [] ∧ State.reset.dev.cqm.log = [] ∧ State.reset.dev.strm.ctxs = [] ∧ State.reset.dev.plc.session = none
    ∧ State.reset.dev.cart.loaded = false ∧ State.reset.dev.pos.mode = .unset ∧ State.reset.dev.tce.v = 0
    ∧ State.reset.dev.canonical = true ∧ State.reset.queueWf = true

/-- Every step keeps the waiting commands well formed: no command adds one, and what is left of the queue is what stood behind the
front. -/
def Obligations.QueueStaysWellFormed : Prop :=
  ∀ (s t : State), s.queueWf = true → step s = .next t → t.queueWf = true ∧ t.pending = s.pending.tail

/-- The block never stops: any number of steps ends in a next state, the queue served in order; with none waiting and power on, each
step lets TIME go on by 1 ns (log 1). -/
def Obligations.RunsOnAndServesInOrder : Prop :=
  ∀ (n : Nat) (s : State), ∃ t, core.run n s = .next t ∧ t.pending = s.pending.drop n
    ∧ (s.pending = [] → s.dev.glb.dev ≠ .standby → s.dev.inReset = false →
      t.dev.time = (s.dev.time + n) % 2 ^ 48 ∧ s.onlyRegs t ∧ s.wordsBut t [F.posTimeTime.addr])

/-! ## Registers, sideband and balls -/

/-- Bits that no field occupies read as 0 and no write changes them; an address without a register reads as 0, and a write to it is
refused (R7). -/
def Obligations.ReservedReadsZero : Prop :=
  ∀ (d : Dev) (a : Nat),
    (rowOf a = none → d.readReg a = 0 ∧ ∀ p v m, d.writeReg p a v m = none)
    ∧ ∀ r i, rowOf a = some r → (∀ f ∈ r.fields, f.mask.getLsbD i = false) →
      (d.readReg a).getLsbD i = false ∧ ∀ w v m, (r.write w v m).getLsbD i = w.getLsbD i

/-- A masked write of a register that the path may write takes the addressed bits of its plain fields, clamped, and touches no other
register where the write has no further effect; a refused write changes nothing (R8, R9, R583). -/
def Obligations.RegisterWriteWholeOrNot : Prop :=
  ∀ (s : State) (p : Path) (addr : BitVec 24) (value mask : Word), s.dev.pathUp p = true → s.dev.calm = true →
    (s.dev.mayWrite p addr.toNat value mask = false →
      Runs (.registerWrite p addr value mask) s fun t => s.wordsBut t [C.hptTxSeg] ∧ s.memoriesStand t ∧ t.dev.glb = s.dev.glb)
    ∧ (s.dev.mayWrite p addr.toNat value mask = true → addr.toNat ∉ [0x0E0001, C.hptTxSeg] →
      (s.dev.store addr.toNat value mask).writeActs addr.toNat value mask (s.dev.word addr.toNat) = s.dev.store addr.toNat value mask →
      Runs (.registerWrite p addr value mask) s fun t =>
        t.dev.word addr.toNat = (s.dev.store addr.toNat value mask).word addr.toNat
        ∧ s.wordsBut t [addr.toNat, C.hptTxSeg] ∧ s.memoriesStand t)

/-- A masked write takes the addressed bits of a plain field and leaves the others as they were, in a register without clamping and
without an operation (R9). -/
def Obligations.PlainFieldTakesBits : Prop :=
  ∀ (s : State) (p : Path) (addr : BitVec 24) (value mask : Word) (r : RegRow) (f : FieldRow) (i : Nat),
    s.dev.pathUp p = true → s.dev.calm = true → s.dev.mayWrite p addr.toNat value mask = true → addr.toNat ≠ 0x0E0001 →
    rowOf addr.toNat = some r → f ∈ r.fields → f.acc = .rw ∨ f.acc = .mnt ∨ f.acc = .lop → (r.fields.all fun g => g.range.isNone) = true →
    (∀ w, crossClamp addr.toNat w = w) → addr.toNat ≠ 0x030001 →
    (∀ (d : Dev) (was : Word), d.writeActs addr.toNat value mask was = d) → f.lo ≤ i → i ≤ f.hi → i < 48 →
    Runs (.registerWrite p addr value mask) s fun t =>
      (t.dev.word addr.toNat).getLsbD i = (if mask.getLsbD i then value.getLsbD i else (s.dev.word addr.toNat).getLsbD i)

/-- A read of a register with RC fields gives its value, clears them and nothing else (R8), apart from the pools' peaks. -/
def Obligations.ReadClears : Prop :=
  ∀ (s : State) (p : Path) (addr : BitVec 24) (r : RegRow) (f : FieldRow), s.dev.pathUp p = true → s.dev.mayRead p addr.toNat = true →
    rowOf addr.toNat = some r → f ∈ r.fields → f.acc = .rc → ¬ (0x0A0008 ≤ addr.toNat ∧ addr.toNat < 0x0A000D) →
    f.lo ≤ f.hi → f.hi < 48 → (r.fields.all fun g => decide (g = f) || g.acc != .rc || (decide (g.lo ≤ g.hi) && (decide (g.hi < f.lo) || decide (f.hi < g.lo)))) = true →
    Runs (.rcFieldRead p addr) s fun t =>
      t.dev.get (f.at_ addr.toNat) = f.reset % 2 ^ (f.hi - f.lo + 1) ∧ s.wordsBut t [addr.toNat]
      ∧ t = { s with dev := { s.dev with regs := t.dev.regs, out := .regRead p addr.toNat (s.dev.readReg addr.toNat) :: s.dev.out } }

/-- A sideband read returns the status 0x00 and the register's six bytes, least significant first; a write is performed and its status
waits for the result command (R519, R526). The common commands of I3C give and take away the dynamic address and the in-band
interrupts and answer (R525), and a JTAG instruction is loaded, every other code as BYPASS, IDCODE answering with the
identification code (R570). -/
def Obligations.SidebandAndPortsTransact : Prop :=
  (∀ (s : State) (addr : BitVec 24) (value mask : Word), s.dev.glb.dev.hostUp = true → s.dev.inReset = false →
      s.dev.glb.straps.sbMode = false →
      (cobblerOnly addr.toNat = false →
        Runs (.sidebandRead addr true true) s fun t =>
          t.dev.out = .sideband (0x00 :: leBytes 6 (s.dev.readReg addr.toNat).toNat) :: s.dev.out
          ∧ t.dev.regs = (s.dev.clearRead addr.toNat).regs)
      ∧ (∀ e, s.dev.writeReg .sideband addr.toNat value mask = some e → s.dev.calm = true → e.calm = true →
        Runs (.sidebandWrite addr value mask true true) s fun t =>
          t.dev.pin = { e.pin with sbStatus := 0, sbLost := e.pin.sbLost || e.pin.sbUnread, sbUnread := true }
          ∧ (∀ a, a ≠ C.hptTxSeg → t.dev.word a = e.word a))
      ∧ (s.dev.pin.sbLost = false →
        Runs (.sidebandResult true) s fun t => t.dev.out = .sideband [BitVec.ofNat 8 s.dev.pin.sbStatus] :: s.dev.out
          ∧ t = { s with dev := { s.dev with out := t.dev.out, pin := { s.dev.pin with sbUnread := false, sbLost := false } } }))
  ∧ (∀ (s : State) (a : BitVec 7), s.dev.glb.dev ≠ .standby → s.dev.inReset = false → s.dev.glb.straps.sbMode = false →
      let pinOnly : State → Pin → Prop := fun t p => t = { s with dev := { s.dev with pin := p } }
      Runs (.i3cCommand (.setdasa a)) s (pinOnly · { s.dev.pin with dynAddr := some a })
      ∧ Runs (.i3cCommand (.entdaa a)) s (pinOnly · { s.dev.pin with dynAddr := some a })
      ∧ Runs (.i3cCommand .rstdaa) s (pinOnly · { s.dev.pin with dynAddr := none })
      ∧ Runs (.i3cCommand .enec) s (pinOnly · { s.dev.pin with ibiOn := true })
      ∧ Runs (.i3cCommand .disec) s (pinOnly · { s.dev.pin with ibiOn := false })
      ∧ (∀ what n, [6, 1, 1, 2, 2, 2][what]? = some n → Runs (.i3cCommand (.get what)) s fun t =>
          (∃ bs, bs.length = n ∧ t.dev.out = .sideband bs :: s.dev.out) ∧ t = { s with dev := { s.dev with out := t.dev.out, freeIx := t.dev.freeIx } })
      ∧ ∀ code : BitVec 6, Runs (.jtagInstruction code) s fun t =>
          t.dev.pin = { s.dev.pin with
            jtag := if jtagCodes.contains code.toNat then code else 0x3F, jtagDrives := jtagDriving.contains code.toNat && s.dev.glb.porstLow }
          ∧ t.dev.out = (if code = 1 then [.pin "IDCODE" idcode] else []) ++ s.dev.out
          ∧ t = { s with dev := { s.dev with pin := t.dev.pin, out := t.dev.out } })

/-- A level at a ball shows in GPIO_IN with CHANGED, unless a window hides it (R553, R556); a change of function opens the ball's
window and the end of the window closes it. An interlock that opens with the tape at rest is noted; with the tape moving the tape
is stopped, unless a reaction stops it already (R555). An interlock that closes is noted too. -/
def Obligations.BallsAndInterlocksAct : Prop :=
  (∀ (s : State) (i : Nat) (level : Bool), i < 16 → s.dev.glb.dev ≠ .standby → s.dev.inReset = false →
      (bitAt (s.dev.get F.pinStatusHiz) i = false → bitAt (s.dev.get F.pinGpioInIn) i = !level →
        Runs (.gpioInputChange i level) s fun t => bitAt (t.dev.get F.pinGpioInIn) i = level
          ∧ bitAt (t.dev.get F.pinGpioInChanged) i = true ∧ s.onlyRegs t ∧ s.wordsBut t [F.pinGpioInIn.addr])
      ∧ (bitAt (s.dev.get F.pinStatusHiz) i = true → Runs (.gpioInputChange i level) s fun t =>
          t.dev.pin.raw.getLsbD i = level ∧ t.dev.regs = s.dev.regs)
      ∧ (bitAt (s.dev.get F.pinStatusHiz) i = true → Runs (.pinWindowEnd i) s fun t =>
          bitAt (t.dev.get F.pinStatusHiz) i = false ∧ bitAt (t.dev.get F.pinGpioInIn) i = s.dev.pin.raw.getLsbD i)
      ∧ (s.dev.glb.dev = .maintenance → s.dev.calm = true → bitAt (s.dev.get F.pinStatusHiz) i = false → s.dev.get (F.pinGpioCfgRole.ix i) = 0 →
        Runs (.pinFunctionChange i 1 0xF) s fun t => t.dev.get (F.pinGpioCfgRole.ix i) = 1 ∧ bitAt (t.dev.get F.pinStatusHiz) i = true
          ∧ t.dev.get F.pinGpioInIn = s.dev.get F.pinGpioInIn))
  ∧ (∀ (s : State) (loader : Bool), (s.dev.roleBall (if loader then 4 else 3)).isSome = true → s.dev.glb.dev ≠ .standby →
      s.dev.inReset = false →
      let bit := if loader then 2 else 1
      Runs (.interlockChange loader false) s (fun t => t.dev.glb.interlock = s.dev.glb.interlock ||| bit)
      ∧ Runs (.interlockChange loader true) s (fun t => t.dev.glb.interlock = s.dev.glb.interlock - (s.dev.glb.interlock &&& bit))
      ∧ (s.dev.quiet = true → s.dev.glb.interlock = 0 → s.dev.tce.v = 0 → s.dev.tce.a = 0 → s.dev.glb.dev ≠ .streaming →
        Runs (.interlockChange loader false) s fun t => t.dev.glb = { s.dev.glb with interlock := bit } ∧ t.dev.tce = s.dev.tce)
      ∧ (s.dev.quiet = true → s.dev.glb.interlock = 0 → s.dev.tce.v ≠ 0 → s.dev.tce.reaction = 0 → s.dev.tce.stopping = false → s.dev.flag F.mdrStatusBrake = false →
        Runs (.interlockChange loader false) s fun t => t.dev.glb = { s.dev.glb with interlock := bit }
          ∧ t.dev.tce = { s.dev.tce with stopping := true, target := .stop, held := none, replanned := true }))

/-- The write and read pairs of a head channel lie in the row and the columns that its number gives, and the rows between them are VSS
(R543). -/
def Obligations.HeadBallsPlaced : Prop :=
  (∀ (n : Nat) (neg : Bool), n < 256 →
    let m := n / 32
    let r := n % 32 / 4
    let p := n % 32 % 4
    netAt (1 + r + r / 2) (8 * m + 2 * p + 1 + b2n neg) = .signal "WD" 0 n neg
    ∧ netAt (14 + r + r / 2) (8 * m + 2 * p + 1 + b2n neg) = .signal "RD" 0 n neg)
  ∧ ∀ row col, row ∈ [3, 6, 9, 12, 13, 16, 19, 22, 25] → 1 ≤ col → col ≤ 64 → netAt row col = .vss

/-- The lowest-numbered ball of those that hold a role from 2 to 7 serves it; another one drives nothing and is only sampled, as with
role 0 (R554). -/
def Obligations.RoleServedByLowest : Prop :=
  ∀ (d : Dev) (r i : Nat), 2 ≤ r → r ≤ 7 →
    ((∃ j, j < 16 ∧ d.ballRole j = r) → ∃ j, d.roleBall r = some j)
    ∧ (d.roleBall r = some i → i < 16 ∧ d.ballRole i = r ∧ (∀ j, j < i → d.ballRole j ≠ r)
      ∧ ∀ j, d.ballRole j = r → j ≠ i → d.driveBall j = d)

/-! ## Start-up, recovery and standby -/

/-- An attempt that reaches step 2 counts the boot once, whatever follows: from the higher of two counter copies that check, and it
stays at its highest value (R473, R511). -/
def Obligations.BootCounterCounts : Prop :=
  ∀ (d : Dev) (env : StartEnv) (cause k c0 c1 : Nat) (first : Bool), d.glb.straps.testMode = 0 → env.pllLocks = true →
    d.counterCopy 0 = some c0 → d.counterCopy 1 = some c1 →
    (d.attempt env cause k first).glb.bootCount = min (max c0 c1 + 1) 0xFFFFFFFF

/-- An attempt of the start-up sequence begins with its number and cause in GLB.BOOT and, in no factory test mode, ends in idle or in
recovery with the wait of R474: at the release of PORST_N (R471), at the end of the rails' wait (R486), at the end of a brown-out
(R561) and at the retries of R474 and R476. -/
def Obligations.AttemptEndsIdleOrRecovery : Prop :=
  ∀ (s : State) (straps : Straps) (env : StartEnv),
    let began : Nat → Nat → State → Prop := fun k cause t => t.dev.get F.glbBootAttempt = k ∧ t.dev.get F.glbBootStartCause = cause
    let ended : State → Prop := fun t => s.dev.glb.standbyHeld = false → s.dev.hpt.conns = [] → t.dev.glb.straps.testMode = 0 →
      t.dev.glb.dev = .idle ∨ t.dev.glb.dev = .recovery
    (s.dev.glb.porstLow = true → s.dev.glb.thermalHold = false → s.dev.glb.brownOut = false →
      Runs (.porstRelease straps env) s fun t => began 1 0 t ∧ ended t ∧ t.dev.glb.porstLow = false ∧ t.dev.glb.straps = straps)
    ∧ (s.dev.glb.dev = .standby → s.dev.glb.waking = true → Runs (.railWaitEnd env) s fun t =>
      began 1 (s.dev.get F.glbBootStartCause) t ∧ ended t ∧ t.dev.glb.waking = false)
    ∧ (s.dev.glb.brownOut = true → s.dev.glb.porstLow = false → s.dev.glb.thermalHold = false →
      Runs (.brownOutRelease env) s fun t => began 1 0 t ∧ ended t ∧ t.dev.glb.brownOut = false)
    ∧ (s.dev.glb.dev = .recovery → Runs (.retryNow env) s fun t => began 1 5 t ∧ ended t)
    ∧ (s.dev.glb.dev = .recovery → s.dev.glb.retryHeld = false → Runs (.retryTimer env) s fun t =>
      began (min (s.dev.get F.glbBootAttempt + 1) 255) 5 t ∧ ended t)

/-- The waits of R474: after attempt k fails, the device waits min(2^(k-1), 60) s; a retry counts up and begins with the other slot.
In recovery the end of the hold starts the wait anew; in recovery and maintenance SET_PREF writes the preference to FeRAM (R476,
R499, R510). -/
def Obligations.RecoveryRetriesAndSettings : Prop :=
  (∀ (s : State) (env : StartEnv), s.dev.glb.dev = .recovery → s.dev.glb.retryHeld = false → s.dev.glb.straps.testMode = 0 →
      env.pllLocks = false →
      Runs (.retryTimer env) s fun t =>
        t.dev.glb.dev = .recovery ∧ t.dev.get F.glbBootAttempt = min (s.dev.get F.glbBootAttempt + 1) 255
        ∧ t.dev.get F.glbBootBackoffS = min (2 ^ min (s.dev.get F.glbBootAttempt) 6) 60
        ∧ t.dev.get F.glbBootStartCause = 5 ∧ t.dev.glb.firstSlotB = !s.dev.glb.firstSlotB)
  ∧ (∀ (s : State) (slotB : Bool), s.dev.glb.dev = .recovery ∨ s.dev.glb.dev = .maintenance →
      (s.dev.glb.dev = .recovery → s.dev.glb.retryHeld = true → Runs .retryHoldTimeout s fun t => t.dev.glb.retryHeld = false ∧ t.dev.get F.glbBootRetryHeld = 0
        ∧ t = { s with dev := { s.dev with glb := { s.dev.glb with retryHeld := false }, regs := t.dev.regs } }
        ∧ s.wordsBut t [F.glbBootRetryHeld.addr])
      ∧ Runs (.setPref slotB) s fun t => t.dev.prefSlot = slotB ∧ t.dev.get F.glbBootPref = b2n slotB
        ∧ (∀ a, a ≠ 0x10010 → t.dev.feram.byte zeroByte a = s.dev.feram.byte zeroByte a)
        ∧ t = { s with dev := { s.dev with feram := t.dev.feram, regs := t.dev.regs } } ∧ s.wordsBut t [F.glbBootPref.addr])

/-- PORST_N, VAON and a brown-out reset the units: start-up is entered, nothing of RAM or of the units is left, and NOR and FeRAM
stand, but for the bytes that a NOR operation was writing when it was cut short (R26, R469, R561). -/
def Obligations.ResetsLeaveNonvolatile : Prop :=
  ∀ (s : State),
    let torn : Nat → Prop := fun a => ∃ op, s.dev.glb.norOp = some op ∧ op.addr ≤ a
      ∧ (op.op = 1 ∧ a < op.addr + 256 ∨ op.op = 2 ∧ a < op.addr + 65536)
    let kept : State → Prop := fun t => (∀ a, ¬ torn a → t.dev.nor.byte erasedByte a = s.dev.nor.byte erasedByte a)
      ∧ t.dev.feram = s.dev.feram ∧ t.dev.ddr = [] ∧ t.dev.hpt.conns = [] ∧ t.dev.cqm.cmds = [] ∧ t.dev.glb.dev = .startUp
    Runs .porstAssert s (fun t => kept t ∧ t.dev.glb.porstLow = true ∧ t.dev.get F.pinGpioInIn = s.dev.get F.pinGpioInIn)
    ∧ Runs .vaonRise s (fun t => kept t ∧ t.dev.glb.porstLow = true ∧ t.dev.glb.railEn = true)
    ∧ (s.dev.glb.dev ≠ .standby → s.dev.glb.porstLow = false → s.dev.glb.brownOut = false →
      Runs .brownOut s fun t => kept t ∧ t.dev.glb.brownOut = true ∧ t.dev.glb.prev = s.dev.glb.dev
        ∧ t.dev.glb.changes = min (s.dev.glb.changes + 1) 0xFFFFFFFF)

/-- An accepted standby request, from the register or from the STANDBY_REQ role, powers the core down: RAIL_EN goes inactive, the wake
settings go to the always-on domain, and NOR and FeRAM stand (R484, R485). A wake event enabled at entry raises RAIL_EN and
records its cause; nothing else changes (R486). -/
def Obligations.StandbyAndWake : Prop :=
  (∀ (s : State), s.dev.glb.dev = .idle →
      let off : State → Prop := fun t =>
        t.dev.glb.dev = .standby ∧ t.dev.glb.prev = .idle ∧ t.dev.glb.railEn = false ∧ Out.pin "RAIL_EN" 0 ∈ t.dev.out
        ∧ t.dev.glb.wake = ⟨s.dev.get F.glbStandbyRailMs, s.dev.get F.glbStandbyWakeS, s.dev.flag F.glbStandbyWakeCart,
            s.dev.flag F.glbStandbyWakePin⟩
        ∧ t.dev.hpt.conns = [] ∧ t.dev.feram = s.dev.feram ∧ (s.dev.glb.norOp = none → t.dev.nor = s.dev.nor)
      Runs .standbyRequest s off ∧ ((s.dev.roleBall 6).isSome = true → s.dev.inReset = false → Runs (.standbyReq true) s off))
  ∧ (∀ (s : State), s.dev.glb.dev = .standby → s.dev.glb.waking = false →
      let up : Nat → State → Prop := fun cause t =>
        t.dev.glb = { s.dev.glb with railEn := true, waking := true } ∧ t.dev.get F.glbBootStartCause = cause
        ∧ t.dev.out = .pin "RAIL_EN" 1 :: s.dev.out
        ∧ t = { s with dev := { s.dev with glb := t.dev.glb, out := t.dev.out, regs := t.dev.regs } }
        ∧ s.wordsBut t [F.glbBootStartCause.addr]
      (s.dev.glb.wake.wakePin = true → (s.dev.roleBall 5).isSome = true → Runs .wakeN s (up 1))
      ∧ (s.dev.glb.wake.wakeCart = true → (∃ i, s.dev.roleBall 2 = some i ∧ 12 ≤ i) → Runs .wakeCartridge s (up 2))
      ∧ (s.dev.glb.wake.wakeS ≠ 0 → Runs .wakeTimer s (up 3)))

/-- GO starts a NOR operation in recovery and maintenance: reads and SFDP reads anywhere, programs and erases outside the running slot
(R500); in recovery an erase or program holds the retry timer (R476). When a NOR operation is done, a program has cleared bits of
its page and no other byte, an erase has set its block to ones, a read stands in GLB.NOR_BUF, and DONE is 1 with ERR 0; one that
failed ends with ERR 1 (R500). -/
def Obligations.NorOperations : Prop :=
  (∀ (s : State) (addr : BitVec 32) (page : List Byte), s.dev.glb.dev = .recovery ∨ s.dev.glb.dev = .maintenance → s.dev.glb.norOp = none →
      let started : Nat → List Byte → State → Prop := fun op page t =>
        let holds := decide (s.dev.glb.dev = .recovery) && (op == 1 || op == 2)
        t.dev.glb = { s.dev.glb with norOp := some ⟨op, addr.toNat, page⟩, retryHeld := s.dev.glb.retryHeld || holds }
        ∧ (holds = true → t.dev.get F.glbBootRetryHeld = 1) ∧ t.dev.out = .nor op addr.toNat :: s.dev.out
        ∧ t.dev.get F.glbNorCtrlOp = op ∧ t.dev.get F.glbNorCtrlAddr = addr.toNat
        ∧ t = { s with dev := { s.dev with glb := t.dev.glb, out := t.dev.out, regs := t.dev.regs } }
        ∧ s.wordsBut t (F.glbNorCtrlOp.addr :: if holds then [F.glbBootRetryHeld.addr] else [])
      (addr.toNat % 256 = 0 → Runs (.norReadPage addr) s (started 0 []) ∧ Runs (.norReadSfdp addr page) s (started 3 page))
      ∧ (addr.toNat % 256 = 0 → s.dev.touchesRunning addr.toNat = false → Runs (.norProgramPage addr) s (started 1 []))
      ∧ (addr.toNat % 65536 = 0 → s.dev.touchesRunning addr.toNat = false → Runs (.norEraseBlock addr) s (started 2 [])))
  ∧ (∀ (s : State) (op : NorOp), s.dev.glb.norOp = some op →
      let ends : State → Prop := fun t => t.dev.glb = { s.dev.glb with norOp := none } ∧ t.dev.get F.glbNorCtrlDone = 1
        ∧ t.dev.get F.glbNorCtrlErr = 0
      (op.op = 1 → Runs (.norOperationDone false) s fun t => ends t
        ∧ (∀ i, i < 256 → t.dev.nor.byte erasedByte (op.addr + i)
          = s.dev.nor.byte erasedByte (op.addr + i) &&& BitVec.ofNat 8 (s.dev.get (F.glbNorBufData.ix (i / 4)) / 256 ^ (i % 4)))
        ∧ (∀ a, a < op.addr ∨ op.addr + 256 ≤ a → t.dev.nor.byte erasedByte a = s.dev.nor.byte erasedByte a)
        ∧ s.wordsBut t [F.glbNorCtrlDone.addr])
      ∧ (op.op = 2 → Runs (.norOperationDone false) s fun t => ends t
        ∧ (∀ i, i < 65536 → t.dev.nor.byte erasedByte (op.addr + i) = 0xFF)
        ∧ (∀ a, a < op.addr ∨ op.addr + 65536 ≤ a → t.dev.nor.byte erasedByte a = s.dev.nor.byte erasedByte a)
        ∧ s.wordsBut t [F.glbNorCtrlDone.addr])
      ∧ (op.op = 0 → Runs (.norOperationDone false) s fun t => ends t ∧ s.onlyRegsGlb t
        ∧ ∀ i, i < 64 → t.dev.get (F.glbNorBufData.ix i) = ofLe (s.dev.norBytes (op.addr + 4 * i) 4))
      ∧ Runs (.norOperationDone true) s fun t => t.dev.glb.norOp = none ∧ t.dev.get F.glbNorCtrlDone = 1 ∧ t.dev.get F.glbNorCtrlErr = 1
        ∧ t.dev.ddr = s.dev.ddr ∧ t.dev.feram = s.dev.feram)

/-- A junction sample shows the highest of the eight sensors and which one it is (R533): below TJ_WARN and TJ_CRIT nothing else
happens. At 125 °C or above every unit is reset and held. A rail sample shows each rail's voltage; before the host ports are up, a
rail below its range for 1 ms is a fault that GLB.RAIL and GLB.FAULT show (R534, R559). A poll of the HFM temperatures asks every
enabled module: it shows VALID and TEMP of one that answers and clears VALID of the others, in loaded and streaming (R534). A
module that is not enabled is not asked. -/
def Obligations.MeasurementsShown : Prop :=
  (∀ (s : State) (sensors : List Int) (env : StartEnv) (n : Nat) (tj : Int), sensors.length = 8 →
      sensors[n]? = some tj → (∀ m u, sensors[m]? = some u → u ≤ tj ∧ (m < n → u < tj)) →
      s.dev.glb.dev ≠ .standby → s.dev.inReset = false → s.dev.calm = true →
      (tj < s.dev.get F.glbThermalTjWarn * 4 → tj < s.dev.get F.glbThermalTjCrit * 4 → tj < 500 →
        Runs (.thermalSample sensors env) s fun t =>
          t.dev.get F.glbThermalTjNow = unsigned 12 tj ∧ t.dev.get F.glbThermalHotSensor = n
          ∧ t.dev.glb.dev = s.dev.glb.dev ∧ s.wordsBut t [F.glbThermalTjNow.addr, C.hptTxSeg] ∧ s.memoriesStand t)
      ∧ (500 ≤ tj → Runs (.thermalSample sensors env) s fun t =>
          t.dev.glb.thermalHold = true ∧ t.dev.glb.dev = .startUp ∧ t.dev.get F.glbThermalTripSeen = 1 ∧ t.dev.ddr = []))
  ∧ (∀ (s : State) (mv : List (BitVec 16)), mv.length = 8 → s.dev.glb.dev ≠ .standby → s.dev.inReset = false → s.dev.calm = true →
      (Runs (.railSample mv []) s fun t =>
        (∀ k v, mv[k]? = some v → t.dev.get (F.glbRailMv.ix k) = v.toNat)
        ∧ s.wordsBut t (C.hptTxSeg :: (List.range 8).map fun k => F.glbRailMv.addr + k) ∧ s.memoriesStand t)
      ∧ (s.dev.glb.dev.hostUp = false → (∀ v, mv[0]? = some v → v.toNat * 10 < 7275) →
        Runs (.railSample mv [true]) s fun t => t.dev.get F.glbRailLowSeen = 1 ∧ t.dev.get F.glbFaultRail = 1))
  ∧ (∀ (s : State) (m : Nat) (v : BitVec 10), m < 8 → s.dev.glb.dev = .loaded ∨ s.dev.glb.dev = .streaming →
      Runs (.hfmTempPoll [(m, some v)]) s fun t =>
        (s.dev.moduleOn m = true → t.dev.get (F.glbHfmTempValid.ix m) = 1 ∧ t.dev.get (F.glbHfmTempTemp.ix m) = v.toNat)
        ∧ (s.dev.moduleOn m = false → t.dev.get (F.glbHfmTempValid.ix m) = 0)
        ∧ (∀ k, k < 8 → k ≠ m → t.dev.get (F.glbHfmTempValid.ix k) = 0)
        ∧ t = { s with dev := { s.dev with chan := t.dev.chan, out := t.dev.out, regs := t.dev.regs } }
        ∧ s.wordsBut t ((List.range 8).map fun k => F.glbHfmTempValid.addr + k))

/-! ## Host ports -/

/-- Neighbour discovery, MLD and echo (R263, R264): a solicitation of an address in use is answered with an advertisement, an
advertisement puts its neighbour first in a cache of 128 entries, a query is answered with a report, an echo request to the port
with a reply; an echo request to another destination is dropped and counted. -/
def Obligations.NeighborsAnswered : Prop :=
  ∀ (s : State) (port : Nat) (src target : IPv6) (mac : Word) (body : List Byte), s.dev.glb.dev.hostUp = true →
    port < s.dev.hpt.ports.length →
    let emits : State → Out → Prop := fun t o => t = { s with dev := { s.dev with out := o :: s.dev.out } }
    (target ∈ s.dev.addressesInUse port →
      Runs (.neighborSolicitation port target src mac 255) s
        (emits · (if src = 0 then s.dev.icmpTo port 136 target allNodes (groupMac allNodes) (ipBytes target)
          else s.dev.icmpTo port 136 target src mac (ipBytes target))))
    ∧ (Runs (.neighborAdvertisement port target mac 255) s fun t =>
        (t.dev.port port).neighbors.head? = some ⟨target, mac⟩ ∧ (t.dev.port port).neighbors.length ≤ 128
        ∧ (∀ p, p ≠ port → t.dev.port p = s.dev.port p)
        ∧ t = { s with dev := { s.dev with hpt := { s.dev.hpt with ports := t.dev.hpt.ports } } })
    ∧ Runs (.mldQuery port src) s (emits · (s.dev.icmpTo port 143 (s.dev.linkLocal port) mldRouters (groupMac mldRouters)
        ((s.dev.groups port).flatMap ipBytes)))
    ∧ (target ∈ s.dev.addressesInUse port ++ s.dev.groups port → body.length ≤ 1280 →
      Runs (.echoRequest port src target body) s fun t => ∃ f, emits t (.icmp port 129 src body f))
    ∧ (target ∉ s.dev.addressesInUse port ++ s.dev.groups port →
      Runs (.echoRequest port src target body) s fun t => t.dev.word C.hptDropFrame = s.dev.word C.hptDropFrame + 1
        ∧ s.onlyRegs t ∧ s.wordsBut t [C.hptDropFrame])

/-- Priority flow control (R261): a priority pauses for quanta and goes on at 0 or when they run out, a storm ends its pause for good
and is shown and logged; other pause frames and frames that fail a check are dropped and counted (R259, R266). Links (R261, R263,
R291): a link that comes up shows, forgets storms and begins Duplicate Address Detection of the port's addresses; one that goes
down shows and is logged, and connections stay open; the end of the detection takes an address into use, or shows and logs it as
duplicate. -/
def Obligations.PausesAndLinks : Prop :=
  (∀ (s : State) (port prio : Nat) (q : BitVec 16), s.dev.glb.dev.hostUp = true → port < s.dev.hpt.ports.length → prio < 8 →
      let shown : State → Prop := fun t =>
        t.dev.get (F.hptPortStatusPfcPaused.ix port) = b2n (!(t.dev.port port).paused.isEmpty)
      let portsOnly : State → Prop := fun t =>
        t = { s with dev := { s.dev with hpt := { s.dev.hpt with ports := t.dev.hpt.ports }, regs := t.dev.regs } }
          ∧ s.wordsBut t [(F.hptPortStatusPfcPaused.ix port).addr]
      (bitAt (s.dev.get F.hptPfcCfgPfcEn) prio = true → (s.dev.port port).storms.contains prio = false →
        Runs (.pfcFrame port [(prio, q)]) s fun t => ((t.dev.port port).paused.contains prio = (q != 0)) ∧ shown t ∧ portsOnly t)
      ∧ (Runs (.pfcPauseEnd port prio) s fun t => (t.dev.port port).paused.contains prio = false ∧ shown t ∧ portsOnly t)
      ∧ ((s.dev.port port).paused.contains prio = true →
        Runs (.pfcStorm port prio) s fun t => (t.dev.port port).paused.contains prio = false
          ∧ (t.dev.port port).storms.contains prio = true ∧ shown t ∧ t.dev.get (F.hptPortStatusPfcStormSeen.ix port) = 1
          ∧ (t.dev.cqm.log.head?.map LogEntry.status) = some 0x0304 ∧ s.memoriesStand t)
      ∧ (Runs (.pauseFrame port) s fun t => t.dev.word C.hptDropFrame = s.dev.word C.hptDropFrame + 1
          ∧ s.onlyRegs t ∧ s.wordsBut t [C.hptDropFrame])
      ∧ (∀ c, c ∉ [DropCause.fec, .hopLimit, .otherIcmp] →
        Runs (.receivedFrameDropped port c) s fun t => t.dev.word C.hptDropFrame = s.dev.word C.hptDropFrame + 1
          ∧ s.onlyRegs t ∧ s.wordsBut t [C.hptDropFrame])
      ∧ (∀ c ∈ [DropCause.hopLimit, .otherIcmp], Runs (.receivedFrameDropped port c) s (· = s))
      ∧ (port < 4 → Runs (.receivedFrameDropped port .fec) s fun t => t.dev.word C.hptFecUncorr = s.dev.word C.hptFecUncorr + 1
          ∧ t.dev.get (F.hptPortStatusFecUncorrSeen.ix port) = 1 ∧ s.onlyRegs t
          ∧ s.wordsBut t [C.hptFecUncorr, (F.hptPortStatusFecUncorrSeen.ix port).addr]))
  ∧ (∀ (s : State) (p : Nat), p < 4 → s.dev.hpt.ports.length = 4 →
      (s.dev.glb.dev.hostUp = true → s.dev.portExists p = true →
        Runs (.linkUp p) s fun t => t.dev.get (F.hptPortStatusLinkUp.ix p) = 1 ∧ t.dev.get (F.hptPortStatusAddrOk.ix p) = 0
          ∧ (t.dev.port p).storms = [] ∧ (t.dev.port p).dadLocal = true
          ∧ (t.dev.port p).dadGlobal = s.dev.flag (F.hptIpAddrEn.ix (4 * p)) ∧ t.dev.addressesInUse p = []
          ∧ (∀ a ∈ s.dev.addresses p, ∃ f, Out.icmp p 135 (solicitedNode a) (ipBytes a) f ∈ t.dev.out)
          ∧ t.dev.hpt.conns = s.dev.hpt.conns ∧ s.wordsBut t [(F.hptPortStatusLinkUp.ix p).addr] ∧ s.memoriesStand t)
      ∧ (s.dev.flag (F.hptPortStatusLinkUp.ix p) = true →
        Runs (.linkDown p) s fun t => t.dev.get (F.hptPortStatusLinkUp.ix p) = 0 ∧ t.dev.get (F.hptPortStatusLinkDownSeen.ix p) = 1
          ∧ (t.dev.cqm.log.head?.map LogEntry.status) = some 0x0307
          ∧ (t.dev.hpt.conns.map fun k => (k.id, k.st)) = (s.dev.hpt.conns.map fun k => (k.id, k.st)) ∧ s.memoriesStand t)
      ∧ ((s.dev.port p).dadLocal = true →
        (Runs (.dadTimeout p false false) s fun t => s.dev.linkLocal p ∈ t.dev.addressesInUse p ∧ t.dev.regs = s.dev.regs)
        ∧ (Runs (.dadTimeout p false true) s fun t => (t.dev.port p).dupLocal = true ∧ (t.dev.port p).dadLocal = false
            ∧ t.dev.get (F.hptPortStatusDadFailSeen.ix p) = 1 ∧ (t.dev.cqm.log.head?.map LogEntry.status) = some 0x0305))
      ∧ ((s.dev.port p).dadGlobal = true → s.dev.flag (F.hptIpAddrEn.ix (4 * p)) = true →
        Runs (.dadTimeout p true false) s fun t => s.dev.globalIp p ∈ t.dev.addressesInUse p
          ∧ t.dev.get (F.hptPortStatusAddrOk.ix p) = 1 ∧ s.memoriesStand t))

/-- Segments of a connection and a SYN (R268, R270 to R279): a SYN sets a connection up and is answered by a SYN_ACK; the ACK of the
SYN_ACK establishes it, and an ACK of a segment frees it with its message; a FIN in sequence leads to CLOSE_WAIT; an RST closes
the connection. -/
def Obligations.ConnectionsFollow : Prop :=
  ∀ (s : State) (g : Seg) (k : Conn), s.dev.hears g = true → g.ver = 1 → g.payLen.toNat = g.payload.length → g.sack = [] →
    s.dev.glb.standbyHeld = false →
    (∀ c, g.typ = 1 → g.dstConn = 0xFFFF → 8 ≤ g.payload.length → s.dev.calm = true →
      (s.dev.hpt.conns.any fun k => k.host == g.src && k.hostId == g.srcConn.toNat) = false →
      (s.dev.cqm.queues.any fun q => q.orphanOf g.src g.srcConn.toNat) = false →
      ((List.range 64).find? fun i => !s.dev.hpt.conns.any fun k => k.id == i) = some c → s.dev.ctrlOpen g.port g.src = true →
      Runs (.syn g) s fun t =>
        (∃ y, t.dev.hpt.conns.getLast? = some y ∧ t.dev.hpt.conns.length = s.dev.hpt.conns.length + 1 ∧ y.id = c ∧ y.st = .synRcvd
          ∧ y.host = g.src ∧ y.hostId = g.srcConn.toNat ∧ y.rcvNext = g.seq + 1 ∧ y.queue = s.dev.cqm.nextQ
          ∧ y.epoch = s.dev.glb.bootCount % 65536 * 65536 + (s.dev.setupsOf c + 1) % 65536)
        ∧ (∃ pcp flow r f, Out.segment pcp flow r f ∈ t.dev.out ∧ r.typ = 2 ∧ r.src = g.src ∧ r.srcConn = BitVec.ofNat 16 c ∧ r.ack = g.seq + 1)
        ∧ t.dev.cqm.queues.length = s.dev.cqm.queues.length + 1 ∧ s.memoriesStand t)
    ∧ (s.dev.hpt.conns = [k] → k.id = g.dstConn.toNat → k.epoch = g.epoch.toNat →
      (g.typ = 3 → k.st = .synRcvd → g.ack = k.sndUna + 1 →
        Runs (.ack g) s fun t => (t.dev.hpt.conns.map fun y => (y.id, y.st, y.sndUna)) = [(k.id, .established, g.ack)] ∧ s.memoriesStand t)
      ∧ (∀ x m h, g.typ = 3 → k.st = .established → k.tx = [x] → 0 < x.sends → x.typ ≠ 4 → x.last = true → k.msgs = [m] → x.msg = m.id →
        x.typ = m.typ → m.status = some h → g.ack = k.sndUna + 1 →
        Runs (.ack g) s fun t => (t.dev.hpt.conns.map fun y => (y.id, y.tx, y.msgs, y.sndUna)) = [(k.id, [], [], g.ack)]
          ∧ t.dev.cqm.cmds = s.dev.cqm.cmds.filter (fun c => c.h != h) ∧ s.memoriesStand t)
      ∧ (g.typ = 5 → Runs (.rst g) s fun t => t.dev.hpt.conns = []
        ∧ t.dev.word C.hptReset = s.dev.word C.hptReset + 1)
      ∧ (g.typ = 4 → k.st = .established → k.rcv = [] → k.tx = [] → g.seq = k.rcvNext → before48 g.seq k.rcvEdge = true →
        g.ack = k.sndUna → s.dev.frozen k.queue = false →
        Runs (.fin g) s fun t => (t.dev.hpt.conns.map fun y => (y.id, y.st, y.rcvNext)) = [(k.id, .closeWait, k.rcvNext + 1)]
          ∧ t.dev.word C.hptRxSeg = s.dev.word C.hptRxSeg + 1 ∧ s.memoriesStand t))

/-- Messages of a connection are handed over in sequence (R271): a CMD of one segment becomes a queued command (R304), and a
management request is answered at once by a MGMT_RSP (R289, R290). -/
def Obligations.MessagesHandedOver : Prop :=
  ∀ (s : State) (g : Seg) (k : Conn) (c : Cmd), s.dev.hears g = true → g.ver = 1 → g.payLen.toNat = g.payload.length → g.sack = [] →
    s.dev.glb.standbyHeld = false → s.dev.hpt.conns = [k] → k.id = g.dstConn.toNat → k.epoch = g.epoch.toNat → k.st = .established →
    k.rcv = [] → k.tx = [] → k.grans = [] → g.seq = k.rcvNext → before48 g.seq k.rcvEdge = true → g.ack = k.sndUna →
    g.first = true → g.last = true → g.msgOff = 0 → g.msgLen.toNat = g.payload.length →
    let newest : State → Nat × List Byte → Prop := fun t m =>
      (t.dev.hpt.conns.map fun y => y.msgs.getLast?.map fun x => (x.typ, x.payload.head)) = [some m]
    let op := fieldAt g.payload 4 1
    (g.typ = 0x10 → g.payload.length = 32 → isDataOp op = true →
      c = ⟨s.dev.cqm.nextH, k.queue, fieldAt g.payload 0 4, op, fieldAt g.payload 5 1 % 8, fieldAt g.payload 6 2, g.payload,
        fieldAt g.payload 12 4, [], .queued, s.dev.frozen k.queue, true, false, false,
        if op = opRead ∨ op = opLocate then fieldAt g.payload 16 6 else 0⟩ →
      s.dev.glb.dev ≠ .maintenance → s.dev.acceptCheck c k.id 32 = none →
      Runs (.cmd g) s fun t => t.dev.cqm.cmds = s.dev.cqm.cmds ++ [c] ∧ t.dev.word C.cqmAccepted = s.dev.word C.cqmAccepted + 1
        ∧ t.dev.word C.hptRxSeg = s.dev.word C.hptRxSeg + 1 ∧ (t.dev.hpt.conns.map Conn.rcvNext) = [k.rcvNext + 1] ∧ s.memoriesStand t)
    ∧ (g.typ = 0x20 → s.dev.cobblerBusy = none → s.dev.inReset = false →
      let req := fieldAt g.payload 0 2
      let a := fieldAt g.payload 4 3
      (g.payload.length = 8 → fieldAt g.payload 2 1 = 1 → fieldAt g.payload 3 1 = 1 → cobblerOnly a = false →
        Runs (.mgmtReadRequest g) s fun t => (∃ w, newest t (typMgmtRsp, mgmtBytes req stGood 1 0 [w]) ∧ (a < 0x080000 → w = s.dev.readReg a)) ∧ s.memoriesStand t)
      ∧ (let v := BitVec.ofNat 48 (fieldAt g.payload 8 6)
        let m := BitVec.ofNat 48 (fieldAt g.payload 14 6)
        g.payload.length = 20 → fieldAt g.payload 2 1 = 2 → fieldAt g.payload 3 1 = 1 → a ∉ [0x0E0001, C.hptRxSeg, C.hptTxSeg] →
        (∀ (d : Dev) (was : Word), d.writeActs a v m was = d) →
        (s.dev.mayWrite .rrt a v m = true → Runs (.mgmtWriteRequest g) s fun t => newest t (typMgmtRsp, mgmtBytes req stGood 1 0 [])
          ∧ t.dev.word a = (s.dev.store a v m).word a ∧ s.wordsBut t [a, C.hptRxSeg, C.hptTxSeg] ∧ s.memoriesStand t)
        ∧ (s.dev.mayWrite .rrt a v m = false → Runs (.mgmtWriteRequest g) s fun t => newest t (typMgmtRsp, mgmtBytes req stDenied 0 0 [])
          ∧ s.wordsBut t [C.hptRxSeg, C.hptTxSeg] ∧ s.memoriesStand t)))

/-- The timers of a connection (R275, R280, R283, R285, R288): an acknowledgement is sent at the end of ACK_DELAY, keepalive and
credit probes ask for one, an unanswered SYN_ACK and segment are sent again, and their limits close or reset the connection.
SEGMENT_TRANSMIT sends a waiting control segment first, else the segment at the read pointer of a connection that may send (R280,
R282); an orphan that expires leaves the log entry of its discarded commands (R278). -/
def Obligations.TimersAndSending : Prop :=
  (∀ (s : State) (k : Conn) (tm : Timers), s.dev.hpt.conns = [k] → s.dev.hpt.timers = [tm] → tm.id = k.id → s.dev.glb.standbyHeld = false →
      s.dev.ctrlOpen k.port k.host = true →
      let sends : State → Seg → Prop := fun t g => ∃ pcp flow, Out.segment pcp flow g (s.dev.frameOf pcp flow g) ∈ t.dev.out
      (0 < k.unacked → Runs (.delayedAck k.id) s fun t => (∃ pcp f, t.dev.out = .segment pcp k.flow (s.dev.ackSegment k false) f :: s.dev.out)
        ∧ t.dev.hpt.conns = [{ k with rcvEdge := s.dev.edge k, unacked := 0 }] ∧ t.dev.word C.hptTxSeg = s.dev.word C.hptTxSeg + 1
        ∧ s.wordsBut t [C.hptTxSeg] ∧ s.memoriesStand t)
      ∧ (k.st = .established →
        (tm.probes < 3 → Runs (.keepaliveTimeout k.id) s fun t => sends t (s.dev.ackSegment k true)
          ∧ t.dev.hpt.timers = [{ tm with probes := tm.probes + 1 }] ∧ (t.dev.hpt.conns.map Conn.core) = [k.core] ∧ s.memoriesStand t)
        ∧ (3 ≤ tm.probes → Runs (.keepaliveTimeout k.id) s fun t => t.dev.hpt.conns = []
          ∧ t.dev.word C.hptReset = s.dev.word C.hptReset + 1))
      ∧ (∀ x, (k.fill (s.dev.maxPay k) (1024 - k.tx.length)).tx[k.rp]? = some x → x.sends = 0 → x.seq = k.peerEdge →
        Runs (.creditProbe k.id) s fun t => sends t (s.dev.ackSegment (k.fill (s.dev.maxPay k) (1024 - k.tx.length)) true)
          ∧ s.wordsBut t [C.hptTxSeg] ∧ s.memoriesStand t)
      ∧ (k.st = .synRcvd →
        (tm.synTries < 3 → Runs (.synAckTimeout k.id) s fun t => sends t (s.dev.synAck k)
          ∧ t.dev.hpt.timers = [{ tm with synTries := tm.synTries + 1 }] ∧ (t.dev.hpt.conns.map Conn.core) = [k.core] ∧ s.memoriesStand t)
        ∧ (3 ≤ tm.synTries → Runs (.synAckTimeout k.id) s fun t => t.dev.hpt.conns = []))
      ∧ (∀ x, k.st = .established → k.tx = [x] → 0 < x.sends → x.sacked = false → s.dev.timersFrozen k = false →
        s.dev.descOpen k x = true → s.dev.poison = [] →
        (tm.expiries + 1 < s.dev.get F.hptRrtCfgRetryMax → Runs (.retransmissionTimeout k.id) s fun t =>
          t.dev.hpt.timers = [{ tm with expiries := tm.expiries + 1, rto := min (2 * tm.rto) (s.dev.get F.hptTmrCfgRtoMax * 1000000) }]
          ∧ t.dev.word C.hptRto = s.dev.word C.hptRto + 1 ∧ t.dev.word C.hptRetx = s.dev.word C.hptRetx + 1
          ∧ (∃ pcp flow g f, Out.segment pcp flow g f ∈ t.dev.out ∧ g.seq = x.seq ∧ g.payload = s.dev.descBytes k x) ∧ s.memoriesStand t)
        ∧ (s.dev.get F.hptRrtCfgRetryMax ≤ tm.expiries + 1 → Runs (.retransmissionTimeout k.id) s fun t => t.dev.hpt.conns = []
          ∧ t.dev.word C.hptReset = s.dev.word C.hptReset + 1 ∧ t.dev.word C.hptRto = s.dev.word C.hptRto + 1))
      ∧ (k.st = .closeWait → k.msgs = [] → k.tx = [] → (s.dev.cqm.cmds.any fun x => x.queue == k.queue) = false →
        before48 k.sndNext k.peerEdge = true →
        Runs (.lastAckClose k.id) s fun t => (t.dev.hpt.conns.map fun y => (y.id, y.st, y.sndNext)) = [(k.id, .lastAck, k.sndNext + 1)]
          ∧ (∃ pcp g f, t.dev.out = .segment pcp k.flow g f :: s.dev.out ∧ g.typ = 4 ∧ g.seq = k.sndNext) ∧ s.memoriesStand t))
  ∧ (∀ (s : State) (k : Conn) (q : Queue) (g : Seg) (p : Nat) (x : Desc),
      (s.dev.hpt.ctrl = [(p, .seg g)] → s.dev.ctrlOpen p g.src = true →
        Runs .segmentTransmit s fun t => (∃ pcp flow, t.dev.out = .segment pcp flow g (s.dev.frameOf pcp flow g) :: s.dev.out) ∧ t.dev.hpt.ctrl = []
          ∧ t.dev.hpt.conns = s.dev.hpt.conns ∧ t.dev.word C.hptTxSeg = s.dev.word C.hptTxSeg + 1 ∧ s.wordsBut t [C.hptTxSeg])
      ∧ (let k' := k.fill (s.dev.maxPay k) (1024 - k.tx.length)
        s.dev.hpt.ctrl = [] → s.dev.hpt.conns = [k] → k.st = .established → k'.tx[k'.rp]? = some x → x.sacked = false →
        s.dev.descOpen k' x = true → s.dev.poison = [] →
        Runs .segmentTransmit s fun t => (∃ pcp r f, t.dev.out = .segment pcp k.flow r f :: s.dev.out ∧ r.seq = x.seq ∧ r.typ = BitVec.ofNat 8 x.typ
            ∧ r.first = x.first ∧ r.last = x.last ∧ r.payload = s.dev.descBytes k' x ∧ r.ack = k.rcvNext)
          ∧ (t.dev.hpt.conns.map fun y => (y.id, y.rp, y.sndNext)) = [(k.id, k.rp + 1, k'.sndNext)] ∧ s.memoriesStand t)
      ∧ (s.dev.queue? q.id = some q → q.conn = none → s.dev.calm = true →
        Runs (.orphanExpiry q.id) s fun t => t.dev.cqm.queues = s.dev.cqm.queues.filter (fun k => k.id != q.id)
          ∧ (t.dev.cqm.log.head?.map fun e => (e.kind, e.status)) = some (6, stDiscarded)
          ∧ (∀ c ∈ t.dev.cqm.cmds, c.queue = q.id → c.inWork = true) ∧ s.memoriesStand t))

/-! ## Commands and log -/

/-- The command queue: the oldest eligible command of URGENT, else the one that deficit round robin visits, is dispatched (R309 to
R311); READ_LOG sends the entries asked for (R328), and RESUME lets a frozen queue go on or discards what it holds (R323). -/
def Obligations.QueueServed : Prop :=
  ∀ (s : State) (c : Cmd) (k : Conn) (q : Queue) (d : Dev), s.dev.calm = true →
    (s.dev.pick = (some c, d) → s.dev.glb.dev = .loaded ∨ s.dev.glb.dev = .streaming →
      Runs .dispatchCommand s fun t =>
        t.dev.cqm.cmds = s.dev.cqm.cmds.map (fun y => if y.h == c.h then { y with phase := .dispatched } else y)
        ∧ t.dev.cqm.deficit = d.cqm.deficit ∧ t.dev.cqm.visit = d.cqm.visit
        ∧ t.dev.word C.cqmUrgent = s.dev.word C.cqmUrgent + (if (s.dev.oldest 4).isSome then 1 else 0)
        ∧ t.dev.plc = s.dev.plc ∧ s.memoriesStand t)
    ∧ (s.dev.alone c k q → c.phase = .accepted → c.opcode = opReadLog → s.dev.flag F.glbCobblerRestarting = false →
      let es := (s.dev.cqm.log.reverse.filter fun e =>
        decide (c.par 16 6 ≤ e.seq.toNat) && (bitAt (c.par 24 1) 0 || q.epochs.contains e.epoch)).take (c.par 22 2)
      let next := match es.getLast? with | some e => e.seq.toNat + 1 | none => c.par 16 6
      Runs (.readLog c.h) s fun t => t.gaveData c (es.map LogEntry.bytes).flatten
        ∧ t.toldGood s.dev c k false (leBytes 6 next ++ leBytes 2 es.length) ∧ t.dev.cqm.log = s.dev.cqm.log ∧ s.memoriesStand t)
    ∧ (s.dev.cqm.cmds = [c] → s.dev.cqm.queues = [q] → q.id = c.queue → q.conn = some k.id → q.frozen = true → s.dev.hpt.conns = [k] →
      c.counts = false → c.phase = .accepted → c.opcode = opResume → s.dev.flag F.glbCobblerRestarting = false →
      Runs (.resume c.h) s fun t => t.dev.cqm.queues = [{ q with frozen := false }]
        ∧ t.toldGood s.dev c k false (leBytes 2 0)
        ∧ (t.dev.cqm.log.head?.map LogEntry.kind) = some (if bitAt (c.par 16 1) 0 then 4 else 3) ∧ s.memoriesStand t)
    ∧ (∀ x, s.dev.cqm.cmds = [x, c] → s.dev.cqm.queues = [q] → q.id = c.queue → q.frozen = true → c.counts = false → c.phase = .accepted →
      c.opcode = opResume → s.dev.flag F.glbCobblerRestarting = false → x.queue = q.id → x.phase = .queued → x.h ≠ c.h →
      bitAt (c.par 16 1) 0 = false → Runs (.resume c.h) s fun t => t.dev.cqm.cmds = [{ x with held := false }])

/-- LOAD and UNLOAD (R22, R93, R242, R319, R320): a LOAD begins with its drivers on and no channel enabled, and ends, when the
channels are on and the reels turn and a scan that it needs has begun, with the cartridge loaded and every slot closed; an UNLOAD
begins, and ends when nothing of a session is left, with the tape unthreaded, every slot open and the device idle, unless its zone
commit stops appending. Each is GOOD at once where it finds its work done. A cartridge that goes (R22, R320): the transport stops
and its slots open, streams close, the event is logged and the device becomes idle, maintenance apart. -/
def Obligations.CartridgeComesAndGoes : Prop :=
  (∀ (s : State) (c : Cmd) (k : Conn) (q : Queue) (env : LoadEnv) (zone : ZoneEnv), s.dev.alone c k q → s.dev.motionBar = none →
      s.dev.flag F.glbCobblerRestarting = false → s.dev.glb.dev ≠ .maintenance →
      let done : State → Prop := fun t =>
        t.dev.cqm.cmds = if c.counts then [{ c with phase := .completed, data := [] }] else []
      (c.opcode = opLoad →
        (c.phase = .dispatched → s.dev.cart.loaded = false → env.present = true →
          Runs (.load c.h env) s fun t => t.dev.cqm.cmds = [{ c with phase := .started, motion := true }] ∧ t.dev.chan.groupsOn = 0
            ∧ t.dev.pos.mode = .unset ∧ t.dev.get F.tceStatusStops = 0 ∧ t.dev.get F.mdrStatusGdEn = 15 ∧ s.memoriesStand t)
        ∧ (c.phase = .started → s.dev.zoneBuffer = true → 16 ≤ s.dev.chan.groupsOn → s.dev.mdr.boot = [] →
          2 ≤ s.dev.reelMode 0 → 2 ≤ s.dev.reelMode 1 → env.motion = .arrived → env.ztf1 = true → s.dev.startsScan env = true →
          Runs (.load c.h env) s fun t => t.dev.cqm = s.dev.cqm ∧ t.dev.plc = { s.dev.plc with scanning := true } ∧ s.memoriesStand t)
        ∧ (c.phase = .started → s.dev.zoneBuffer = true → 16 ≤ s.dev.chan.groupsOn → s.dev.mdr.boot = [] →
          2 ≤ s.dev.reelMode 0 → 2 ≤ s.dev.reelMode 1 → env.motion = .arrived → env.ztf1 = true → env.setOk = true → s.dev.cqm.waits = [] →
          s.dev.startsScan env = false →
          Runs (.load c.h env) s fun t => done t ∧ t.dev.glb.dev = .loaded ∧ t.dev.cart.loaded = true
            ∧ t.dev.cart.readOnly = bitAt (c.par 16 1) 0 ∧ t.dev.get F.tceLoopCtrlClosed = 255 ∧ t.dev.pos.mode = .count
            ∧ t.dev.plc.session = none)
        ∧ (c.phase = .dispatched → s.dev.cart.loaded = true → Runs (.load c.h env) s (·.toldGood s.dev c k true s.dev.loadResult)))
      ∧ (c.opcode = opUnload →
        (c.phase = .dispatched → s.dev.cart.loaded = true → s.dev.plc.session = none → s.dev.glb.dev = .loaded →
          Runs (.unload c.h zone .arrived) s fun t =>
            t.dev.cqm.cmds = [{ c with phase := .started, motion := true }] ∧ t.dev.glb.dev = .streaming ∧ s.memoriesStand t)
        ∧ (c.phase = .started → s.dev.plc.session = none → s.dev.plc.commits = [] → s.dev.strm.reads = [] →
          (s.dev.cart.readOnly = true ∨ s.dev.zoneBuffer = true) →
          Runs (.unload c.h zone .arrived) s fun t => done t ∧ (t.dev.plc.stopped.isSome = false → t.dev.glb.dev = .idle
            ∧ t.dev.cart = Cart.reset ∧ t.dev.get F.tceLoopCtrlClosed = 0 ∧ t.dev.get F.mdrStatusGdEn = 0 ∧ t.dev.pos.mode = .unset
            ∧ t.dev.chan.groupsOn = 0 ∧ t.dev.plc.streams = [] ∧ t.dev.strm.ctxs = []) ∧ (s.dev.cart.readOnly = true → t.dev.cart = Cart.reset))
        ∧ (c.phase = .dispatched → s.dev.cart.loaded = false → Runs (.unload c.h zone .arrived) s (·.toldGood s.dev c k true []))))
  ∧ (∀ (s : State), s.dev.cart.loaded = true → s.dev.calm = true →
      Runs .cartridgeEjected s fun t => t.dev.cart = Cart.reset ∧ t.dev.tce.v = 0 ∧ t.dev.tce.a = 0 ∧ t.dev.pos.mode = .unset
        ∧ t.dev.strm.ctxs = [] ∧ t.dev.strm.clicks = [] ∧ t.dev.plc.session = none
        ∧ t.dev.glb.dev = (if s.dev.glb.dev = .maintenance then .maintenance else .idle)
        ∧ (s.dev.quiet = true → t.dev.get F.tceLoopCtrlClosed = 0 ∧ t.dev.get F.mdrStatusGdEn = 0
          ∧ (t.dev.cqm.log.head?.map LogEntry.status) = some 0x0317 ∧ s.memoriesStand t))

/-- OPEN_STREAM, CLOSE_STREAM and WRITE_RECORD complete GOOD (R215, R216, R219, R299, R312): a stream is opened with a context and a
STREAM entry, closed with NEXT_REC, and a record takes the stream's next number, its bytes joining the open click (R188). -/
def Obligations.StreamCommandsComplete : Prop :=
  ∀ (s : State) (c : Cmd) (k : Conn) (q : Queue) (x : Ctx), s.dev.alone c k q → c.phase = .dispatched → s.dev.cart.loaded = true →
    (c.opcode = opOpen → s.dev.ctx? c.stream = none → s.dev.openStreams < s.dev.get F.plcCfgOpenMax → s.dev.onDieCtxs < 256 →
      let next := ((s.dev.streamEntry? c.stream).map StreamEntry.nextRec).getD 0
      Runs (.openStream c.h) s fun t =>
        t.toldGood s.dev c k false (leBytes 6 next.toNat ++ leBytes 1 (b2n (s.dev.plc.index.streams.any fun e => e.stream == c.stream)))
        ∧ (∃ y, t.dev.strm.ctxs = s.dev.strm.ctxs ++ [y] ∧ y.stream = c.stream ∧ y.endCut = bitAt (c.par 16 1) 0
          ∧ y.affinity = c.par 17 1 ∧ y.nextRec = next ∧ y.onDie = true ∧ y.fresh = true ∧ y.inLen = 0 ∧ y.closing = false)
        ∧ (t.dev.streamEntry? c.stream).map (fun e => (e.open_, e.nextRec)) = some (true, next) ∧ s.memoriesStand t)
    ∧ (c.opcode = opClose → s.dev.ctx? c.stream = some x → (s.dev.strm.ctxs.find? fun y => y.id == x.id) = some x → x.onDie = true → s.dev.casMode = 0 →
      Runs (.closeStream c.h) s fun t => t.toldGood s.dev c k false (leBytes 6 x.nextRec.toNat)
        ∧ (∀ y ∈ t.dev.strm.ctxs, y.id = x.id → y.closing = true) ∧ t.dev.streamEntry? c.stream = some (x.entry false)
        ∧ t.dev.strm.clicks.length = s.dev.strm.clicks.length + (if x.inLen = 0 then 0 else 1) ∧ s.memoriesStand t)
    ∧ (c.opcode = opWrite → s.dev.ctx? c.stream = some x → (s.dev.strm.ctxs.find? fun y => y.id == x.id) = some x → x.onDie = true → s.dev.appendBar = none → s.dev.noRoom c.dataLen = false →
      1 ≤ c.dataLen → x.inLen + c.dataLen + 1 ≤ openBudget (x.ends.length + 1) → x.endCut = false →
      Runs (.writeRecord c.h) s fun t =>
        t.toldGood s.dev { c with record := x.nextRec.toNat } k false (leBytes 6 x.nextRec.toNat)
        ∧ (∀ y ∈ t.dev.strm.ctxs, y.id = x.id → y.nextRec = x.nextRec + 1 ∧ y.inLen = x.inLen + c.dataLen
          ∧ y.ends = x.ends ++ [x.inLen + c.dataLen - 1])
        ∧ t.dev.plc.session.isSome = true ∧ t.dev.strm.clicks = s.dev.strm.clicks
        ∧ (t.dev.streamEntry? c.stream).map StreamEntry.nextRec = some (x.nextRec + 1) ∧ s.memoriesStand t)

/-- FLUSH with nothing to wait for completes GOOD with the recorded commit, and with an open click it cuts the click and waits for it
(R188, R315); QUERY_INDEX sends the entries it asks for and completes GOOD (R299, R301). IDLE_CUT cuts the open click of its
stream (R189); a context that is wanted is made room for by spilling the least recently used one, and a spilled one returns when
its stream has a dispatched command (R218, R220). Spilling writes the context's state to its place in the table and its history to
four P4 granules, from which the restore reads it. -/
def Obligations.FlushQueryAndContexts : Prop :=
  (∀ (s : State) (c : Cmd) (k : Conn) (q : Queue) (x : Ctx), s.dev.alone c k q → c.phase = .dispatched → s.dev.cart.loaded = true →
      s.dev.cqm.waits = [] → s.dev.plc.stopped = none → s.dev.strm.clicks = [] → s.dev.casMode = 0 →
      (c.opcode = opFlush → s.dev.plc.session = none → (s.dev.strm.ctxs.all fun x => x.inLen == 0) = true →
        Runs (.flush c.h) s fun t => t.toldGood s.dev c k false (leBytes 6 s.dev.plc.recorded.toNat ++ leBytes 2 0)
          ∧ t.dev.cqm.waits = [] ∧ t.dev.strm = s.dev.strm ∧ s.memoriesStand t)
      ∧ (c.opcode = opFlush → s.dev.plc.session = none → c.all = false → s.dev.ctx? c.stream = some x →
        (s.dev.strm.ctxs.find? fun y => y.id == x.id) = some x → x.inLen ≠ 0 →
        Runs (.flush c.h) s fun t =>
          (t.dev.strm.clicks.map fun y => (y.stream, y.inLen, y.ends, y.cutFlush, y.spans)) = [(c.stream, x.inLen, x.ends, true, x.open_)]
          ∧ t.dev.cqm.waits = [⟨c.h, [], [s.dev.strm.nextClick], 0, s.dev.plc.recorded⟩]
          ∧ t.dev.cqm.cmds = [{ c with phase := .started }] ∧ s.memoriesStand t)
      ∧ (c.opcode = opQuery →
        let all := s.dev.queryEntries (c.par 16 1) c.stream (c.par 18 6)
        let es := all.take (c.par 24 2)
        Runs (.queryIndex c.h) s fun t => t.gaveData c es.flatten
          ∧ t.toldGood s.dev c k false (leBytes 4 es.length ++ leBytes 1 (b2n (decide (es.length < all.length))))
          ∧ t.dev.plc = s.dev.plc ∧ t.dev.strm = s.dev.strm ∧ s.memoriesStand t))
  ∧ (∀ (s : State) (stream : BitVec 16) (x : Ctx), s.dev.casMode = 0 →
      (s.dev.get F.cmpCfgIdleCut ≠ 0 → s.dev.ctx? stream.toNat = some x →
        (s.dev.strm.ctxs.find? fun y => y.id == x.id) = some x → x.inLen ≠ 0 →
        Runs (.idleCut stream) s fun t =>
          (∃ y, t.dev.strm.clicks = s.dev.strm.clicks ++ [y] ∧ y.stream = x.stream ∧ y.inLen = x.inLen ∧ y.ends = x.ends ∧ y.spans = x.open_
            ∧ y.record = x.owner ∧ y.cutFlush = false ∧ y.at_ = .cut)
          ∧ (∀ y ∈ t.dev.strm.ctxs, y.id = x.id → y.inLen = 0 ∧ y.ends = [] ∧ y.open_ = [])
          ∧ t = { s with dev := { s.dev with strm := t.dev.strm } })
      ∧ (s.dev.lru = some x → x.stream = stream.toNat → 256 ≤ s.dev.onDieCtxs → s.dev.ctxWanted = true → 4 ≤ s.dev.poolFree 4 →
        Runs (.contextSpill stream) s fun t => (∀ y ∈ t.dev.strm.ctxs, y.id = x.id → y.onDie = false ∧ y.slot = [] ∧ y.spill.length = 4
            ∧ y.histLen = x.slot.length ∧ y.spillAt = s.dev.freeEntry
            ∧ t.dev.ddr = ((s.dev.putState { x with histLen := x.slot.length } s.dev.freeEntry).putGranules y.spill x.slot).ddr)
          ∧ t.dev.strm.ctxs.filter (fun y => y.id != x.id) = s.dev.strm.ctxs.filter (fun y => y.id != x.id)
          ∧ t.dev.word C.plcSpill = s.dev.word C.plcSpill + 1 ∧ t.dev.nor = s.dev.nor ∧ t.dev.feram = s.dev.feram)
      ∧ (s.dev.ctx? stream.toNat = some x → x.onDie = false → s.dev.onDieCtxs < 256 →
        (s.dev.cqm.cmds.any fun c => c.oneStream && c.stream == stream.toNat && c.phase == .dispatched) = true →
        Runs (.contextRestore stream) s fun t => (∀ y ∈ t.dev.strm.ctxs, y.id = x.id → y.onDie = true ∧ y.slot = s.dev.history x ∧ y.spill = [])
          ∧ t.dev.strm.ctxs.filter (fun y => y.id != x.id) = s.dev.strm.ctxs.filter (fun y => y.id != x.id)
          ∧ t.dev.word C.plcRestore = s.dev.word C.plcRestore + 1 ∧ s.memoriesStand t))

/-- READ_RECORD and LOCATE (R249, R317, R318): a record whose clicks lie in buffers is delivered from them, and located where they are
placed; one on tape is read by the data sets of segments that are not cached and then its own, or sought with a position target,
whose arrival completes the LOCATE. -/
def Obligations.RecordsReadAndLocated : Prop :=
  ∀ (s : State) (c : Cmd) (k : Conn) (q : Queue), s.dev.alone c k q → c.phase = .dispatched → s.dev.cart.loaded = true →
    let rec_ := BitVec.ofNat 48 (c.par 16 6)
    s.dev.cutFor c.stream rec_ = s.dev →
    (c.opcode = opRead → s.dev.strm.reads = [] →
      (∀ bytes out e, s.dev.bufferRecord c.stream rec_ = some bytes →
        s.dev.takeOutput ((bytes.length + p3Bytes - 1) / p3Bytes) = (some out, e) →
        Runs (.readRecord c.h .arrived) s fun t => t.toldGood s.dev c k false (leBytes 4 bytes.length ++ leBytes 1 0)
          ∧ t.dev.strm.reads = [] ∧ t.dev.plc = s.dev.plc)
      ∧ (∀ e ch gs ws, s.dev.bufferRecord c.stream rec_ = none → s.dev.findRecord c.stream rec_ false = some (e, ch, gs) →
        s.dev.plc.session = none → s.dev.motionBar = none → s.dev.casMode = 0 → s.dev.readPlan c.stream rec_ false = some ws →
        Runs (.readRecord c.h .arrived) s fun t =>
          t.dev.strm.reads = [⟨c.h, c.stream, rec_, ws, [], 0, 0, [], [], false, false⟩]
          ∧ t.dev.cqm.cmds = [{ c with phase := .started, motion := true }]
          ∧ ws.drop (ws.length - (s.dev.wantsFor c.stream rec_ e ch gs).length) = s.dev.wantsFor c.stream rec_ e ch gs
          ∧ (s.dev.glb.dev = .loaded → t.dev.glb.dev = .streaming) ∧ s.memoriesStand t))
    ∧ (c.opcode = opLocate →
      (∀ slot wrap, s.dev.chainInBuffers c.stream rec_ = some (some (slot, wrap)) →
        Runs (.locate c.h .arrived) s fun t => t.toldGood s.dev c k false (leBytes 4 slot ++ leBytes 1 wrap)
          ∧ t.dev.tce = s.dev.tce ∧ s.memoriesStand t)
      ∧ (∀ e ch gs, s.dev.chainInBuffers c.stream rec_ = none → s.dev.findRecord c.stream rec_ false = some (e, ch, gs) →
        s.dev.plc.session = none →
        let rev := wrapReverse e.wrap
        let g := slotAfter rev e.firstSlot ch.index
        let place := readStart rev g / 512 + (if rev then 300 else -300)
        let speed : Int := s.dev.clampSpeed (s.dev.get F.plcStatusSpeedTgt)
        (s.dev.tce.target.isPlace = false → s.dev.mayMove = true →
          Runs (.locate c.h .arrived) s fun t =>
            t.dev.tce.target = .place place (if place < s.dev.eyelet then -speed else speed) 0
            ∧ t.dev.cqm.cmds = [{ c with phase := .started, motion := true }] ∧ s.memoriesStand t)
        ∧ (s.dev.tce.target.isPlace = true → s.dev.motionBar = none → s.dev.tce.held = none → place.natAbs < 2 ^ 38 →
          Runs (.locate c.h .arrived) s fun t => t.toldGood s.dev { c with motion := true } k false (leBytes 4 g ++ leBytes 1 e.wrap)
            ∧ t.dev.eyelet = place ∧ t.dev.tce.v = 0 ∧ t.dev.tce.target = .stop ∧ s.memoriesStand t)))

/-- MAINT_CALIBRATE completes GOOD with its result: a store writes the set to FeRAM, a run applies what it found, and an invalidation
erases the commit word (R491, R493, R496). MAINT_NVM completes GOOD: a read gives the bytes with their CRC, a write puts the data
in a slot that does not run, a preference goes to FeRAM, an invalidation erases the slot's first block, a verification tells what
it found (R495). -/
def Obligations.CalibrationAndNvmComplete : Prop :=
  (∀ (s : State) (c : Cmd) (k : Conn) (q : Queue) (found : CalFound) (l : (Bool × BitVec 32) × (Bool × BitVec 32)),
      found.lateral = [l.1, l.2] →
      let applies : State → Nat → Prop := fun t source => t.dev.chan.servo = [(l.1.1, l.1.2.toInt), (l.2.1, l.2.2.toInt)]
        ∧ t.toldGood s.dev c k false (calResult 0 source found.channels)
      (s.maintains c k q opCalibrate 0 → Runs (.calibrateStore c.h true) s fun t =>
        if bitAt (c.par 17 1) 0 then t.dev.feram = s.dev.feram ∧ t.toldGood s.dev c k false (calResult 0 3 0)
        else t.dev.feram = (s.dev.storeNow 3 true).2.feram ∧ ((s.dev.storeNow 3 true).1 = true →
          t.toldGood s.dev c k false (calResult ((s.dev.storeNow 3 true).2.get F.calStatusSeq) 3 0)))
      ∧ (s.maintains c k q opCalibrate 1 → bitAt (c.par 17 1) 0 = true → s.dev.cart.loaded = true → s.dev.motionBar = none →
        Runs (.calibrateSelf c.h ⟨some found, true, .arrived⟩) s (applies · 2))
      ∧ (s.maintains c k q opCalibrate 2 → bitAt (c.par 17 1) 0 = true → s.dev.cart.loaded = true → s.dev.motionBar = none →
        s.dev.plc.index.groups = [] → c.par 18 1 = 0xA5 →
        Runs (.calibrateFull c.h ⟨some found, true, .arrived⟩) s (applies · 1))
      ∧ (s.maintains c k q opCalibrate 3 → c.par 18 1 = 0xA5 →
        Runs (.calibrateInvalidate c.h) s fun t => t.toldGood s.dev c k false (calResult 0 0 0) ∧ t.dev.get F.calStatusValid = 0
          ∧ (∀ i, i < 8 → t.dev.feram.byte zeroByte (65528 + i) = 0)
          ∧ ∀ a, a < 65528 ∨ 65536 ≤ a → t.dev.feram.byte zeroByte a = s.dev.feram.byte zeroByte a))
  ∧ (∀ (s : State) (c : Cmd) (k : Conn) (q : Queue),
      let slot := c.par 17 1
      let off := c.par 20 4
      let base := slotBase (slot == 1) + off
      (s.maintains c k q opNvm 0 → slot < 2 → off + c.par 24 4 ≤ 0x1000000 →
        Runs (.nvmRead c.h) s fun t =>
          t.gaveData c (s.dev.norBytes base (c.par 24 4))
          ∧ t.toldGood s.dev c k false (nvmResult 0 0 0 (crc32c (s.dev.norBytes base (c.par 24 4)))) ∧ s.memoriesStand t)
      ∧ (s.maintains c k q opNvm 1 → slot < 2 → s.dev.runningSlot slot = false → off % 65536 = 0 → s.dev.dataBytes c ≠ [] →
        off + (s.dev.dataBytes c).length ≤ 0x1000000 →
        Runs (.nvmWrite c.h true) s fun t => t.toldGood s.dev c k false (nvmResult 0 0 0 (crc32c (s.dev.dataBytes c)))
          ∧ (∀ i b, (s.dev.dataBytes c)[i]? = some b → t.dev.nor.byte erasedByte (base + i) = b)
          ∧ ∀ a, a < base ∨ base + ((s.dev.dataBytes c).length + 65535) / 65536 * 65536 ≤ a →
            t.dev.nor.byte erasedByte a = s.dev.nor.byte erasedByte a)
      ∧ (s.maintains c k q opNvm 2 → Runs (.nvmPrefer c.h) s fun t =>
          (s.dev.verifySlot (slot == 1) = 0 → t.toldGood s.dev c k false (nvmResult 0 0 0 0) ∧ t.dev.prefSlot = (slot == 1))
          ∧ (s.dev.verifySlot (slot == 1) ≠ 0 → (t.dev.cqm.log.map LogEntry.status).contains stNvmRefused = true)
          ∧ ∀ a, a ≠ 0x10010 → t.dev.feram.byte zeroByte a = s.dev.feram.byte zeroByte a)
      ∧ (s.maintains c k q opNvm 3 → s.dev.runningSlot slot = false →
        Runs (.nvmInvalidate c.h) s fun t => t.toldGood s.dev c k false (nvmResult 0 0 0 0)
          ∧ (∀ i, i < 65536 → t.dev.nor.byte erasedByte (slotBase (slot == 1) + i) = 0xFF)
          ∧ ∀ a, a < slotBase (slot == 1) ∨ slotBase (slot == 1) + 65536 ≤ a →
            t.dev.nor.byte erasedByte a = s.dev.nor.byte erasedByte a)
      ∧ (s.maintains c k q opNvm 4 →
        Runs (.nvmVerify c.h) s fun t => s.memoriesStand t ∧
          t.toldGood s.dev c k false (nvmResult (b2n (s.dev.verifySlot (slot == 1) == 0)) (s.dev.verifySlot (slot == 1))
            (fieldAt (s.dev.slotHeader (slot == 1)) 8 4) 0)))

/-- MAINT_RESTART: OP 0 ends maintenance in the state before it (R22, R523, R524), OP 1 restarts the cobbler and completes when its
firmware runs again (R520, R523), OP 2 restarts the device (R522, R523). -/
def Obligations.MaintenanceEnds : Prop :=
  ∀ (s : State) (c : Cmd) (k : Conn) (q : Queue) (env : StartEnv),
    (s.maintains c k q opRestart 0 → s.dev.glb.beforeMaint = .idle ∨ s.dev.glb.beforeMaint = .loaded → s.dev.cart.loaded = false →
      Runs (.maintEnd c.h) s fun t => t.dev.glb.dev = s.dev.glb.beforeMaint ∧ t.dev.glb.prev = .maintenance
        ∧ t.dev.glb.maintConn = none ∧ t.toldGood s.dev c k (!c.inMaint) (leBytes 1 s.dev.glb.beforeMaint.code))
    ∧ (s.maintains c k q opRestart 1 →
      Runs (.cobblerRestartCmd c.h) s fun t => t.dev.get F.glbCobblerRestarting = 1 ∧ t.dev.cobMem = []
        ∧ t.dev.glb = s.dev.glb ∧ t.dev.cqm.cmds = [{ c with phase := .started }])
    ∧ (s.dev.alone c k q → c.opcode = opRestart → c.phase = .started → s.dev.flag F.glbCobblerRestarting = true →
      Runs .cobblerRestartDone s fun t => t.dev.get F.glbCobblerRestarting = 0 ∧ t.toldGood s.dev c k false [] ∧ s.memoriesStand t)
    ∧ (s.dev.flag F.glbCobblerRestarting = true → Runs .cobblerRestartDone s fun t => t.dev.get F.glbCobblerRestarting = 0 ∧ t.dev.cqm.owed = [])
    ∧ (s.maintains c k q opRestart 2 → c.par 17 1 = 0xA5 → s.dev.glb.straps.testMode = 0 → s.dev.glb.norOp = none →
      Runs (.deviceRestartCmd c.h env) s fun t => (t.dev.glb.dev = .idle ∨ t.dev.glb.dev = .recovery) ∧ t.dev.hpt.conns = [])

/-- The watchdog restarts the cobbler: the restart is counted and shown, its local memory is reset, and nothing else of memory
changes; the third class of events waits for it (R520, R536). KICK restarts the watchdog's period, whose end is a row of its own:
no register changes (R520; log 7). -/
def Obligations.WatchdogAndKick : Prop :=
  (∀ (s : State) (slotOk : Bool) (env : StartEnv), s.dev.glb.dev.hostUp = true → s.dev.inReset = false →
      s.dev.flag F.glbCobblerRestarting = false → s.dev.glb.wdogTimes.length < 3 → s.dev.calm = true →
      s.dev.get F.glbCobblerRestarts < 0xFFFF →
      Runs (.watchdogExpiry true slotOk env) s fun t =>
        t.dev.get F.glbCobblerRestarts = s.dev.get F.glbCobblerRestarts + 1 ∧ t.dev.word C.cntWdog = s.dev.word C.cntWdog + 1
        ∧ t.dev.get F.glbFaultCobbler = 1 ∧ t.dev.get F.glbCobblerRestarting = 1 ∧ t.dev.cobMem = []
        ∧ (t.dev.cqm.log.head?.map LogEntry.status) = some 0x0313 ∧ t.dev.glb.dev = s.dev.glb.dev
        ∧ t.dev.ddr = s.dev.ddr ∧ t.dev.nor = s.dev.nor ∧ t.dev.feram = s.dev.feram)
  ∧ (∀ (s : State), s.dev.glb.dev.hostUp = true → s.dev.inReset = false →
      Runs .cobblerKick s fun t => s.onlyRegs t ∧ ∀ a, t.dev.word a = s.dev.word a)

/-- A TIME snapshot that lies ahead is armed and told GOOD with its ID (R529); when due it fires into a free bank with every counter
as it stands, counted (R530); the readout moves the oldest bank to a P4 granule, which frees the bank (R531). -/
def Obligations.SnapshotTaken : Prop :=
  ∀ (s : State) (c : Cmd) (k : Conn) (q : Queue) (a : Armed) (r : Shot) (rest : List (List Shot)) (g : Nat) (e : Dev),
    (s.dev.alone c k q → c.phase = .accepted → c.held = false → c.opcode = opSnapshot → c.par 16 1 = 1 →
      s.dev.flag F.glbCobblerRestarting = false → s.dev.cnt.armed.length < 4 →
      before48 (BitVec.ofNat 48 s.dev.time) (BitVec.ofNat 48 (c.par 20 6)) = true →
      Runs (.snapshot c.h) s fun t => t.dev.cnt.armed = s.dev.cnt.armed ++ [⟨c.par 18 2, true, BitVec.ofNat 48 (c.par 20 6)⟩]
        ∧ t.toldGood s.dev c k false (leBytes 2 (c.par 18 2)))
    ∧ (s.dev.cnt.armed = [a] → a.time = true → atOrBefore48 a.target (BitVec.ofNat 48 s.dev.time) = true → s.dev.cnt.banks.length < 2 →
      Runs .snapshotFire s fun t => t.dev.cnt.armed = []
        ∧ t.dev.cnt.banks = s.dev.cnt.banks ++ [[⟨s.dev.shotHeader a {}, s.dev.counters, none⟩]]
        ∧ t.dev.word C.cntSnap = s.dev.word C.cntSnap + 1 ∧ s.wordsBut t [C.cntSnap] ∧ s.memoriesStand t)
    ∧ (s.dev.cnt.banks = [r] :: rest → s.dev.flag F.glbCobblerRestarting = false → s.dev.allocate 4 ownDma ownDma = (some g, e) →
      Runs .snapshotReadout s fun t => t.dev.cnt.banks = rest
        ∧ t.dev.cnt.readouts.head? = some { r with handle := some g }
        ∧ t.dev.ddr = Memory.storeAll zeroByte s.dev.ddr (s.dev.bufAddr g) (bankBytes r))

/-! ## The write path -/

/-- An engine in service with no job, with room in its output buffers and below level 3 of P1, takes its next click: bound to its
chain, with its input (R199, R201, R349); a coded click waits in an output buffer with the bytes that R192, R193 and R200 give,
counted; after an SRAM error the engine is out of service and the click waits to be coded again (R202). In read mode an engine
takes the next click that can be decoded, where a P3 buffer has room for its output (R201, R209). A decoded click joins its
record; when the record is whole it is delivered, DATA_IN before STATUS GOOD (R204, R207, R301). A click that the guards refuse,
or whose check fails, is counted (R205). -/
def Obligations.EnginesCode : Prop :=
  (∀ (s : State) (e : Nat) (c : Click), s.dev.calm = true → e < s.dev.strm.engines.length →
      let others : State → Prop := fun t => ∀ j, j ≠ e → (t.dev.engine j).job = (s.dev.engine j).job ∧ (t.dev.engine j).outs = (s.dev.engine j).outs
      (s.dev.engineFree e = true → s.dev.readMode = false → (s.dev.engine e).outs.length < 2 → s.dev.level 1 < 3 →
        s.dev.nextClick e = some c → s.dev.poison = [] →
        Runs (.compressionJobStart e) s fun t =>
          (t.dev.engine e).job = .code c.id ∧ (t.dev.engine e).bound = some (c.stream, c.chain)
          ∧ (t.dev.engine e).outs = (s.dev.engine e).outs ∧ others t
          ∧ t.dev.strm.clicks = s.dev.strm.clicks.map (fun k => if k.id == c.id then { k with at_ := .coding e, input := s.dev.inputOf c } else k)
          ∧ bitAt (t.dev.readReg F.cmpStatusEngBusy.addr).toNat (F.cmpStatusEngBusy.lo + e) = true ∧ t.dev.plc = s.dev.plc ∧ t.dev.pools = s.dev.pools ∧ s.memoriesStand t)
      ∧ (∀ id, (s.dev.engine e).job = .code id → s.dev.click? id = some c → c.remote = none →
        (s.dev.strm.ctxs.all fun x => x.id != c.ctx || x.onDie) = true →
        let r := codeClick ⟨c.stream, c.inLen, 0, false, c.reset, !c.ends.isEmpty, c.recStart, c.cutFlush⟩ (s.dev.engine e).hist c.input c.ends
          (s.dev.flag F.cmpCfgCheckEn) fun limited => zc1Body (s.dev.engine e).hist c.input (s.dev.get F.cmpCfgLevel) limited
        Runs (.clickCoded e .none) s (fun t =>
          (t.dev.engine e).job = .none ∧ (t.dev.engine e).outs = (s.dev.engine e).outs ++ [id] ∧ others t
          ∧ t.dev.click? id = some { c with at_ := .ready e, coded := r.bytes, raw := r.raw }
          ∧ t.dev.word C.cmpClicks = s.dev.word C.cmpClicks + 1
          ∧ t.dev.word C.cmpInBytes = s.dev.word C.cmpInBytes + BitVec.ofNat 48 c.inLen
          ∧ t.dev.word C.cmpOutBytes = s.dev.word C.cmpOutBytes + BitVec.ofNat 48 r.bytes.length
          ∧ t.dev.word C.cmpRaw = s.dev.word C.cmpRaw + (if r.raw then 1 else 0) ∧ s.memoriesStand t)
        ∧ (e < 16 → Runs (.clickCoded e .sram) s fun t =>
          (t.dev.engine e).job = .none ∧ bitAt (t.dev.get F.cmpStatusEngOut) e = true ∧ others t
          ∧ (t.dev.click? id).map Click.at_ = some .cut ∧ t.dev.word C.cmpSramErr = s.dev.word C.cmpSramErr + 1 ∧ s.memoriesStand t)))
  ∧ (∀ (s : State) (e h i : Nat) (r : Read) (x : RClick), s.dev.calm = true → e < s.dev.strm.engines.length →
      (s.dev.engineFree e = true → s.dev.readMode = true → s.dev.mayLeave e = true →
        s.dev.nextDecode e = some (h, i) →
        (s.dev.strm.reads.find? fun r => r.h == h) = some r →
        (s.dev.gathered r).1.length + 65536 * (1 + s.dev.decodingOf h) ≤ p3Bytes * r.out.length →
        Runs (.decompressionJobStart e) s fun t =>
          (t.dev.engine e).job = .decode h i ∧ (t.dev.engine e).reading = some (h, r.chainStart i) ∧ (t.dev.engine e).bound = none
          ∧ (∀ j, j ≠ e → t.dev.engine j = s.dev.engine j) ∧ t.dev.strm.reads = s.dev.strm.reads
          ∧ bitAt (t.dev.readReg (F.cmpEngineMode.ix e).addr).toNat F.cmpEngineMode.lo = true ∧ t.dev.pools = s.dev.pools ∧ s.memoriesStand t)
      ∧ ((s.dev.engine e).job = .decode h i → (s.dev.strm.reads.find? fun r => r.h == h) = some r → r.clicks[i]? = some x →
        (∀ (c : Cmd) (k : Conn) (q : Queue) (bs : List Byte) (ends : List Nat) (got : List Byte),
          decodeClick x.stream (r.histOf i) x.bytes = .input bs ends → s.dev.alone c k q → c.h = h → c.opcode = opRead →
          c.phase = .started → s.dev.strm.reads = [r] →
          gather (s.dev.get F.cmpCfgRatioMax) r.record (modAt (fun y => { y with out := some (bs, ends) }) r.clicks i) [] 0 = (got, true, false) →
          Runs (.clickDecoded e .none) s fun t =>
            t.dev.word C.cmpDecBytes = s.dev.word C.cmpDecBytes + BitVec.ofNat 48 bs.length ∧ (t.dev.engine e).job = .none
            ∧ t.dev.strm.reads = [] ∧ t.toldGood s.dev c k false (leBytes 4 got.length ++ leBytes 1 r.klass)
            ∧ (t.dev.hpt.conns.map fun k => k.msgs.dropLast.getLast?.map fun m => (m.typ, m.payload.head, m.length))
              = [some (typDataIn, leBytes 4 c.tag ++ leBytes 1 c.opcode ++ leBytes 3 0 ++ leBytes 4 got.length ++ leBytes 4 0, 16 + got.length)]
            ∧ t.dev.plc = { s.dev.plc with readIn := s.dev.plc.readIn + x.bytes.length, readOut := s.dev.plc.readOut + bs.length })
        ∧ (decodeClick x.stream (r.histOf i) x.bytes = .guard → Runs (.clickDecoded e .none) s fun t =>
            t.dev.word C.cmpGuard = s.dev.word C.cmpGuard + 1 ∧ t.dev.get F.cmpStatusGuardSeen = 1)
        ∧ (decodeClick x.stream (r.histOf i) x.bytes = .crc → Runs (.clickDecoded e .none) s fun t =>
            t.dev.word C.cmpCrcFail = s.dev.word C.cmpCrcFail + 1 ∧ t.dev.get F.cmpStatusGuardSeen = 1)))

/-- DATA_SET_CLOSE closes a data set for the next slot: TYPE 1 with the session's next DS_SEQ and INDEX, its start armed, the session
counted on (R15, R44, R223, R225); where too little is coded, a hold begins and the slot gets a gap (R230). -/
def Obligations.DataSetCloses : Prop :=
  ∀ (s : State) (z : Session) (h : Nat) (hs : List Nat) (gs : List Given) (dry full : Bool),
    s.dev.calm = true → s.dev.plc.session = some z →
    (s.dev.strm.clicks.all fun c => c.at_ == .cut || c.at_ == .staged || c.at_ == .placed) = true →
    s.dev.plc.hold = false → s.dev.plc.holdDone = false → s.dev.plc.stopped = none → s.dev.pos.mode = .locked → s.dev.writeOk = true →
    s.dev.casMode = 0 → s.dev.flag F.glbCobblerRestarting = false → z.generation ≠ 0 → z.atEnd = false → z.owedGaps = 0 → z.heel = none → z.closing = false → z.index < 59 → z.place.width = 1 →
    s.dev.pos.regapFrom = none → s.dev.plc.pendingCopies = [] → s.dev.plc.again = [] → 11 < slotsLeft z.place.wrap z.place.slot →
    s.dev.pos.entries.length < 64 →
    (let rev := wrapReverse z.place.wrap
     let e : Entry := ⟨slotStart rev z.place.slot, rev, .dsStart z.place.slot⟩
     let z0 := { z with groupFirst := if z.index = 0 then z.place.slot else z.groupFirst }
     s.dev.reverse = rev → s.dev.clearTo (placeBefore rev z.place.slot 300) = true →
     1024 ≤ (if rev then s.dev.tpos - e.target else e.target - s.dev.tpos) →
     (s.dev.wouldClose z0 s.dev.unplaced = some ⟨[⟨gs, dry, full⟩], false, false⟩ → s.dev.plc.staged = h :: hs →
       Runs .dataSetClose s fun t =>
         (∃ x ∈ t.dev.plc.dsets, x.id = s.dev.plc.nextDs ∧ x.typ = 1 ∧ x.group = z.group ∧ x.index = z.index ∧ x.dsSeq = z.dsSeq
           ∧ x.first = z.place.slot ∧ x.clicks = gs.map (fun g => g.click.id) ∧ x.copies = [Copy.at z.place.slot 0 .closed])
         ∧ (∃ z', t.dev.plc.session = some z' ∧ z'.dsSeq = z.dsSeq + 1 ∧ z'.dataSets = z.dataSets + 1 ∧ z'.index = z.index + 1
           ∧ z'.place.slot = slotAfter rev z.place.slot 1)
         ∧ e ∈ t.dev.pos.entries
         ∧ (∀ a, a < s.dev.bufAddr h ∨ s.dev.bufAddr h + 1966080 ≤ a → t.dev.ddr.byte zeroByte a = s.dev.ddr.byte zeroByte a))
     ∧ (s.dev.wouldClose z0 s.dev.unplaced = none →
       Runs .dataSetClose s fun t => t.dev.plc.hold = true ∧ t.dev.plc.holdDone = false ∧ t.dev.plc.holdCause = 0
         ∧ t.dev.word C.plcHold = s.dev.word C.plcHold + 1 ∧ e ∈ t.dev.pos.entries ∧ t.dev.plc.dsets = s.dev.plc.dsets
         ∧ s.memoriesStand t))

/-- SPEED_MATCH, 16 slots after the last, commands the speed of R229 where it is 0.10 m/s or more from the target, or is a limit of
the clamp that the target is not; else the target stands. With the backlog between BL_LO and BL_HI that speed, clamped, is the
least at which 1.536 v covers the bytes that left the engines in the window, those of running jobs included. A session that
nothing is queued for ends after SESSION_IDLE (R222). Appending starts again at the end of a hold (R231) and after a Stop reaction
(R390): the hold is over, and the tape runs, locked, 300 eyelets before the slot of the next data set, at the speed of R229. -/
def Obligations.AppendingStopsAndGoesOn : Prop :=
  (∀ (s : State) (z : Session) (running : Nat), s.dev.plc.session = some z →
      (s.dev.get F.plcSpeedCfgBlLo ≤ s.dev.backlog → s.dev.backlog ≤ s.dev.get F.plcSpeedCfgBlHi → s.dev.get F.plcSpeedCfgWindow ≠ 0 →
        let r := ((s.dev.plc.coded.filter fun x => s.dev.since x.1 ≤ 1000000 * s.dev.get F.plcSpeedCfgWindow).map Prod.snd).sum
          + (if s.dev.coding then running else 0)
        let w := 76800 * s.dev.get F.plcSpeedCfgWindow
        ∃ k, s.dev.matchedSpeed running = s.dev.clampSpeed k ∧ r ≤ w * k ∧ (k ≠ 0 → w * (k - 1) < r))
      ∧ (let v := s.dev.matchedSpeed running
       let now := s.dev.get F.plcStatusSpeedTgt
       16 ≤ s.dev.plc.sinceSpeed → s.dev.plc.holdDone = false →
       (2 ≤ max v now - min v now ∨ (v ≠ now ∧ (v = s.dev.get F.plcSpeedCfgVMin ∨ v = s.dev.get F.plcSpeedCfgVMax)) →
         Runs (.speedMatch running) s fun t => t.dev.get F.plcStatusSpeedTgt = v % 256 ∧ t.dev.word C.plcSpeed = s.dev.word C.plcSpeed + 1
           ∧ (s.dev.tce.reaction = 0 → s.dev.tce.target.isPlace = false →
             t.dev.tce.target = .speed (if s.dev.reverse then -(v : Int) else v))
           ∧ t.dev.plc.sinceSpeed = 0 ∧ s.wordsBut t [F.plcStatusSpeedTgt.addr, C.plcSpeed, C.tcePgTarget] ∧ s.memoriesStand t)
       ∧ (v = now → Runs (.speedMatch running) s fun t => t.dev.regs = s.dev.regs ∧ t.dev.tce = s.dev.tce ∧ t.dev.plc.sinceSpeed = 0))
      ∧ (s.dev.get F.plcCfgSessionIdle ≠ 0 → s.dev.strm.clicks = [] → (s.dev.strm.ctxs.all fun x => x.inLen == 0) = true →
        (s.dev.cqm.cmds.any fun c => c.opcode == opWrite && (c.phase == .queued || c.phase == .dispatched)) = false →
        Runs .sessionIdleTimeout s fun t =>
          t = { s with dev := { s.dev with plc := { s.dev.plc with session := some { z with ending := true } } } }))
  ∧ (∀ (s : State) (z : Session), s.dev.plc.session = some z → s.dev.plc.hold = true → s.dev.plc.holdDone = true →
      s.dev.plc.stopped = none → s.dev.mayMove = true → s.dev.flag F.glbCobblerRestarting = false →
      let g := z.resumeSlot
      let rev := wrapReverse z.place.wrap
      let runs : Nat → State → Prop := fun v t =>
        t.dev.plc.hold = false ∧ t.dev.plc.holdDone = false
        ∧ t.dev.plc.session = some { z with place := { z.place with slot := g } }
        ∧ t.dev.pos.mode = .locked ∧ t.dev.get F.posStatusMode = 3 ∧ t.dev.get F.posStatusDir = b2n rev
        ∧ t.dev.tpos = (s.dev.setTpos (slotStart rev g + (if rev then 153600 else -153600))).tpos
        ∧ t.dev.tce.v = (if rev then -1 else 1) * (v * speedStep) ∧ t.dev.tce.a = 0
        ∧ (s.dev.glb.dev = .loaded → t.dev.glb.dev = .streaming) ∧ s.memoriesStand t
      (s.dev.plc.holdCause ≠ 4 → s.dev.stageAll.mayResume = true → Runs .holdEnd s (runs (s.dev.stageAll.matchedSpeed 0)))
      ∧ (s.dev.plc.holdCause = 4 → s.dev.tce.v = 0 → s.dev.tce.a = 0 → s.dev.calm = true → Runs .appendResumeAfterStop s (runs (s.dev.matchedSpeed 0))))

/-- C3_FOLD takes the oldest closed data set: a data data set is folded into the accumulator, started from zeros at INDEX 0, and gets
its C2 parity (R15, R147, R153), and the accumulator counts it; a parity data set takes its payload from the accumulator, which
the fourth leaves empty (R154). The C3 accumulator then gives up the buffer (R182). FIFO_MARK, where no other event of the
position falls before 150 eyelets ahead of the slot, brings TPOS there, rewinds the write-encode FIFOs of the enabled channels to
the mark they have, marks them at the first word of the next data set and fills them (R15, R176, R177, R354); at the first copy
the write channel and verify take the buffer and the Last releases it (R182, R346). A start that is due with position locked
writes its slot: the marked data set, whose copy is then written, the marks released and its words taken from there on, with its
transitions placed (R78, R95, R100, R106, R176), or a gap where no data set is meant for it (R102). Not locked, the start is
aborted and counted (R83). -/
def Obligations.FoldsMarksAndStarts : Prop :=
  (∀ (s : State) (x : DSet), s.dev.calm = true → s.dev.nextFold = some x → s.dev.poison = [] →
      let base := s.dev.bufAddr x.handle
      let folded : State → Prop := fun t =>
        t.dev.plc = { s.dev.plc with dsets := s.dev.plc.dsets.map fun y => if y.id == x.id then y.modLast fun k => { k with step := .folded } else y }
      let givenUp : State → Prop := fun t => ∀ q, s.dev.pool? (handlePool x.handle) = some q → handleIndex x.handle < q.count →
        let b := q.buf (handleIndex x.handle)
        bitAt b.owners ownC3 = true → t.dev.query x.handle = some ⟨b.gen, b.owners - 2 ^ ownC3⟩
      (x.typ = 1 → Runs (.c3Fold false) s fun t => folded t ∧ givenUp t
        ∧ t.dev.ecc = { s.dev.ecc with acc := foldC3 x.index (s.dev.payload x.handle) (if x.index = 0 then [] else s.dev.ecc.acc),
                                         accOpen := some (x.group, (if x.index = 0 then 0 else (s.dev.ecc.accOpen.map Prod.snd).getD 0) + 1) }
        ∧ t.dev.ddr = Memory.storeAll zeroByte s.dev.ddr (base + 1966080) (c2Parity (s.dev.payload x.handle))
        ∧ t.dev.nor = s.dev.nor ∧ t.dev.feram = s.dev.feram)
      ∧ (x.typ = 2 → Runs (.c3Fold false) s fun t => folded t ∧ givenUp t
        ∧ t.dev.ecc = { s.dev.ecc with acc := if x.index = 63 then [] else s.dev.ecc.acc,
                                         accOpen := if x.index = 63 then none else s.dev.ecc.accOpen }
        ∧ (∀ i b, (c3Payload (x.index - 60) s.dev.ecc.acc)[i]? = some b → t.dev.ddr.byte zeroByte (base + i) = b)
        ∧ (∀ a, a < base ∨ base + 2097152 ≤ a → t.dev.ddr.byte zeroByte a = s.dev.ddr.byte zeroByte a)
        ∧ t.dev.nor = s.dev.nor ∧ t.dev.feram = s.dev.feram))
  ∧ (∀ (s : State) (g : Nat) (x : DSet), s.dev.calm = true → s.dev.markNext = some (g, x) → s.dev.poison = [] →
      s.dev.clearTo (placeBefore s.dev.reverse g 150) = true →
      Runs .fifoMark s fun t =>
        (∀ n, let f := s.dev.fifo n; let at_ := f.mark.getD f.wr
          t.dev.fifo n = if n ∈ s.dev.channelsOn then { f with mark := some at_, wr := (at_ + segmentWords) % 8192 } else f)
        ∧ t.dev.plc = { s.dev.plc with dsets := s.dev.unmark.plc.dsets.map fun y =>
            if y.id == x.id then y.modLast fun k => { k with step := .marked } else y }
        ∧ (x.copies.length = 1 → s.dev.glb.dev.running = true → ∀ q, s.dev.pool? (handlePool x.handle) = some q →
          handleIndex x.handle < q.count →
          let b := q.buf (handleIndex x.handle)
          bitAt b.owners ownLast = true →
            t.dev.query x.handle = some ⟨b.gen, (b.owners ||| 2 ^ ownWrite ||| 2 ^ ownVerify) - 2 ^ ownLast⟩)
        ∧ t.dev.tpos = (s.dev.reachAhead (placeBefore s.dev.reverse g 150)).tpos
        ∧ s.memoriesStand t ∧ t.dev.ecc = s.dev.ecc ∧ t.dev.pos = s.dev.pos)
  ∧ (∀ (s : State) (z : Session) (e : Entry) (es : List Entry) (g : Nat) (y : DSet) (k : Copy),
      s.dev.plc.session = some z → s.dev.pos.regapFrom = none → s.dev.nextEntries Entry.isStart = e :: es → e.owner = .dsStart g →
      (s.dev.pos.mode = .locked → s.dev.occupant g = some y → y.last? = some k → k.step = .marked → s.dev.poison = [] →
        Runs (.dataSetStart []) s fun t =>
          Out.slot g (s.dev.slotTracks z g fun n => segmentContent (y.header k) n
            (s.dev.ddrBytes (s.dev.bufAddr y.handle + trackOffset (logicalTrack g n)) 8192)) ∈ t.dev.out
          ∧ (∀ w ∈ t.dev.plc.dsets, w.id = y.id → (w.last?.all fun k => k.step == .written) = true)
          ∧ (∀ n ∈ s.dev.channelsOn, (t.dev.fifo n).mark = none) ∧ t.dev.chan.taking = some (g, 0)
          ∧ (∃ ed, Out.edges g ed ∈ t.dev.out)
          ∧ e ∉ t.dev.pos.entries ∧ t.dev.tpos = (s.dev.setTpos e.target).tpos ∧ s.memoriesStand t)
      ∧ (s.dev.pos.mode = .locked → s.dev.occupant g = none →
        Runs (.dataSetStart []) s fun t =>
          Out.slot g (s.dev.slotTracks z g fun n => segmentContent (z.gapHeader s.dev.self g) n []) ∈ t.dev.out
          ∧ t.dev.plc.dsets = s.dev.plc.dsets ∧ e ∉ t.dev.pos.entries ∧ s.memoriesStand t
          ∧ t.dev.word C.plcReserve = s.dev.word C.plcReserve + 15)
      ∧ (s.dev.pos.mode = .count ∨ s.dev.pos.mode = .acquire ∨ s.dev.pos.mode = .uncertain →
        Runs (.dataSetStart []) s fun t => t.dev.word C.posAbort = s.dev.word C.posAbort + 1
          ∧ (t.dev.pos.entries.any Entry.isStart) = false ∧ s.memoriesStand t))

/-- INDEX_COMMIT_MERGE merges the oldest commit whose data set has passed and records it (R238); a ZONE_COMMIT that a session's
generation asks for reserves the next 16 generations, when its checkpoint fits and passes (R239, R241, R243). With a forward wrap
written to its end and every data set decided, the session goes on in the next wrap from DS_SEQ, group and INDEX 0, the dead set
of verify and the welt trim cleared (R34, R174, R224, R373); behind the last wrap of the cartridge appending stops (R325). -/
def Obligations.CommitsAndTurns : Prop :=
  (∀ (s : State) (c : Commit), s.dev.calm = true → s.dev.flag F.glbCobblerRestarting = false →
      (s.dev.plc.commits = [c] → c.verified = true → c.merged = false → s.dev.isMember = false → s.dev.plc.session = none →
        s.dev.plc.stopped = none → s.dev.cqm.waits = [] →
        let es := c.group.flatMap GroupEntry.entries ++ c.streams.map StreamEntry.bytes ++ [c.session.bytes]
        let ix := s.dev.plc.index.merge (es.map fun e => (fieldAt e 0 2, e))
        entriesLength ix.entries ≤ 3185049600 →
        Runs .indexCommitMerge s fun t => t.dev.plc.commits = [] ∧ t.dev.plc.index = { ix with delta := ix.delta ++ es }
          ∧ t.dev.plc.recorded = (if before48 s.dev.plc.recorded c.commit then c.commit else s.dev.plc.recorded) ∧ s.memoriesStand t)
      ∧ (∀ z, s.dev.cart.loaded = true → s.dev.cart.readOnly = false → s.dev.plc.session = some z → s.dev.needsReserve = true →
        s.dev.zoneBuffer = true → s.dev.deadTracks.length ≤ min 16 (min (s.dev.get F.vfyCfgBadMax) (s.dev.get F.vfyCfgMarginMax)) →
        (cutParts (s.dev.plc.index.merge []).entries [] 0).length ≤ 1800 → s.dev.plc.zone.1 = ⟨0, 0, true⟩ →
        Runs (.zoneCommit ⟨[], []⟩) s fun t => t.dev.plc.index.commit = s.dev.plc.index.commit + 1 ∧ t.dev.plc.index.delta = []
          ∧ t.dev.get F.plcGenCeilGenCeil = min (s.dev.plc.index.genCeil + 16) 0xFFFFFFFF
          ∧ t.dev.word C.plcZone = s.dev.word C.plcZone + 1
          ∧ t.dev.plc.session = some { z with generation := s.dev.plc.index.genCeil + 1 } ∧ t.dev.plc.nextGen = s.dev.plc.index.genCeil + 2
          ∧ Out.zone 0 0 0 ∈ t.dev.out ∧ t.dev.nor = s.dev.nor ∧ t.dev.feram = s.dev.feram))
  ∧ (∀ (s : State) (z : Session) (zone : ZoneEnv), s.dev.calm = true → s.dev.plc.session = some z → wrapReverse z.place.wrap = false →
      slotsLeft z.place.wrap z.place.slot ≤ 0 → s.dev.writtenUndecided = false → s.dev.plc.stopped = none → s.dev.plc.pendingCopies = [] →
      s.dev.plc.again = [] → z.heel = none → s.dev.leaveWaits = false → s.dev.mayMove = true → s.dev.flag F.glbCobblerRestarting = false →
      s.dev.casMode = 0 →
      ((z.place.next 1).onTape = true → Runs (.wrapTurn zone) s fun t =>
        (∃ z', t.dev.plc.session = some z' ∧ z'.place.wrap = z.place.wrap + 1 ∧ z'.place.band = (z.place.next 1).band
          ∧ z'.place.lane = (z.place.next 1).lane ∧ z'.dsSeq = 0 ∧ z'.group = 0 ∧ z'.index = 0 ∧ z'.generation = z.generation)
        ∧ t.dev.get F.plcSessionWrap = (z.place.wrap + 1) % 256 ∧ t.dev.ecc.deadVfy = [] ∧ t.dev.tce.weltTrim = 0
        ∧ t.dev.pos.mode = .locked ∧ t.dev.get F.posStatusDir = 1 ∧ t.dev.plc.index = s.dev.plc.index ∧ s.memoriesStand t)
      ∧ ((z.place.next 1).onTape = false → Runs (.wrapTurn zone) s fun t =>
        t.dev.plc.stopped = some stFull ∧ t.dev.plc.session = none))

/-! ## Read and verify -/

/-- A C1 codeword of a slot read is reported once and counted by result; its information bytes go to its own 1,024 bytes of the data
set's buffer (R48, R144, R146). It is decoded from the samples of its slot, and one that is wholly erased is reported without
being decoded (R145); a channel without samples, as a disabled one, decodes LLRs of 0 (R94). Verify goes window, C2, decision: the
window reads its slot's data set into a P3 buffer of verify (R61, R169, R170), C2 runs on it when every C1 report is there (R149,
R150), and the decision stands in VFY.LAST and the counters, the first failed check giving REASON (R172); a copy that has no
window fails with REASON 8. -/
def Obligations.SlotVerified : Prop :=
  (∀ (s : State) (n c : Nat) (x : Decode) (w : Retained), s.dev.wantsC1 n c = some x →
      (s.dev.chan.retained.find? fun r => r.slot == x.slot) = some w → c < 8 →
      let norm := s.dev.get F.eccC1CfgNorm
      let limit := s.dev.get F.eccC1CfgIterMax
      let reported : C1Report × Nat × Option (List Byte) → Prop := fun r => Runs (.c1CodewordDecoded n c) s fun t =>
        r.1.channel = n ∧ r.1.codeword = c
        ∧ t.dev.ecc = { s.dev.ecc with decodes := s.dev.ecc.decodes.map fun y =>
            if y.handle == x.handle then { y with reports := y.reports ++ [r.1] } else y }
        ∧ t.dev.word C.eccC1Cw = s.dev.word C.eccC1Cw + (if r.2.2.isSome then 1 else 0)
        ∧ t.dev.word C.eccC1Iter = s.dev.word C.eccC1Iter + BitVec.ofNat 48 r.1.iters
        ∧ t.dev.word C.rchModInvalid = s.dev.word C.rchModInvalid + BitVec.ofNat 48 r.2.1
        ∧ t.dev.word C.eccC1Fail = s.dev.word C.eccC1Fail + (if r.1.ok then 0 else 1)
        ∧ s.wordsBut t [C.eccC1Cw, C.eccC1Iter, C.rchModInvalid, C.eccC1Fail]
        ∧ (let at_ := s.dev.bufAddr x.handle + trackOffset (logicalTrack x.slot n) + 1024 * c
           (∀ bs, r.2.2 = some bs → ∀ i b, bs[i]? = some b → t.dev.ddr.byte zeroByte (at_ + i) = b)
           ∧ ∀ a, a < at_ ∨ at_ + 1024 ≤ a ∨ r.2.2 = none → t.dev.ddr.byte zeroByte a = s.dev.ddr.byte zeroByte a)
        ∧ t.dev.nor = s.dev.nor ∧ t.dev.feram = s.dev.feram ∧ t.dev.plc = s.dev.plc ∧ t.dev.pools = s.dev.pools
      (∀ tr set, (w.reads.find? fun t => t.channel == n) = some tr → (w.sets.find? fun t => t.1 == n) = some set →
        reported (decodeC1 norm limit (s.dev.get F.rchDefectMaxPtr) (s.dev.get F.rchCtrlModLlr)
          (segView set.2 s.dev.defectCfg x.slot (wrapReverse x.wrap) (s.dev.oddTrack x) tr) x n c))
      ∧ ((w.reads.find? fun t => t.channel == n) = none → n < 256 → reported (blankC1 norm limit n c)))
  ∧ (∀ (s : State) (e : Entry) (g h : Nat) (d : Dev) (reads : List TrackSignal) (p : DSet × Copy) (y : Decode), s.dev.calm = true →
      ((s.dev.nextEntries Entry.isWindow).findSome? Entry.windowSlot = some (e, g) →
        s.dev.pos.mode = .locked → (s.dev.ecc.decodes.filter Decode.verify).length < 3 →
        s.dev.allocate 3 ownVerify ownVerify = (some h, d) → s.dev.writtenAt g = some p →
        Runs (.verifyWindow reads) s fun t =>
          (∃ z : Decode, t.dev.ecc.decodes = s.dev.ecc.decodes ++ [z] ∧ z.slot = g ∧ z.verify = true ∧ z.handle = h ∧ z.reports = []
            ∧ z.c2Bad = none)
          ∧ t.dev.pos.entries = s.dev.pos.entries.filter (fun x => x != e) ∧ t.dev.tpos = (s.dev.setTpos e.target).tpos
          ∧ (t.dev.chan.retained.head?.map Retained.slot) = some g ∧ t.dev.pools = d.pools ∧ s.memoriesStand t)
      ∧ ((s.dev.ecc.decodes.find? fun x => x.c2Bad.isNone && x.c1Done) = some y → y.verify = true → s.dev.poison = [] →
        Runs .c2Decode s fun t =>
          (∀ z ∈ t.dev.ecc.decodes, z.handle = y.handle → z.c2Bad.isSome = true)
          ∧ t.dev.ecc.decodes.filter (fun z => z.handle != y.handle) = s.dev.ecc.decodes.filter (fun z => z.handle != y.handle)
          ∧ (∀ a, a < s.dev.bufAddr y.handle ∨ s.dev.bufAddr y.handle + 2097152 ≤ a →
            t.dev.ddr.byte zeroByte a = s.dev.ddr.byte zeroByte a)
          ∧ t.dev.plc = s.dev.plc ∧ t.dev.pools = s.dev.pools
          ∧ s.wordsBut t [C.eccC2Sym, C.eccC2Fail, C.eccMiscorrect, C.hptTxSeg])
      ∧ (s.dev.plc.session = none → s.dev.plc.stopped = none → s.dev.cqm.waits = [] → s.dev.strm.clicks = [] → s.dev.casMode = 0 →
        (s.dev.windowless = none → (s.dev.ecc.decodes.find? fun y => y.verify && y.c2Bad.isSome) = some y →
          (s.dev.plc.dsets.findSome? fun x => if x.member != s.dev.self then none else
            (x.copies.find? fun k => k.slot == y.slot && k.step == .read).map fun k => (x, k)) = some p →
          (∀ n, (y.reports.countP fun r => r.channel == n && !r.ok) < 4) →
          let reason := reasonOf (s.dev.checks p.1 p.2 y)
          Runs .verifyDecision s fun t => t.dev.get F.vfyLastReason = reason ∧ t.dev.get F.vfyLastCopy = p.2.copy % 16
            ∧ t.dev.get F.vfyLastSlot = p.2.slot % 2 ^ 20
            ∧ t.dev.word C.vfyDs = s.dev.word C.vfyDs + 1 ∧ t.dev.word C.vfyFail = s.dev.word C.vfyFail + (if reason = 0 then 0 else 1)
            ∧ t.dev.ecc.decodes = s.dev.ecc.decodes.filter (fun z => z.handle != y.handle)
            ∧ (t.dev.plc.pendingCopies = s.dev.plc.pendingCopies ∨ reason ≠ 0 ∧ p.1.id ∈ t.dev.plc.pendingCopies) ∧ s.memoriesStand t)
        ∧ (s.dev.windowless = some p →
          Runs .verifyDecision s fun t => t.dev.get F.vfyLastReason = 8 ∧ t.dev.word C.vfyDs = s.dev.word C.vfyDs + 1
            ∧ t.dev.word C.vfyFail = s.dev.word C.vfyFail + 1 ∧ s.memoriesStand t
            ∧ s.wordsBut t [F.vfyLastReason.addr, C.vfyDs, C.vfyFail, C.hptTxSeg])))

/-- The ladder in read mode (R158, R162), where no read waits any more: step 1 decodes the failed codewords of a retained slot again,
and a data set that passes then has class 2, which ECC.LAST_FAIL shows (R160); step 3 decodes the group with C3, counted once for
a group; step 4 reads the group again, and counts its re-reads while data sets still fail. -/
def Obligations.LadderStepsTaken : Prop :=
  ∀ (s : State) (x : Decode) (r : Retained) (e : GroupEntry) (reads : List (Nat × List TrackSignal)),
    s.dev.calm = true → s.dev.strm.reads = [] →
    (s.dev.ecc.decodes = [x] → x.failing = true → x.step = 0 → s.dev.ecc.pin = some x.slot → x.reports ≠ [] →
      (x.reports.countP fun r => !r.ok) ≤ s.dev.get F.eccLadderRetryCw → s.dev.stepOn 1 = true → s.dev.stepOn 2 = true →
      (s.dev.chan.retained.find? fun y => y.slot == x.slot) = some r → s.dev.poison = [] →
      Runs .reDecode s fun t =>
        (if (s.dev.redecode x r false).passesC2 x.handle then
          t.dev.get F.eccLastFailClass = 2 ∧ t.dev.get F.eccLastFailIndex = x.index % 64
            ∧ t.dev.get F.eccLastFailGroup = x.group % 2 ^ 14 ∧ t.dev.get F.eccLastFailSlot = x.slot % 2 ^ 20
        else t.dev.word F.eccLastFailClass.addr = s.dev.word F.eccLastFailClass.addr)
        ∧ t.dev.ecc.pin = none ∧ t.dev.ecc.decodes = [] ∧ t.dev.plc = s.dev.plc ∧ t.dev.pos = s.dev.pos ∧ t.dev.tce = s.dev.tce)
    ∧ (s.dev.groupAt 2 = some e → s.dev.stepOn 3 = true → e.noC3 = false →
      Runs .c3ErasureDecode s fun t => t.dev.word C.eccC3Decode = s.dev.word C.eccC3Decode + (if s.dev.ecc.c3Seen.contains (e.wrap, e.group) then 0 else 1)
        ∧ t.dev.plc = s.dev.plc ∧ t.dev.pos = s.dev.pos ∧ t.dev.tce = s.dev.tce ∧ t.dev.nor = s.dev.nor ∧ t.dev.feram = s.dev.feram)
    ∧ (let rev := wrapReverse e.wrap
       let there := s.dev.runAt rev (s.dev.clampSpeed (s.dev.get F.plcStatusSpeedTgt)) (readStart rev (slotAfter rev (s.dev.spanEnd e) 1))
       s.dev.mayMove = true → s.dev.groupAt 3 = some e → s.dev.stepOn 4 = true → (there.mergeReads e reads).unsettled e = true →
       s.dev.ecc.rereads + 1 < s.dev.get F.eccLadderRereads →
       Runs (.groupReread reads) s fun t => t.dev.ecc.rereads = s.dev.ecc.rereads + 1 ∧ t.dev.tpos = there.tpos
         ∧ t.dev.tce = there.tce ∧ t.dev.plc = s.dev.plc ∧ t.dev.nor = s.dev.nor ∧ t.dev.feram = s.dev.feram)

/-! ## Position -/

/-- A servo frame (R62 to R65): its direction shows in DIR, its offset by R63, whether it is valid, its word bit and the frame's
number show in POS.LAT of its input. The direction agrees with the command, so that supervision finds nothing. A welt value shows
how many channels gave it, its mean and the eyelet read, and moves the welt trim by its distance from W0 within its limit (R125,
R373). -/
def Obligations.LateralAndWelts : Prop :=
  (∀ (s : State) (input : Nat) (f : ServoFrame) (p m : Int) (r bit : Bool), input < 2 → s.dev.calm = true →
      frameSums f = some (p, m) → p + m ≠ 0 → frameBit f = some bit → frameReverse f = some r →
      (if r then s.dev.tce.v ≤ 0 else 0 ≤ s.dev.tce.v) →
      Runs (.lateralSample input (some f)) s fun t =>
        t.dev.get (F.posLatOffset.ix input) = unsigned 24 (lateralOffset p m)
        ∧ t.dev.get (F.posLatValid.ix input) = b2n (f.flag.isSome && decide ((p + m - 147456).natAbs ≤ 1536))
        ∧ t.dev.get (F.posLatWordBit.ix input) = b2n bit ∧ t.dev.get (F.posLatFrame.ix input) = unsigned 16 (s.dev.tpos / 3200)
        ∧ t.dev.get F.posStatusDir = b2n r ∧ t.dev.pos.mode = s.dev.pos.mode
        ∧ s.wordsBut t [(F.posLatOffset.ix input).addr, F.posStatusDir.addr, C.hptTxSeg] ∧ s.memoriesStand t)
  ∧ (∀ (s : State) (n : Nat) (xs : List Int) (w : Int), s.dev.channelOn n = true → s.dev.weltSpoilt n s.dev.weltEyelet = false →
      weltOf s.dev.oddLane xs = some w →
      let step := (w - signed 16 (s.dev.get F.tceWeltCalW0)) * (s.dev.get F.tceWeltCalKW : Int) * (s.dev.get F.tceWeltCalWeltGain : Int) / 4096
      let lim := (s.dev.get F.tceWeltCalWeltLim : Int) * 65536 / 20
      Runs (.weltValue [(n, xs)]) s fun t =>
        t.dev.get F.rchWeltContrib = 1 ∧ t.dev.get F.rchWeltValid = 1 ∧ t.dev.get F.rchWeltMean = unsigned 16 w
        ∧ t.dev.get F.rchWeltEyeletLo = unsigned 16 s.dev.weltEyelet ∧ s.wordsBut t [F.rchWeltContrib.addr]
        ∧ t.dev.tce = { s.dev.tce with weltTrim := if s.dev.flag F.tceLatCfgWeltEn then satInt (-lim) lim (s.dev.tce.weltTrim + step)
                                                   else s.dev.tce.weltTrim }
        ∧ t = { s with dev := { s.dev with regs := t.dev.regs, tce := t.dev.tce } })

/-- Signatures and band words set TPOS while it is unset (R66, R67): a complete origin or end signature at its eyelet, the second of
two words with consecutive numbers at the place of its decoding, the word being that of the active band's input where both inputs
decode one. A word that agrees with TPOS changes nothing, one with SYNC that is not valid is counted, and an input whose last
sample is missing decodes none. Either input's word bits begin afresh. The close of an eyelet window moves TPOS to the next
window's end; marks of both bands near their predictions clear the misses and lengthen the runs (R69, R75, R76); in the count
state a mark at the interval moves TPOS by an eyelet (R74). The fourth window without a mark in either band makes a locked
position uncertain (R76), which ends in its loss when it lasts (R86). -/
def Obligations.PositionFollows : Prop :=
  (∀ (s : State) (endSig : Bool) (w u : Word) (upper both : Bool),
      let e : Int := if endSig then (if s.dev.reverse then 140508001 else 140508013) else (if s.dev.reverse then -14 else -2)
      let fast := s.dev.pos.fast
      let set : State → Int → Prop := fun t p =>
        t.dev.tpos = p ∧ t.dev.pos.mode = (if fast then PosMode.acquire else .count)
          ∧ t.dev.get F.posStatusMode = (if fast then 2 else 1) ∧ t.dev.get F.posStatusUncertain = 0
      (s.dev.pos.mode = .unset → Runs (.signatureSeen endSig) s fun t => set t (512 * e)
        ∧ s.wordsBut t [F.posTposTpos.addr, F.posStatusMode.addr] ∧ s.memoriesStand t)
      ∧ (s.dev.follows = false → s.dev.calm = true → s.dev.pos.words = (if upper then (u, w) else (w, u)) →
        (both = true → s.dev.flag F.posStatusActiveBand = upper) →
        let i := b2n upper
        let runs := Runs (if upper then .bandWordDecoded both true else .bandWordDecoded true both) s
        let p := decodePlace s.dev.reverse (s.dev.offsetOf i) (wordNumber w)
        let wrong := if both && hasSync u && !wordValid (s.dev.pos.dataBand + 1 - i) u then 1 else 0
        (wordValid (s.dev.pos.dataBand + i) w = true →
          (s.dev.pos.mode = .unset → s.dev.pos.lastWord = some (if s.dev.reverse then wordNumber w + 1 else wordNumber w - 1) →
            runs fun t => set t p ∧ t.dev.pos.words = (0, 0) ∧ s.memoriesStand t)
          ∧ (s.dev.pos.mode = .locked → eyeletsOff s.dev.reverse p s.dev.tpos = 0 →
            runs fun t => t.dev.pos = { s.dev.pos with lastDiff := none, words := (0, 0) }
              ∧ s.wordsBut t [C.posWordErr, C.hptTxSeg] ∧ t.dev.word C.posWordErr = s.dev.word C.posWordErr + wrong ∧ s.memoriesStand t))
        ∧ (hasSync w = true → wordValid (s.dev.pos.dataBand + i) w = false → (both && hasSync u) = false →
          runs fun t => t.dev.word C.posWordErr = s.dev.word C.posWordErr + 1
            ∧ t.dev.pos = { s.dev.pos with words := (0, 0) } ∧ s.wordsBut t [C.posWordErr, C.hptTxSeg] ∧ s.memoriesStand t)
        ∧ (Runs (.bandWordDecoded false false) s fun t => t.dev.pos = { s.dev.pos with words := (0, 0) }
            ∧ s.wordsBut t [C.posWordErr, C.hptTxSeg] ∧ t.dev.word C.posWordErr = s.dev.word C.posWordErr ∧ s.memoriesStand t)))
  ∧ (∀ (s : State) (p q : Pulse) (a b : Int) (interval : Nat), s.dev.follows = false → s.dev.calm = true →
      (s.dev.pos.mode = .locked → omitted s.dev.nextWindow.1 = false → s.dev.nextWindow.2.natAbs < 2 ^ 47 →
        (Pulse.centre s.dev.pos.amps.1 p = some a → a.natAbs ≤ 192 → Pulse.centre s.dev.pos.amps.2 q = some b → b.natAbs ≤ 192 →
          Runs (.eyeletWindowClose [p] [q]) s fun t => t.dev.tpos = s.dev.nextWindow.2
            ∧ t.dev.get F.posStatusMissLower = 0 ∧ t.dev.get F.posStatusMissUpper = 0
            ∧ t.dev.pos.runLower = s.dev.pos.runLower + 1 ∧ t.dev.pos.runUpper = s.dev.pos.runUpper + 1
            ∧ t.dev.get F.posStatusActiveBand = s.dev.get F.posStatusActiveBand ∧ s.memoriesStand t)
        ∧ (s.dev.get F.posStatusMissLower = 3 → s.dev.get F.posStatusMissUpper = 3 →
          Runs (.eyeletWindowClose [] []) s fun t => t.dev.tpos = s.dev.nextWindow.2 ∧ t.dev.pos.mode = .uncertain
            ∧ t.dev.get F.posStatusUncertain = 1 ∧ t.dev.get F.posStatusUncertainSeen = 1
            ∧ t.dev.word C.posUncertain = s.dev.word C.posUncertain + 1 ∧ t.dev.word C.posFlywheel = s.dev.word C.posFlywheel + 1
            ∧ s.memoriesStand t))
      ∧ (s.dev.pos.mode = .count → s.dev.reverse = false → s.dev.eyelet.natAbs < 2 ^ 38 - 1 → 800000 < interval * 95 →
        4 * (max interval s.dev.pos.interval - min interval s.dev.pos.interval) ≤ s.dev.pos.interval →
        Runs (.eyeletMarkCounted interval) s fun t => t.dev.tpos = 512 * (s.dev.eyelet + 1) ∧ t.dev.pos.mode = .count
          ∧ t.dev.pos.interval = interval ∧ s.memoriesStand t)
      ∧ (s.dev.pos.mode = .uncertain → 1200 ≤ s.dev.pos.uncertainFor →
        Runs .uncertainTimeout s fun t => t.dev.pos.mode = .unset ∧ t.dev.get F.posStatusMode = 0 ∧ t.dev.get F.posStatusLostSeen = 1
          ∧ t.dev.word C.posLost = s.dev.word C.posLost + 1 ∧ (s.dev.quiet = true → s.memoriesStand t)))

/-- The HFM bus (R93, R133 to R137): in maintenance a frame goes out with its CRC, a read with DATA 0, and shows its response; outside
it GO sends the read that stands in WCH.HFM_TX; during LOAD the next enable group is enabled with its fitted channels; a poll
reads FAULT of every enabled module, and where one shows an element fault its channel is faulted, and where one is first too hot
or low in supply the tape stops and the event is logged. -/
def Obligations.HfmBusActs : Prop :=
  ∀ (s : State) (m : Nat) (v : BitVec 32) (r : BitVec 40) (rest : List (BitVec 40)),
    let shows : State → Prop := fun t => t.dev.get F.wchHfmRxDone = 1 ∧ t.dev.get F.wchHfmRxCrcErr = b2n (crcFails r)
      ∧ t.dev.get F.wchHfmRxData = bitsAt r.toNat 23 8 ∧ t.dev.get F.wchHfmRxAddr = bitsAt r.toNat 31 24
      ∧ t.dev.get F.wchHfmRxFlags = bitsAt r.toNat 39 32 ∧ t.dev.word C.wchHfmCrc = s.dev.word C.wchHfmCrc + (if crcFails r then 1 else 0)
      ∧ s.memoriesStand t
    (s.dev.glb.dev = .maintenance → m < 8 → Runs (.hfmFrameSend m v r) s fun t =>
      t.dev.out = .hfm m (hfmFrame (hfmWord true 0xFF 0))
        :: .hfm m (hfmFrame (hfmWord v.msb (bitsAt v.toNat 23 16) (if v.msb then 0 else bitsAt v.toNat 15 0))) :: s.dev.out
      ∧ t.dev.get F.wchHfmTxModule = m ∧ t.dev.get F.wchHfmTxData = bitsAt v.toNat 15 0 ∧ t.dev.get F.wchHfmTxAddr = bitsAt v.toNat 23 16
      ∧ shows t ∧ s.wordsBut t [F.wchHfmTxData.addr, F.wchHfmRxData.addr, C.wchHfmCrc])
    ∧ (s.dev.glb.dev ≠ .maintenance → s.dev.glb.dev.hostUp = true → s.dev.flag F.wchHfmTxRd = true → Runs (.hfmFrameSend m v r) s fun t =>
      t.dev.out = .hfm (s.dev.get F.wchHfmTxModule) (hfmFrame (hfmWord true 0xFF 0))
        :: .hfm (s.dev.get F.wchHfmTxModule) (hfmFrame (hfmWord true (s.dev.get F.wchHfmTxAddr) 0)) :: s.dev.out
      ∧ shows t ∧ s.wordsBut t [F.wchHfmRxData.addr, C.wchHfmCrc])
    ∧ ((s.dev.cqm.cmds.any fun c => c.opcode == opLoad && c.phase == .started) = true → s.dev.chan.groupsOn < 16 →
      let g := s.dev.chan.groupsOn
      Runs .enableGroupStep s fun t => t.dev.chan.groupsOn = g + 1 ∧ t.dev.regs = s.dev.regs
        ∧ t.dev.out = .hfm (g / 2) (hfmFrame (hfmWord false (4 + g % 2) (s.dev.groupMask g))) :: s.dev.out ∧ s.memoriesStand t)
    ∧ (s.dev.glb.dev = .loaded ∨ s.dev.glb.dev = .streaming →
      let asked := fun k => bitAt (s.dev.hfmReg k 1) 0 && !s.dev.ecc.hfmGone.contains k
      let fault := bitsAt r.toNat 23 8
      let n := 32 * m + bitsAt fault 12 8
      (∀ rs k, k < 8 → asked k = true → Runs (.hfmFaultPoll rs) s fun t => Out.hfm k (hfmFrame (hfmWord true 0x02 0)) ∈ t.dev.out)
      ∧ (m < 8 → taken r = true → (∀ k, k < 8 → asked k = decide (k = m)) →
        (bitsAt fault 3 0 = 0 → bitsAt fault 5 4 = 0 → s.dev.calm = true → Runs (.hfmFaultPoll [(m, r :: rest)]) s fun t =>
          t.dev.ecc = s.dev.ecc ∧ t.dev.plc = s.dev.plc ∧ t.dev.tce = s.dev.tce ∧ t.dev.chan.hfmHot = s.dev.chan.hfmHot.filter (fun x => x != m)
            ∧ s.wordsBut t [C.hptTxSeg] ∧ s.memoriesStand t)
        ∧ (bitsAt fault 3 0 ≠ 0 → bitsAt fault 5 4 = 0 → s.dev.ecc.deadHfm.contains n = false → Runs (.hfmFaultPoll [(m, r :: rest)]) s fun t =>
          t.dev.ecc.deadHfm = s.dev.ecc.deadHfm ++ [n] ∧ t.dev.word C.wchHfmFault = s.dev.word C.wchHfmFault + 1
            ∧ t.dev.channelOn n = false)
        ∧ (bitsAt fault 3 0 = 0 → bitsAt fault 5 4 ≠ 0 → s.dev.chan.hfmHot.contains m = false → Runs (.hfmFaultPoll [(m, r :: rest)]) s fun t =>
          t.dev.get F.glbFaultHfm = 1 ∧ t.dev.word C.wchHfmFault = s.dev.word C.wchHfmFault + 1 ∧ t.dev.chan.hfmHot.contains m = true
            ∧ (s.dev.quiet = true → s.dev.tce.reaction = 0 → t.dev.tce.target = .stop ∧ s.memoriesStand t
              ∧ (s.dev.plc.stopped = none → t.dev.plc.stopped = some 0x0301)))))

/-! ## Buffers, memory and DMA -/

/-- Allocate grants the buffer that has been free longest, with that owner alone and the next GEN (R341, R342, R365). -/
def Obligations.PoolAllocateGrants : Prop :=
  ∀ (s : State) (owner : BitVec 3) (handle : BitVec 32) (q : Pool) (i : Nat),
    s.dev.pool? (handlePool handle.toNat) = some q → (q.waiting.all fun w => w.1 != ownDma) = true →
    (handlePool handle.toNat = 3 → s.dev.cart.loaded = true → 3 < q.free) → q.oldestFree = some i →
    Runs (.poolAllocate owner handle) s fun t =>
      (∃ q', t.dev.pool? (handlePool handle.toNat) = some q'
        ∧ q'.buf i = ⟨((q.buf i).gen + 1) % 4096, 2 ^ owner.toNat⟩ ∧ ∀ j, j ≠ i → q'.buf j = q.buf j)
      ∧ (∀ p, p ≠ handlePool handle.toNat → t.dev.pool? p = s.dev.pool? p)
      ∧ t.dev.get F.bpmFwResultDone = 1 ∧ t.dev.get F.bpmFwResultEmpty = 0
      ∧ t.dev.get F.bpmFwResultOwners = 2 ^ owner.toNat
      ∧ t.dev.get F.bpmFwResultHandle = mkHandle (handlePool handle.toNat) i (((q.buf i).gen + 1) % 4096) % 2 ^ 32
      ∧ s.onlyPools t ∧ s.wordsBut t [F.bpmFwResultDone.addr]

/-- Share adds an owner in the running states, release takes one away, query shows the owner set and the current GEN (R342, R344,
R365). Outside the running states a share on a buffer with an owner is refused and counted; the pools stand (R345). -/
def Obligations.PoolOwnersChange : Prop :=
  (∀ (s : State) (owner : BitVec 3) (handle : BitVec 32) (q : Pool),
      s.dev.pool? (handlePool handle.toNat) = some q → handleIndex handle.toNat < q.count →
      let i := handleIndex handle.toNat
      let b := q.buf i
      let shows : State → Buf → Prop := fun t b =>
        (∃ q', t.dev.pool? (handlePool handle.toNat) = some q' ∧ q'.buf i = b ∧ ∀ j, j ≠ i → q'.buf j = q.buf j)
          ∧ (∀ p, p ≠ handlePool handle.toNat → t.dev.pool? p = s.dev.pool? p)
          ∧ t.dev.get F.bpmFwResultDone = 1 ∧ t.dev.get F.bpmFwResultOwners = b.owners % 256
          ∧ t.dev.get F.bpmFwResultHandle = mkHandle (handlePool handle.toNat) i b.gen % 2 ^ 32
          ∧ s.onlyPools t ∧ s.wordsBut t [F.bpmFwResultDone.addr]
      Runs (.poolQuery owner handle) s (fun t => shows t b ∧ t.dev.get F.bpmFwResultEmpty = 0)
      ∧ (s.dev.glb.dev.running = true →
          Runs (.poolShare owner handle) s fun t => shows t ⟨b.gen, b.owners ||| 2 ^ owner.toNat⟩ ∧ t.dev.get F.bpmFwResultEmpty = 0)
      ∧ (bitAt b.owners owner.toNat = true →
          Runs (.poolRelease owner handle) s fun t => shows t ⟨b.gen, b.owners - 2 ^ owner.toNat⟩ ∧ t.dev.get F.bpmFwResultEmpty = 0)
      ∧ (bitAt b.owners owner.toNat = false →
          Runs (.poolRelease owner handle) s fun t => shows t b ∧ t.dev.get F.bpmFwResultEmpty = 0))
  ∧ (∀ (s : State) (owner : BitVec 3) (handle : BitVec 32) (q : Pool),
      s.dev.pool? (handlePool handle.toNat) = some q → (q.buf (handleIndex handle.toNat)).owners ≠ 0 →
      s.dev.glb.dev.running = false →
      Runs (.poolShare owner handle) s fun t =>
        t.dev.pools = s.dev.pools ∧ t.dev.word C.bpmShareRefused = s.dev.word C.bpmShareRefused + 1
          ∧ t.dev.get F.bpmFwResultDone = 1 ∧ t.dev.get F.bpmFwResultEmpty = 1
          ∧ s.onlyRegs t ∧ s.wordsBut t [F.bpmFwResultDone.addr, C.bpmShareRefused])

/-- While both channels are trained, a refresh shows whether the doubled rate is asked for, and refresh, ZQ calibration and retraining
are counted in MEM.CNT_RETRAIN (R335). The patrol scrub counts what it corrects and each completed pass, and leaves memory as it
is (R337, R338). -/
def Obligations.MemoryUpkeep : Prop :=
  (∀ (s : State) (double : Bool) (sub : Nat), s.dev.ddrReady = true → sub < 4 →
      let counted : State → List Nat → Prop := fun t as =>
        t.dev.word C.memRetrain = s.dev.word C.memRetrain + 1 ∧ s.onlyRegs t ∧ s.wordsBut t (C.memRetrain :: as)
      Runs (.ddrRefresh double) s (fun t => counted t [F.memStatusRefresh2x.addr] ∧ t.dev.get F.memStatusRefresh2x = b2n double
        ∧ t.dev.ddrReady = true)
      ∧ Runs .ddrZqCalibration s (counted · []) ∧ Runs (.ddrRetrain sub) s (counted · []))
  ∧ (∀ (s : State) (corrected : List Nat) (done : Bool), s.dev.ddrReady = true → s.dev.get F.memCfgScrubH ≠ 0 → corrected ≠ [] →
      (corrected.all fun a => decide (4 * (a / 4) < s.dev.ddrBytesInstalled)) = true →
      Runs (.patrolScrub corrected [] done) s fun t =>
        t.dev.word C.memCe = s.dev.word C.memCe + BitVec.ofNat 48 corrected.length ∧ t.dev.get F.memStatusCeSeen = 1
        ∧ t.dev.word C.memScrub = s.dev.word C.memScrub + (if done then 1 else 0)
        ∧ s.onlyRegs t ∧ s.wordsBut t [C.memCe, C.memScrub, F.memStatusCeSeen.addr] ∧ s.memoriesStand t)

/-- GO makes an idle, done or stopped channel ready and changes nothing in any other state (R361, R367). STOP ends a ready channel at
once and a running one after its current burst, with no CRC written; CLEAR makes a halted or stopped channel idle (R361, R362).
The engine takes the next ready channel in ascending order from the channel that ran last, wrapping from 7 to 0 (R361). A poisoned
read halts the running channel: nothing is written, the channel latches the error and the halt is counted and seen (R362). -/
def Obligations.DmaChannelsRun : Prop :=
  (∀ (s : State) (c : Nat), c < 8 →
      (s.dev.ch c F.dmaChState = 0 ∨ s.dev.ch c F.dmaChState = 3 ∨ s.dev.ch c F.dmaChState = 5 →
        Runs (.dmaGo c) s fun t => t.dev.ch c F.dmaChState = 1 ∧ t.dev.ch c F.dmaChBytesDone = 0 ∧ t.dev.ch c F.dmaChErrKind = 0
          ∧ s.onlyRegs t ∧ s.wordsBut t [0x0C0015 + 8 * c, 0x0C0016 + 8 * c])
      ∧ (s.dev.ch c F.dmaChState = 1 ∨ s.dev.ch c F.dmaChState = 2 ∨ s.dev.ch c F.dmaChState = 4 → exec (.dmaGo c) s = .next s))
  ∧ (∀ (s : State) (c bursts : Nat), c < 8 →
      (s.dev.ch c F.dmaChState = 1 →
        Runs (.dmaStop c bursts) s fun t => t.dev.ch c F.dmaChState = 5 ∧ s.onlyRegs t ∧ s.wordsBut t [0x0C0015 + 8 * c])
      ∧ (s.dev.ch c F.dmaChState = 2 → s.dev.dmaRunning = some c →
        let x := copyBursts (s.dev.ch c F.dmaChSrcSpace) (s.dev.ch c F.dmaChDstSpace) ((s.dev.burstsOf c).take bursts)
          ⟨s.dev, [], none⟩
        x.err = none →
        Runs (.dmaStop c bursts) s fun t => t.dev.ch c F.dmaChState = 5 ∧ t.dev.get F.dmaStatusBusy = 0
          ∧ t.dev.ddr = x.dev.ddr ∧ t.dev.cobMem = x.dev.cobMem
          ∧ t.dev.ch c F.dmaChCrc = x.dev.ch c F.dmaChCrc)
      ∧ (s.dev.ch c F.dmaChState = 4 ∨ s.dev.ch c F.dmaChState = 5 →
        Runs (.dmaClear c) s fun t => t.dev.ch c F.dmaChState = 0
          ∧ t.dev.get F.dmaStatusHalted = s.dev.get F.dmaStatusHalted &&& (255 - 2 ^ c)
          ∧ s.onlyRegs t ∧ s.wordsBut t [0x0C0015 + 8 * c, F.dmaStatusHalted.addr]))
  ∧ (∀ (s : State) (k : Nat), s.dev.flag F.dmaStatusBusy = false → s.dev.glb.dev ≠ .standby → k < 8 →
      (∀ j, j < k → s.dev.ch ((s.dev.get F.dmaStatusCurrent + 1 + j) % 8) F.dmaChState ≠ 1) →
      s.dev.ch ((s.dev.get F.dmaStatusCurrent + 1 + k) % 8) F.dmaChState = 1 →
      Runs .dmaChannelStart s fun t =>
        t.dev.ch ((s.dev.get F.dmaStatusCurrent + 1 + k) % 8) F.dmaChState = 2 ∧ t.dev.get F.dmaStatusBusy = 1
        ∧ t.dev.get F.dmaStatusCurrent = (s.dev.get F.dmaStatusCurrent + 1 + k) % 8
        ∧ s.onlyRegs t
        ∧ s.wordsBut t [0x0C0015 + 8 * ((s.dev.get F.dmaStatusCurrent + 1 + k) % 8), F.dmaStatusBusy.addr])
  ∧ (∀ (s : State) (c w : Nat), c < 8 → s.dev.dmaRunning = some c → s.dev.ddrReady = true →
      s.dev.ch c F.dmaChSrcSpace = 0 → s.dev.ch c F.dmaChYM1 = 0 → s.dev.ch c F.dmaChXM1 < 256 →
      s.dev.ch c F.dmaChSrcAddr + s.dev.ch c F.dmaChXM1 + 1 ≤ s.dev.ddrBytesInstalled →
      s.dev.poisonIn (s.dev.ch c F.dmaChSrcAddr) (s.dev.ch c F.dmaChXM1 + 1) = some w →
      Runs .dmaHalted s fun t =>
        t.dev.ch c F.dmaChState = 4 ∧ t.dev.ch c F.dmaChErrKind = 3 ∧ t.dev.ch c F.dmaChErrDir = 0
        ∧ t.dev.ch c F.dmaChErrSpace = 0 ∧ t.dev.ch c F.dmaChErrAddr = w % 2 ^ 40
        ∧ t.dev.ch c F.dmaChBytesDone = s.dev.ch c F.dmaChBytesDone
        ∧ t.dev.get F.dmaStatusHaltSeen = 1 ∧ t.dev.get F.dmaStatusBusy = 0
        ∧ t.dev.word C.dmaHalt = s.dev.word C.dmaHalt + 1 ∧ s.memoriesStand t)

/-- A copy of one row of at most 256 bytes from DDR to DDR moves its bytes and no other, counts them and ends the channel (R359,
R361). -/
def Obligations.DmaCopiesRow : Prop :=
  ∀ (s : State) (c : Nat), c < 8 → s.dev.dmaRunning = some c → s.dev.ddrReady = true → s.dev.poison = [] →
    s.dev.ch c F.dmaChSrcSpace = 0 → s.dev.ch c F.dmaChDstSpace = 0 → s.dev.ch c F.dmaChYM1 = 0 → s.dev.ch c F.dmaChXM1 < 256 →
    s.dev.ch c F.dmaChCrcEn = 0 →
    let n := s.dev.ch c F.dmaChXM1 + 1
    let src := s.dev.ch c F.dmaChSrcAddr
    let dst := s.dev.ch c F.dmaChDstAddr
    src + n ≤ s.dev.ddrBytesInstalled → dst + n ≤ s.dev.ddrBytesInstalled →
    Runs .dmaChannelDone s fun t =>
      (∀ i, i < n → t.dev.ddr.byte zeroByte (dst + i) = s.dev.ddr.byte zeroByte (src + i))
      ∧ (∀ a, (a < dst ∨ dst + n ≤ a) → t.dev.ddr.byte zeroByte a = s.dev.ddr.byte zeroByte a)
      ∧ t.dev.ch c F.dmaChState = 3 ∧ t.dev.get F.dmaStatusBusy = 0
      ∧ t.dev.ch c F.dmaChBytesDone = (s.dev.ch c F.dmaChBytesDone + n) % 2 ^ 40
      ∧ t.dev.word C.dmaBytes = s.dev.word C.dmaBytes + BitVec.ofNat 48 n
      ∧ t = { s with dev := { s.dev with ddr := t.dev.ddr, regs := t.dev.regs } }
      ∧ s.wordsBut t [0x0C0015 + 8 * c, F.dmaStatusBusy.addr, C.dmaBytes]

/-- A pointer mismatch empties its FIFO, shows its ID and is counted (R355, R356); of a transmit FIFO it resets the connection (R284),
of a snapshot crossing it marks the bank in flight, of a cascade port it rewinds the port; every other one is logged as 0x0309. -/
def Obligations.FifoFaultActs : Prop :=
  ∀ (s : State) (id : Nat) (k : Conn), id < 0x280 → s.dev.glb.standbyHeld = false →
    let noted : State → Prop := fun t => t.dev.get F.fifStatusFaultSeen = 1 ∧ t.dev.get F.fifStatusLastId = id
      ∧ t.dev.word C.fifFault = s.dev.word C.fifFault + 1 ∧ sparseGet (fun _ => Fifo.zero) t.dev.fifos id = Fifo.zero
    Runs (.fifoPointerMismatch id) s noted
    ∧ (0x200 ≤ id → id < 0x240 → s.dev.hpt.conns = [k] → k.id = id - 0x200 → k.st ≠ .closeWait →
      Runs (.fifoPointerMismatch id) s fun t => noted t ∧ t.dev.hpt.conns = [] ∧ t.dev.word C.hptReset = s.dev.word C.hptReset + 1)
    ∧ (s.dev.calm = true → 0x240 ≤ id → (id < 0x250 ∨ 0x258 ≤ id) →
      Runs (.fifoPointerMismatch id) s fun t => noted t ∧ (t.dev.cqm.log.head?.map LogEntry.status) = some 0x0309
        ∧ t.dev.plc = s.dev.plc ∧ t.dev.ecc = s.dev.ecc ∧ s.memoriesStand t
        ∧ (id < 0x270 → t.dev.cnt = s.dev.cnt)
        ∧ (∀ b, 0x270 ≤ id → s.dev.cnt.banks.head? = some b →
          (t.dev.cnt.banks.head?.map fun x => x.map fun y => y.header) = some (b.map fun y => modAt (fun w => w ||| 0x200000) y.header 0)))
    ∧ (id < 0x200 → s.dev.quiet = true → s.dev.ecc.decodes = [] →
      Runs (.fifoPointerMismatch id) s fun t => noted t ∧ (t.dev.cqm.log.head?.map LogEntry.status) = some 0x0309 ∧ s.memoriesStand t)
    ∧ (s.dev.calm = true → 0x250 ≤ id → id < 0x258 → s.dev.cas.ports.length = 2 → (s.dev.casPort ((id - 0x250) / 4)).up = true →
      (s.dev.casPort ((id - 0x250) / 4)).rewinds < 15 →
      Runs (.fifoPointerMismatch id) s fun t => noted t
        ∧ (t.dev.casPort ((id - 0x250) / 4)).rewinds = (s.dev.casPort ((id - 0x250) / 4)).rewinds + 1)

/-! ## Transport and motors -/

/-- A sample of a closed slot with a valid measurement runs the compensator (R376 to R379): the histories move up by one, the error
and the output, saturated within the slot's limits, show; an open slot holds or takes its output from OPEN_OUT (R382), and a lost
sample of a closed slot leaves the loop as it was and is counted. -/
def Obligations.LoopSampleRuns : Prop :=
  ∀ (s : State) (slot : Nat) (delay : BitVec 12) (m : Int), slot < 8 → s.dev.tce.loops.length = 8 → s.dev.quiet = true →
    let l := s.dev.loop slot
    let f := fun (x : Fld) => x.ix (64 * slot)
    let lim := fun (x : Fld) => signed 48 (s.dev.get (f x))
    let c := compensate (s.dev.coefs slot l.bank) (s.dev.flag (f F.tceSlotForm)) l (sat48 (s.dev.reference slot) - m) (s.dev.feedForward slot)
      (lim F.tceSlotOutMin) (lim F.tceSlotOutMax)
    let counted : State → Prop := fun t => t.dev.word (C.tceSample + slot) = s.dev.word (C.tceSample + slot) + 1
      ∧ t.dev.get (f F.tceSlotDLast) = delay.toNat ∧ s.memoriesStand t
    (s.dev.closed slot = true → s.dev.measured slot = (m, .valid) → (s.dev.runSlot slot .valid m).fails = [] →
      Runs (.loopSample slot false delay) s fun t => counted t
        ∧ (t.dev.loop slot).e1 = word48 c.e ∧ (t.dev.loop slot).e2 = l.e1 ∧ (t.dev.loop slot).e3 = l.e2
        ∧ (t.dev.loop slot).u1 = word48 c.u ∧ (t.dev.loop slot).u2 = l.u1 ∧ (t.dev.loop slot).u3 = l.u2
        ∧ (t.dev.loop slot).y = word48 c.y ∧ t.dev.get (f F.tceSlotLastErr) = unsigned 48 c.e
        ∧ (∀ i, i ≠ slot → slot ≠ 3 → t.dev.loop i = s.dev.loop i))
    ∧ (s.dev.closed slot = false →
      let y := if bitAt (s.dev.get F.tceLoopCtrlOpenSrc) slot then s.dev.word (F.tceSlotOpenOut.ix (64 * slot)).addr else l.y
      Runs (.loopSample slot false delay) s fun t => counted t ∧ (t.dev.loop slot).y = y
        ∧ (t.dev.loop slot).e1 = l.e1 ∧ (t.dev.loop slot).u1 = l.u1 ∧ t.dev.get (f F.tceSlotLastOut) = y.toNat)
    ∧ (s.dev.closed slot = true → l.invRun + 1 ≠ s.dev.get F.tceSupCfgInvMax →
      Runs (.loopSample slot true delay) s fun t => counted t ∧ t.dev.loop slot = { l with invRun := l.invRun + 1 }
        ∧ t.dev.word (C.tceInvalid + slot) = s.dev.word (C.tceInvalid + slot) + 1)

/-- The LAT output sets the leg requests of the voice coil: leg 0 (leg 6 of the twelve) takes (0.5 + y / 2) T, leg 1 the rest (R426).
Within a period the request changes the pulse in progress (R413): before the high gate has turned on the pulse is placed anew, not
before the next step; while it is on only its end moves; after it has turned off nothing changes. What is not delivered is
carried. -/
def Obligations.VoiceCoilFollowsLat : Prop :=
  ∀ (s : State) (lost : Bool) (delay : BitVec 12), s.dev.quiet = true → s.dev.mdr.legs.length = 12 → s.dev.tce.loops.length = 8 →
    (s.dev.runSlot 0 (if lost then .invalid else (s.dev.measured 0).2) (s.dev.measured 0).1).fails = [] →
    Runs (.loopSample 0 lost delay) s fun t =>
      let y := (t.dev.loop 0).y.toInt
      (t.dev.leg 6).req = 2500000 + y * 2500000 / fullScale ∧ (t.dev.leg 7).req = 2500000 - y * 2500000 / fullScale
        ∧ (∀ l, l ≠ 6 → l ≠ 7 → t.dev.leg l = s.dev.leg l)
        ∧ ∀ l, l = 6 ∨ l = 7 →
          let x := s.dev.leg l
          let z := t.dev.leg l
          (s.dev.driven 2 = false ∨ x.off = true ∨ s.dev.pwmPhase 2 = none → z = { x with req := z.req })
          ∧ ∀ now, s.dev.pwmPhase 2 = some now → s.dev.driven 2 = true → x.off = false → 0 < x.width →
            (now < x.start → z.width + z.carry = z.req + x.base ∧ 0 ≤ z.width ∧ (z.width = 0 ∨ now < z.start))
            ∧ (x.start ≤ now → now < x.start + x.width →
                z.start = x.start ∧ z.width + z.carry = z.req + x.base ∧ now + 625 ≤ z.start + z.width)
            ∧ (x.start + x.width ≤ now → z = { x with req := z.req })

/-- A step of the profile generator moves V_CMD and A_CMD towards the speed wanted under the limits in force (R376, R391, R392); a
tape that the Last has no use for is stopped, and a reaction stops it once the write gate is closed and holds its speed before
(R388). -/
def Obligations.ProfileSteps : Prop :=
  ∀ (s : State), s.dev.calm = true → s.dev.pos.mode ≠ .uncertain → s.dev.tce.stopping = false →
    let step := fun (d : Dev) (want : Int) => pgStep d.pgLimits.1 d.pgLimits.2 d.tce.v d.tce.a want
    let moves : State → Int × Int → Prop := fun t va =>
      t.dev.tce.v = va.1 ∧ t.dev.tce.a = va.2 ∧ t.dev.tpos = s.dev.tpos ∧ t.dev.glb = s.dev.glb ∧ s.memoriesStand t
    (s.dev.lastIdle = false → s.dev.tce.reaction = 0 → (step s.dev s.dev.speedWanted).1 ≠ 0 →
      Runs .profileGeneratorStep s fun t => moves t (step s.dev s.dev.speedWanted) ∧ t.dev.tce.target = s.dev.tce.target)
    ∧ (s.dev.lastIdle = true → s.dev.tce.reaction = 0 → (step s.dev 0).1 ≠ 0 →
      Runs .profileGeneratorStep s fun t => moves t (step s.dev 0) ∧ t.dev.tce.target = .stop)
    ∧ (s.dev.tce.reaction ≠ 0 → s.dev.flag F.posStatusWriteGate = false → (step s.dev 0).1 ≠ 0 →
      Runs .profileGeneratorStep s fun t => moves t (step s.dev 0) ∧ t.dev.tce.reaction = s.dev.tce.reaction)
    ∧ (s.dev.tce.reaction ≠ 0 → s.dev.flag F.posStatusWriteGate = true → s.dev.tce.a = 0 → s.dev.tce.v ≠ 0 →
      Runs .profileGeneratorStep s fun t => moves t (s.dev.tce.v, 0) ∧ t.dev.tce.reaction = s.dev.tce.reaction)

/-- Slots open and close in maintenance, by a write of LOOP_CTRL and by MAINT_LOOP (R382, R383, R396); a write of CLOSED in another
state changes nothing. A test run that nothing bars and in which the position locks runs its length, stands, and returns its
samples, the slot's flags and the longest delay (R396). -/
def Obligations.LoopsInMaintenance : Prop :=
  (∀ (s : State) (value mask : Word) (c : Cmd) (k : Conn) (q : Queue),
      (s.dev.glb.dev = .maintenance → s.dev.cart.loaded = false →
        Runs (.loopCtrlWrite value mask) s fun t =>
          (∀ i, i < 8 → bitAt (t.dev.get F.tceLoopCtrlClosed) i
            = (if mask.getLsbD i then value.getLsbD i else bitAt (s.dev.get F.tceLoopCtrlClosed) i))
          ∧ (∀ i, i < 8 → bitAt (t.dev.get F.tceLoopCtrlOpenSrc) i
            = (if mask.getLsbD (8 + i) then value.getLsbD (8 + i) else bitAt (s.dev.get F.tceLoopCtrlOpenSrc) i))
          ∧ s.wordsBut t [F.tceLoopCtrlClosed.addr] ∧ t = { s with dev := { s.dev with regs := t.dev.regs, tce := t.dev.tce } })
      ∧ (F.tceLoopCtrlClosed.of mask ≠ 0 → s.dev.glb.dev ≠ .maintenance → Runs (.loopCtrlWrite value mask) s (· = s))
      ∧ (c.par 17 1 < 8 →
        (s.maintains c k q opLoop 0 → s.dev.heldClosed (c.par 17 1) = false →
          Runs (.loopOpen c.h) s fun t => t.toldGood s.dev c k false [] ∧ t.dev.closed (c.par 17 1) = false
            ∧ (∀ i, i < 8 → i ≠ c.par 17 1 → t.dev.closed i = s.dev.closed i) ∧ s.memoriesStand t)
        ∧ (s.maintains c k q opLoop 1 →
          Runs (.loopClose c.h) s fun t => t.toldGood s.dev c k false [] ∧ t.dev.closed (c.par 17 1) = true
            ∧ (∀ i, i < 8 → i ≠ c.par 17 1 → t.dev.closed i = s.dev.closed i) ∧ s.memoriesStand t)))
  ∧ (∀ (s : State) (c : Cmd) (k : Conn) (q : Queue) (n : BitVec 32), s.maintains c k q opLoop 2 → c.par 17 1 < 8 →
      s.dev.testBar c = none → s.dev.motionBar = none →
      let f := fun (x : Fld) => s.dev.get (x.ix (64 * c.par 17 1))
      Runs (.loopTestRun c.h ⟨true, n, none⟩) s fun t =>
        t.toldGood s.dev c k false (leBytes 4 n.toNat ++ leBytes 1 (f F.tceSlotFlags) ++ leBytes 1 0 ++ leBytes 2 (f F.tceSlotDMax) ++ leBytes 1 0)
          ∧ t.dev.eyelet = (if bitAt (c.par 18 1) 0 then s.dev.eyelet - s.dev.testLength c else s.dev.eyelet + s.dev.testLength c)
          ∧ t.dev.tce.v = 0 ∧ t.dev.tce.a = 0 ∧ t.dev.pos.mode = .count
          ∧ t.dev.word (C.tceSample + c.par 17 1) = s.dev.word (C.tceSample + c.par 17 1) + BitVec.ofNat 48 n.toNat ∧ s.memoriesStand t)

/-- Trace buffers (R394, R395, R397): a buffer is armed with the settings of its registers, by ARM or by the command, its content
discarded; STOP ends it; READ returns its records, oldest first. -/
def Obligations.TracesRecorded : Prop :=
  ∀ (s : State) (b : Nat) (c : Cmd) (k : Conn) (q : Queue), b < 4 → s.dev.tce.traces.length = 4 →
    let f := fun (x : Fld) => s.dev.get (x.ix (4 * b))
    let trig := f F.tceTraceTrig
    (s.dev.calm = true → trig ≠ 3 → trig ≠ 4 → Runs (.traceArm (.register b)) s fun t =>
      t.dev.trace b = ⟨if trig = 0 then 2 else 1, f F.tceTraceSource, trig, f F.tceTraceFlagMask, BitVec.ofNat 48 (f F.tceTraceTarget),
        f F.tceTracePost, max 1 (f F.tceTraceDecim), [], none, f F.tceTracePost, 0⟩
      ∧ (∀ i, i ≠ b → t.dev.trace i = s.dev.trace i) ∧ s.wordsBut t [C.hptTxSeg] ∧ s.memoriesStand t)
    ∧ (c.par 17 1 = b → c.par 18 1 ≤ 8 → c.par 19 1 ≤ 5 → c.par 19 1 ≠ 3 → c.par 19 1 ≠ 4 →
      s.maintains c k q opTrace 0 → Runs (.traceArm (.command c.h)) s fun t =>
        t.toldGood s.dev c k false (leBytes 2 0 ++ leBytes 1 (if c.par 19 1 = 0 then 2 else 1) ++ leBytes 1 0 ++ leBytes 2 0xFFFF)
        ∧ (t.dev.trace b).source = c.par 18 1 ∧ (t.dev.trace b).trig = c.par 19 1 ∧ (t.dev.trace b).recs = [] ∧ s.memoriesStand t)
    ∧ (c.par 17 1 = b →
      let tr := s.dev.trace b
      let now := if tr.state = 1 ∨ tr.state = 2 then 3 else tr.state
      let res := leBytes 2 tr.recs.length ++ leBytes 1 now ++ leBytes 1 0 ++ leBytes 2 (tr.trigIndex.getD 0xFFFF)
      (s.maintains c k q opTrace 1 → Runs (.traceStop c.h) s fun t =>
        t.toldGood s.dev c k false res ∧ t.dev.trace b = { tr with state := now } ∧ s.memoriesStand t)
      ∧ (s.maintains c k q opTrace 2 → Runs (.traceRead c.h) s fun t =>
        t.gaveData c (tr.recs.reverse.flatMap fun r => r.flatMap fun w => leBytes 6 w.toNat)
        ∧ t.toldGood s.dev c k false res ∧ t.dev.trace b = { tr with state := now } ∧ s.memoriesStand t))

/-- A period of a driven group other than the stepper places each leg's pulse by the three cases of R412, centred on the peak (R411),
and carries what it did not deliver; the other groups' legs stand. The stepper's period moves its place towards the wanted one by
at most ST_SLEW (R427); the hold amplitude is taken once the place has not changed. -/
def Obligations.PulsesAndStepper : Prop :=
  (∀ (s : State) (g l : Nat), g < 3 → l ∈ legsOf g → s.dev.mdr.legs.length = 12 → s.dev.driven g = true →
      let x := s.dev.leg l
      let t := x.req + x.carry
      let dead := 1000 * (s.dev.get (F.mdrPwmCfgDead.ix g) : Int)
      let least := 1000 * (s.dev.get (F.mdrPwmCfgMinPulse.ix g) : Int)
      let pulse := fun (w : Int) => (⟨x.req, t - w, w, x.carry, pwmPeriod g / 2 - w / 625 / 2 * 625, false⟩ : Leg)
      Runs (.pwmPeriod g) s fun u =>
        (t < max dead least → u.dev.leg l = pulse 0)
        ∧ (max dead least ≤ t → pwmPeriod g - 2 * dead - least < t → u.dev.leg l = pulse (pwmPeriod g))
        ∧ (max dead least ≤ t → t ≤ pwmPeriod g - 2 * dead - least →
            ∃ w, u.dev.leg l = pulse w ∧ w % 625 = 0 ∧ -312 ≤ t - w ∧ t - w ≤ 312)
        ∧ (∀ k, k ∉ legsOf g → u.dev.leg k = s.dev.leg k)
        ∧ u = { s with dev := { s.dev with mdr := u.dev.mdr, out := u.dev.out, regs := u.dev.regs } }
        ∧ s.wordsBut u [C.mdrSuppress])
  ∧ (∀ (s : State),
      (Runs (.pwmPeriod 3) s fun t =>
        ((s.dev.mdr.stWant - s.dev.mdr.stPos).natAbs ≤ s.dev.get F.mdrStCfgStSlew → t.dev.mdr.stPos = s.dev.mdr.stWant)
        ∧ (t.dev.mdr.stPos - s.dev.mdr.stPos).natAbs ≤ s.dev.get F.mdrStCfgStSlew
        ∧ (t.dev.mdr.stPos ≠ s.dev.mdr.stPos → t.dev.mdr.stHold = false)
        ∧ t.dev.mdr.stWant = s.dev.mdr.stWant ∧ s.wordsBut t [C.mdrSuppress])
      ∧ Runs .stepperHold s fun t => t = { s with dev := { s.dev with mdr := { s.dev.mdr with stHold := true } } })

/-- The commutation modes change as R423 says: Align after the bootstrap, Open or Eyelet after Align, Open when no eyelet is counted,
Observer on a reacquisition that succeeds (R425). A valley of a reel in Open mode: the angle goes on by the speed that V_CMD makes
at the pack's radius, and MDR.REEL shows angle and speed (R422). -/
def Obligations.ReelsCommutate : Prop :=
  (∀ (s : State) (x : Nat), x < 2 → s.dev.mdr.reels.length = 2 →
      let modes : State → (Nat → Nat) → Prop := fun t m => ∀ y, y < 2 → t.dev.reelMode y = m y
      let keep : Nat → Nat → Nat := fun m y => if y = x then m else s.dev.reelMode y
      (s.dev.reelMode x = 0 → x ∈ s.dev.mdr.boot → x ∉ s.dev.mdr.gdWait →
        Runs .bootstrapEnd s fun t => t.dev.reelMode x = 1 ∧ (t.dev.reel x).theta = 0 ∧ (t.dev.reel x).omega = 0 ∧ t.dev.mdr.boot = []
          ∧ s.wordsBut t [F.mdrReelMode.addr, F.mdrReelMode.addr + 1])
      ∧ (s.dev.reelMode x = 1 → (s.dev.reel x).restart = false →
        Runs (.alignEnd x) s fun t => modes t (keep (if s.dev.counting then 3 else 2)) ∧ s.wordsBut t [F.mdrReelMode.addr + x])
      ∧ (s.dev.reelMode x = 3 → Runs .eyeletTimeout s fun t => t.dev.reelMode x = 2 ∧ t.dev.pos.silent = true
          ∧ s.wordsBut t [F.mdrReelMode.addr, F.mdrReelMode.addr + 1])
      ∧ (s.dev.reelMode x = 3 → s.dev.tce.reaction = 2 → (s.dev.reel x).restart = true → 500000000000 ≤ s.dev.tapeSpeed.1.natAbs →
        (∃ y, y < 2 ∧ y ≠ x ∧ (s.dev.reel y).restart = true) →
        Runs (.observerReacqAttempt x true) s fun t => modes t (keep 4) ∧ t.dev.word C.mdrObsReacq = s.dev.word C.mdrObsReacq + 1
          ∧ (t.dev.reel x).restart = false ∧ s.wordsBut t [F.mdrReelMode.addr + x, C.mdrObsReacq]))
  ∧ (∀ (s : State) (x : Nat), x < 2 → s.dev.mdr.reels.length = 2 → s.dev.reelMode x = 2 → s.dev.calm = true →
      let w := quot s.dev.tce.v (s.dev.radius x)
      Runs (.reelCommutation x) s fun t =>
        (t.dev.reel x).omega = w
        ∧ (t.dev.reel x).theta = (s.dev.reel x).theta + BitVec.ofInt 32 (angleStep (s.dev.get (F.mdrMotorPoles.ix x)) w)
        ∧ t.dev.get (F.mdrReelAngle.ix x) = (angle16 (t.dev.reel x).theta).toNat
        ∧ t.dev.get (F.mdrReelSpeed.ix x) = unsigned 16 (satInt (-32768) 32767 (w / 10))
        ∧ t.dev.reelMode x = 2)

/-- A quadrature input counts one step up where A leads B and one down where B leads A; a change of both is an error that is not
counted (R428, R429). The first index sets COUNT to 0, later ones correct it (R430). A conversion within the limits sets the
channel's value and path and counts a change of path (R415, R416); the ×8 path is kept below 7,680 and taken below 512. -/
def Obligations.QuadratureAndCurrents : Prop :=
  (∀ (s : State) (q : Nat) (a b : Bool), q < 2 → s.dev.flag (F.mdrQeCfgEn.ix q) = true → s.dev.mdr.quads.length = 2 →
      let x := s.dev.quad q
      let f := F.mdrQeCountCount.ix q
      let frame : State → List Nat → Prop := fun t as =>
        t = { s with dev := { s.dev with mdr := t.dev.mdr, regs := t.dev.regs } } ∧ s.wordsBut t as
      ((a ≠ x.a ∧ b = x.b ∧ a ≠ b) ∨ (a = x.a ∧ b ≠ x.b ∧ a = b) →
        Runs (.quadratureEdge q a b) s fun t => t.dev.word f.addr = s.dev.word f.addr + 1 ∧ frame t [f.addr])
      ∧ ((a ≠ x.a ∧ b = x.b ∧ a = b) ∨ (a = x.a ∧ b ≠ x.b ∧ a ≠ b) →
        Runs (.quadratureEdge q a b) s fun t => t.dev.word f.addr = s.dev.word f.addr - 1 ∧ frame t [f.addr])
      ∧ (a ≠ x.a → b ≠ x.b →
        Runs (.quadratureEdge q a b) s fun t => t.dev.word f.addr = s.dev.word f.addr
          ∧ t.dev.word (C.mdrQerr + q) = s.dev.word (C.mdrQerr + q) + 1 ∧ bitAt (t.dev.get F.mdrStatusQerr) q = true
          ∧ frame t [C.mdrQerr + q, F.mdrStatusQerr.addr])
      ∧ (q = 0 → x.indexed = false → Runs (.quadratureIndex 0) s fun t => t.dev.get f = 0 ∧ (t.dev.quad 0).indexed = true ∧ frame t [f.addr])
      ∧ (q = 0 → x.indexed = true → x.up = true → s.dev.get f ≠ 0 →
        Runs (.quadratureIndex 0) s fun t => t.dev.get f = 0 ∧ t.dev.word C.mdrIdxCorr = s.dev.word C.mdrIdxCorr + 1
          ∧ frame t [f.addr, C.mdrIdxCorr]))
  ∧ (∀ (s : State) (c1 c8 : Int), -8192 ≤ c1 → c1 ≤ 8191 → -8192 ≤ c8 → c8 ≤ 8191 → s.dev.mdr.path8.length = 10 → s.dev.calm = true →
      let was := s.dev.mdr.path8.getD 0 false
      let now := if was then decide (c8.natAbs < 7680) else decide (c1.natAbs < 512)
      (s.dev.combined 0 now c1 c8).natAbs ≤ s.dev.get F.mdrPwmCfgOcLim * 64 →
      Runs (.currentSenseConversion [(c1, c8)]) s fun t =>
        t.dev.mdr.path8.getD 0 false = now ∧ t.dev.get F.mdrCsRange = b2n now
        ∧ t.dev.get F.mdrCsValue = unsigned 17 (s.dev.combined 0 now c1 c8)
        ∧ t.dev.word C.mdrRangeSwitch = s.dev.word C.mdrRangeSwitch + (if now = was then 0 else 1)
        ∧ s.wordsBut t [F.mdrCsRange.addr, C.mdrRangeSwitch, C.hptTxSeg])

/-- The first index of input 0 sets COUNT to 0; a later one, with COUNT rising and not 0, sets it to 0 and is counted; another one
changes nothing (R430). -/
def Obligations.IndexSetsCount : Prop :=
  ∀ (s : State), s.dev.flag F.mdrQeCfgEn = true → s.dev.mdr.quads.length = 2 →
    let x := s.dev.quad 0
    let f := F.mdrQeCountCount
    (x.indexed = false → Runs (.quadratureIndex 0) s fun t => t.dev.get f = 0 ∧ (t.dev.quad 0).indexed = true ∧ s.wordsBut t [f.addr])
    ∧ (x.indexed = true → x.up = true → s.dev.get f ≠ 0 → Runs (.quadratureIndex 0) s fun t => t.dev.get f = 0
        ∧ t.dev.word C.mdrIdxCorr = s.dev.word C.mdrIdxCorr + 1 ∧ s.onlyRegs t ∧ s.wordsBut t [f.addr, C.mdrIdxCorr])
    ∧ (x.indexed = true → x.up = false ∨ s.dev.get f = 0 → Runs (.quadratureIndex 0) s (· = s))

/-- A gate-driver fault is noted, counted and reported, its GD_EN goes low, and with reel drivers the reels are braked (R431, R535).
Once the reels have stood, GD_EN of a waiting driver goes high once more; if GD_FLT_N stays high a reel driver restarts both reels
from Align and a second fault leaves the driver off (R432, R425). -/
def Obligations.DriverFaultsAndRestarts : Prop :=
  (∀ (s : State) (g : Nat), g < 4 → s.dev.quiet = true → s.dev.plc.stopped.isSome = true → s.dev.plc.judged = true →
      Runs (.gateDriverFault g) s fun t =>
        bitAt (t.dev.get F.mdrStatusGdFault) g = true ∧ t.dev.word C.mdrGdFault = s.dev.word C.mdrGdFault + 1
        ∧ bitAt (t.dev.get F.mdrStatusGdEn) g = false ∧ t.dev.get F.mdrStatusMotorFaultSeen = 1 ∧ t.dev.get F.glbFaultMotor = 1
        ∧ (g < 2 → t.dev.get F.mdrStatusBrake = 1 ∧ t.dev.reelMode g = 0)
        ∧ (g ∉ s.dev.mdr.gdSeen → g ∈ t.dev.mdr.gdWait) ∧ (g ∈ s.dev.mdr.gdSeen → g ∈ t.dev.mdr.gdDead)
        ∧ s.memoriesStand t)
  ∧ (∀ (s : State) (g : Nat), g < 4 → g ∈ s.dev.mdr.gdWait → s.dev.calm = true → s.dev.mdr.reels.length = 2 →
      ((g ∉ s.dev.mdr.gdDead → (s.dev.mdr.reels.all fun r => decide (r.omega.natAbs < 500)) = true →
        Runs (.gdEnReassert g) s fun t => bitAt (t.dev.get F.mdrStatusGdEn) g = true ∧ (g < 3 → g ∈ t.dev.mdr.boot)
          ∧ t = { s with dev := { s.dev with mdr := t.dev.mdr, regs := t.dev.regs } } ∧ s.wordsBut t [F.mdrStatusGdEn.addr]))
      ∧ (bitAt (s.dev.get F.mdrStatusGdEn) g = true → g < 2 →
        Runs (.gdRestartCheck g true) s fun t => g ∉ t.dev.mdr.gdWait ∧ bitAt (t.dev.get F.mdrStatusGdFault) g = false
          ∧ t.dev.get F.mdrStatusBrake = 0 ∧ t.dev.reelMode 0 = 1 ∧ t.dev.reelMode 1 = 1
          ∧ t.dev.word C.mdrRestart = s.dev.word C.mdrRestart + 2)
      ∧ (bitAt (s.dev.get F.mdrStatusGdEn) g = true → g ∈ s.dev.mdr.gdSeen →
        Runs (.gdRestartCheck g false) s fun t => g ∈ t.dev.mdr.gdDead ∧ bitAt (t.dev.get F.mdrStatusGdEn) g = false))

/-! ## Cascade -/

/-- Members of a set: at link-up the master checks a member, which is then linked, or absent with CASCADE_CONFIG (R450); a joining
member becomes joined at a boundary (R451); a planned removal makes it leaving, and with no session absent (R459); a loss is
counted and logged (R458). A member notes its latency, its join and the loss of its master. The link: a port whose acknowledgement
does not advance rewinds and sends its replay FIFO again, and goes down at the sixteenth rewind in succession; a flit that fails
its FCRC is answered by a NAK (R448); the expected flit for another device is passed on (R443), and one for this device joins what
has come from its source, where that is not yet a whole message. FC_IN shows the pins; in width mode the device passes it on with
its own watermarks and the master pauses (R357, R455). A width member follows its master's beacon: TPOS, clock, direction and
state (R452); a beacon missed is a flywheel insertion of its own, counted, and the fourth in succession makes the position
uncertain (R453). -/
def Obligations.CascadeRuns : Prop :=
  (∀ (s : State) (port member : Nat) (info : LinkInfo), s.dev.cas.ports.length = 2 → s.dev.calm = true →
      let others : State → Prop := fun t => ∀ j, j ≠ member → t.dev.memberState j = s.dev.memberState j
      let logged : State → Nat → Prop := fun t code => t.dev.cqm.log.head?.map LogEntry.status = some code
      (s.dev.isMaster = true →
        (port < 2 → 1 ≤ member → member < 16 → s.dev.memberState member ≠ 2 → s.dev.memberState member ≠ 3 → s.dev.memberState member ≠ 4 →
          Runs (.cascadeLinkUp port member info) s fun t => (t.dev.casPort port).up = true ∧ others t ∧ s.memoriesStand t
            ∧ (s.dev.memberFits member info = true → t.dev.memberState member = 1 ∧ t.dev.cqm = s.dev.cqm)
            ∧ (s.dev.memberFits member info = false → t.dev.memberState member = 0 ∧ logged t 0x030F))
        ∧ (s.dev.memberState member = 2 → s.dev.joinBoundary = true → s.dev.flag F.glbCobblerRestarting = false →
          Runs (.cascadeJoin member) s fun t => t.dev.memberState member = 3 ∧ others t ∧ t.dev.get F.casStatusJoinSeen = 1
            ∧ t.dev.word C.casJoin = s.dev.word C.casJoin + 1 ∧ logged t 0x030D ∧ s.memoriesStand t)
        ∧ (s.dev.memberState member = 3 → s.dev.casMode = 1 →
          (s.dev.plc.session.isSome = true → Runs (.memberLeave member) s fun t => t.dev.memberState member = 4 ∧ others t
            ∧ t = { s with dev := { s.dev with cas := t.dev.cas } })
          ∧ (s.dev.plc.session = none → Runs (.memberLeave member) s fun t => t.dev.memberState member = 0 ∧ s.memoriesStand t
            ∧ t.dev.word C.casLeave = s.dev.word C.casLeave
              + BitVec.ofNat 48 ((s.dev.setMember member 4).cas.members.filter fun m => m.state == 4).length))
        ∧ (s.dev.memberState member = 1 ∨ s.dev.memberState member = 2
            ∨ s.dev.memberState member = 3 ∧ s.dev.casMode = 1 ∧ s.dev.plc.session = none ∧ s.dev.plc.dsets = [] ∧ s.dev.cqm.waits = []
              ∧ s.dev.strm.clicks = [] ∧ s.dev.plc.stopped = none →
          Runs (.cascadeLoss member false) s fun t => t.dev.memberState member = 5 ∧ others t ∧ t.dev.get F.casStatusLossSeen = 1
            ∧ t.dev.word C.casLoss = s.dev.word C.casLoss + 1 ∧ logged t 0x030E ∧ s.memoriesStand t))
      ∧ (s.dev.isMember = true →
        (port < 2 → info.idTaken = false → Runs (.cascadeLinkUp port member info) s fun t =>
          (t.dev.casPort port).up = true ∧ t.dev.cas.lat = info.latency.toNat ∧ t.dev.cas.masterLost = false ∧ s.memoriesStand t)
        ∧ (member = s.dev.ownId → Runs (.cascadeJoin member) s fun t => t.dev.cas = { s.dev.cas with joined := true }
          ∧ t.dev.get F.casStatusJoinSeen = 1 ∧ s.wordsBut t [F.casStatusJoinSeen.addr] ∧ s.memoriesStand t)
        ∧ (s.dev.cas.masterLost = false → s.dev.casMode = 2 → s.dev.plc.session = none → Runs (.cascadeLoss member true) s fun t =>
          t.dev.cas.masterLost = true ∧ t.dev.cas.joined = false ∧ t.dev.word C.casLoss = s.dev.word C.casLoss + 1 ∧ logged t 0x030E
          ∧ s.memoriesStand t)))
  ∧ (∀ (s : State) (p : Nat) (bs : List Byte) (level : BitVec 2), s.dev.calm = true → s.dev.cas.ports.length = 2 →
      let k := s.dev.casPort p
      let f := flitOf bs
      (k.up = true → k.replay ≠ [] →
        (k.rewinds < 15 → Runs (.replayTimeout p) s fun t => t.dev.casPort p = { k with rewinds := k.rewinds + 1 }
          ∧ t.dev.word C.casRewind = s.dev.word C.casRewind + 1
          ∧ t.dev.out = (k.replay.map fun f => Out.ofFlit p { f with ackSeq := BitVec.ofNat 16 k.rcvSeq }).reverse ++ s.dev.out
          ∧ s.wordsBut t [C.casRewind] ∧ s.memoriesStand t)
        ∧ (15 ≤ k.rewinds → Runs (.replayTimeout p) s fun t => (t.dev.casPort p).up = false
          ∧ t.dev.word C.casPortDown = s.dev.word C.casPortDown + 1 ∧ t.dev.out = s.dev.out ∧ s.memoriesStand t))
      ∧ (p < 2 → k.up = true →
        (fcrcGood bs = false → Runs (.flitReceived p bs) s fun t => t.dev.casPort p = { k with waiting := true }
          ∧ t.dev.word C.casNak = s.dev.word C.casNak + 1
          ∧ (∃ g, Out.ofFlit p g ∈ t.dev.out ∧ g.ftype = 4 ∧ g.seq = BitVec.ofNat 16 k.rcvSeq) ∧ s.memoriesStand t)
        ∧ (fcrcGood bs = true → f.ftype = 1 ∨ f.ftype = 3 → f.seq.toNat = k.rcvSeq →
          (f.dst.toNat ≠ s.dev.ownId → f.vc ≠ 0 →
            (s.dev.casPort (1 - p)).up = true → (s.dev.casPort (1 - p)).outq = [] → (s.dev.casPort (1 - p)).replay.length < 256 →
            (s.dev.casPort (1 - p)).credit.getD (f.vc.toNat - 1) 0 ≠ 0 →
            Runs (.flitReceived p bs) s fun t => (t.dev.casPort p).rcvSeq = (k.rcvSeq + 1) % 65536 ∧ (t.dev.casPort p).waiting = false
              ∧ (∃ g, Out.ofFlit (1 - p) g ∈ t.dev.out ∧ g.payload = f.payload ∧ g.dst = f.dst ∧ g.src = f.src ∧ g.vc = f.vc)
              ∧ s.memoriesStand t)
          ∧ (f.dst.toNat = s.dev.ownId → Runs (.flitReceived p bs) s fun t =>
            let got := s.dev.inboxOf f.src.toNat f.vc.toNat ++ f.payload
            Config.linkLength got = none → t.dev.inboxOf f.src.toNat f.vc.toNat = got
              ∧ (t.dev.casPort p).rcvSeq = (k.rcvSeq + 1) % 65536 ∧ s.memoriesStand t)))
      ∧ Runs (.fcInChange level) s (fun t => t.dev.get F.casStatusFcIn = level.toNat ∧ s.memoriesStand t
          ∧ (s.dev.casMode ≠ 1 → s.onlyRegs t ∧ s.wordsBut t [F.casStatusFcIn.addr])
          ∧ (s.dev.casMode = 1 →
            let low := level.getLsbD 0 || (!s.dev.chan.low.isEmpty && s.dev.chan.taking.isSome)
            let out := b2n low + 2 * b2n (level.getLsbD 1 || !s.dev.chan.high.isEmpty)
            t.dev.cas.fcOut = out ∧ (out ≠ s.dev.cas.fcOut → Out.pin "FC_OUT" out ∈ t.dev.out) ∧ t.dev.cas.fcPause = (low && s.dev.isMaster)
              ∧ t.dev.word C.casFcPause = s.dev.word C.casFcPause + (if (low && s.dev.isMaster && !s.dev.cas.fcPause) = true then 1 else 0))))
  ∧ (∀ (s : State) (b : Beacon), s.dev.calm = true → s.dev.follows = true →
      (s.dev.cas.masterLost = false → s.dev.cas.unsure = false → b.mode = 1 ∨ b.mode = 2 ∨ b.mode = 3 →
        Runs (.beaconReceived b) s fun t => t.dev.tpos = b.tposE.toInt ∧ t.dev.pos.freq = b.freq.toNat
          ∧ t.dev.get F.posStatusDir = b2n b.dir ∧ t.dev.cas.misses = 0
          ∧ t.dev.pos.mode = (if b.mode = 1 then .count else if b.mode = 2 then .acquire else .locked)
          ∧ t.dev.pos.sinceFly = (if b.fly then 0 else s.dev.pos.sinceFly + 1) ∧ s.memoriesStand t)
      ∧ (s.dev.pos.mode = .locked →
        Runs .beaconMiss s fun t => t.dev.cas.misses = s.dev.cas.misses + 1
          ∧ t.dev.word C.posFlywheel = s.dev.word C.posFlywheel + 1 ∧ t.dev.word C.casBeaconMiss = s.dev.word C.casBeaconMiss + 1
          ∧ t.dev.tpos = (s.dev.setTpos (s.dev.tpos + (if s.dev.reverse then -512 else 512))).tpos
          ∧ t.dev.pos.mode = (if 4 ≤ s.dev.cas.misses + 1 then .uncertain else .locked) ∧ s.memoriesStand t))
end

