-- ==== Sys2Proof/Laws/Sparse.lean ====
section
/-!
SUPPORT. Laws of sparse storage and of the memories: a read after a write, other places left alone, the canonical form kept.
-/
namespace Sys2Proof.Machine

variable {β : Type}

theorem sparseGet_erase_same (dflt : Nat → β) (m : List (Nat × β)) (a : Nat) :
    sparseGet dflt (sparseErase m a) a = dflt a := by
  induction m with
  | nil => rfl
  | cons x m ih =>
    obtain ⟨k, w⟩ := x
    by_cases h : k = a
    · simpa [sparseErase, h] using ih
    · have : sparseErase ((k, w) :: m) a = (k, w) :: sparseErase m a := by simp [sparseErase, h]
      rw [this, sparseGet, if_neg (fun e => h e.symm), ih]

theorem sparseGet_erase_other (dflt : Nat → β) (m : List (Nat × β)) {a b : Nat} (hab : b ≠ a) :
    sparseGet dflt (sparseErase m a) b = sparseGet dflt m b := by
  induction m with
  | nil => rfl
  | cons x m ih =>
    obtain ⟨k, w⟩ := x
    by_cases h : k = a
    · subst h; simpa [sparseErase, sparseGet, hab] using ih
    · have : sparseErase ((k, w) :: m) a = (k, w) :: sparseErase m a := by simp [sparseErase, h]
      rw [this, sparseGet, sparseGet, ih]

theorem sparseGet_insert_same (dflt : Nat → β) (m : List (Nat × β)) (a : Nat) (v : β) (h : ∀ x ∈ m, x.1 ≠ a) :
    sparseGet dflt (sparseInsert m a v) a = v := by
  induction m with
  | nil => simp [sparseInsert, sparseGet]
  | cons x m ih =>
    obtain ⟨k, w⟩ := x
    have hk : k ≠ a := h (k, w) (by simp)
    by_cases hl : a < k
    · simp [sparseInsert, sparseGet, hl]
    · have := ih fun y hy => h y (by simp [hy])
      simp [sparseInsert, sparseGet, hl, Ne.symm hk, this]

theorem sparseGet_insert_other (dflt : Nat → β) (m : List (Nat × β)) {a b : Nat} (v : β) (hab : b ≠ a) :
    sparseGet dflt (sparseInsert m a v) b = sparseGet dflt m b := by
  induction m with
  | nil => simp [sparseInsert, sparseGet, hab]
  | cons x m ih =>
    obtain ⟨k, w⟩ := x
    by_cases hl : a < k
    · simp [sparseInsert, sparseGet, hl, hab]
    · simp [sparseInsert, sparseGet, hl, ih]

theorem erase_keys (m : List (Nat × β)) (a : Nat) : ∀ x ∈ sparseErase m a, x.1 ≠ a := by
  intro x hx
  simpa [sparseErase] using (List.mem_filter.mp hx).2

variable [DecidableEq β]

/-- A read of the key just written. -/
@[simp] theorem sparseGet_put_same (dflt : Nat → β) (m : List (Nat × β)) (a : Nat) (v : β) :
    sparseGet dflt (sparsePut dflt m a v) a = v := by
  unfold sparsePut
  split
  · next h => rw [sparseGet_erase_same, h]
  · exact sparseGet_insert_same _ _ _ _ (erase_keys m a)

/-- A read of any other key. -/
theorem sparseGet_put_other (dflt : Nat → β) (m : List (Nat × β)) {a b : Nat} (v : β) (hab : b ≠ a) :
    sparseGet dflt (sparsePut dflt m a v) b = sparseGet dflt m b := by
  unfold sparsePut
  split
  · exact sparseGet_erase_other _ _ hab
  · rw [sparseGet_insert_other _ _ _ hab, sparseGet_erase_other _ _ hab]

/-- Both at once. -/
theorem sparseGet_put (dflt : Nat → β) (m : List (Nat × β)) (a b : Nat) (v : β) :
    sparseGet dflt (sparsePut dflt m a v) b = if b = a then v else sparseGet dflt m b := by
  by_cases h : b = a
  · subst h; simp
  · simp [h, sparseGet_put_other _ _ _ h]

/-! ## The canonical form -/

theorem sparseFrom_mono (dflt : Nat → β) {m : List (Nat × β)} {lo lo' : Nat} (h : lo' ≤ lo)
    (hm : sparseFrom dflt lo m = true) : sparseFrom dflt lo' m = true := by
  cases m with
  | nil => rfl
  | cons x m =>
    obtain ⟨k, w⟩ := x
    simp only [sparseFrom, Bool.and_eq_true, decide_eq_true_eq] at hm ⊢
    exact ⟨⟨le_trans h hm.1.1, hm.1.2⟩, hm.2⟩

theorem sparseFrom_erase (dflt : Nat → β) (m : List (Nat × β)) (a : Nat) :
    ∀ lo, sparseFrom dflt lo m = true → sparseFrom dflt lo (sparseErase m a) = true := by
  induction m with
  | nil => intro lo _; rfl
  | cons x m ih =>
    obtain ⟨k, w⟩ := x
    intro lo hm
    simp only [sparseFrom, Bool.and_eq_true, decide_eq_true_eq] at hm
    have hr := ih (k + 1) hm.2
    by_cases h : k = a
    · have : sparseErase ((k, w) :: m) a = sparseErase m a := by simp [sparseErase, h]
      rw [this]; exact sparseFrom_mono dflt (by omega) hr
    · have : sparseErase ((k, w) :: m) a = (k, w) :: sparseErase m a := by simp [sparseErase, h]
      rw [this]; simp [sparseFrom, hm.1.1, hm.1.2, hr]

theorem sparseFrom_insert (dflt : Nat → β) (m : List (Nat × β)) (a : Nat) (v : β) (hv : v ≠ dflt a) :
    ∀ lo, lo ≤ a → (∀ x ∈ m, x.1 ≠ a) → sparseFrom dflt lo m = true → sparseFrom dflt lo (sparseInsert m a v) = true := by
  induction m with
  | nil => intro lo hl _ _; simp [sparseInsert, sparseFrom, hl, hv]
  | cons x m ih =>
    obtain ⟨k, w⟩ := x
    intro lo hl hk hm
    have hka : k ≠ a := hk (k, w) (by simp)
    simp only [sparseFrom, Bool.and_eq_true, decide_eq_true_eq] at hm
    by_cases h : a < k
    · have h2 : sparseFrom dflt (k + 1) m = true := hm.2
      simp [sparseInsert, sparseFrom, h, hl, hv, hm.1.2, h2, Nat.succ_le_of_lt h]
    · have h2 := ih (k + 1) (by omega) (fun y hy => hk y (by simp [hy])) hm.2
      simp [sparseInsert, sparseFrom, h, hm.1.1, hm.1.2, h2]

/-- A write keeps the canonical form. -/
theorem sparseWf_put (dflt : Nat → β) (m : List (Nat × β)) (a : Nat) (v : β) (h : sparseWf dflt m = true) :
    sparseWf dflt (sparsePut dflt m a v) = true := by
  unfold sparsePut
  split
  · exact sparseFrom_erase dflt m a 0 h
  · next hv => exact sparseFrom_insert dflt _ a v hv 0 (Nat.zero_le a) (erase_keys m a) (sparseFrom_erase dflt m a 0 h)

/-! ## Memories -/

/-- Storing a byte keeps the canonical form. -/
theorem Memory.wf_store (dflt : Nat → Byte) (m : Memory) (a : Nat) (b : Byte) (h : m.wf dflt = true) :
    Memory.wf dflt (m.store dflt a b) = true := sparseWf_put dflt m a b h

/-- Storing bytes keeps the canonical form. -/
theorem Memory.wf_storeAll (dflt : Nat → Byte) (bs : List Byte) :
    ∀ (m : Memory) (a : Nat), m.wf dflt = true → Memory.wf dflt (m.storeAll dflt a bs) = true := by
  induction bs with
  | nil => intro m a h; exact h
  | cons b bs ih => intro m a h; exact ih _ _ (Memory.wf_store dflt m a b h)

/-- A byte after a byte is stored. -/
theorem Memory.byte_store (dflt : Nat → Byte) (m : Memory) (a x : Nat) (b : Byte) :
    (Memory.store dflt m a b).byte dflt x = if x = a then b else m.byte dflt x := sparseGet_put dflt m a x b

/-- A byte after bytes are stored: the one stored at its place, or the one before. -/
theorem Memory.byte_storeAll (dflt : Nat → Byte) (bs : List Byte) : ∀ (m : Memory) (a x : Nat),
    (Memory.storeAll dflt m a bs).byte dflt x
      = if a ≤ x ∧ x < a + bs.length then bs.getD (x - a) 0 else m.byte dflt x := by
  induction bs with
  | nil => intro m a x; simp [Memory.storeAll]
  | cons b bs ih =>
    intro m a x
    rw [Memory.storeAll, ih, Memory.byte_store]
    by_cases h : x = a
    · subst h; simp
    · by_cases h1 : a + 1 ≤ x ∧ x < a + 1 + bs.length
      · have e : x - a = (x - (a + 1)) + 1 := by omega
        have h2 : a ≤ x ∧ x < a + (b :: bs).length := by simp; omega
        rw [if_pos h1, if_pos h2, e, List.getD_cons_succ]
      · have h2 : ¬ (a ≤ x ∧ x < a + (b :: bs).length) := by simp; omega
        rw [if_neg h1, if_neg h2, if_neg h]

end Sys2Proof.Machine
end

