-- ==== Sys2Proof/Laws/Fields.lean ====
section
/-!
SUPPORT. Laws of register words and fields: what a field holds after a field, a word or a counter is written.
-/
namespace Sys2Proof.Machine

/-- A field lies in a register. -/
def Fld.fits (f : Fld) : Bool := decide (f.lo + f.width ≤ 48)

/-- Two fields of one register share no bit. -/
def Fld.apart (f g : Fld) : Bool := decide (f.lo + f.width ≤ g.lo) || decide (g.lo + g.width ≤ f.lo)

theorem Fld.testBit_of (f : Fld) (w : Word) (i : Nat) :
    (f.of w).testBit i = (decide (i < f.width) && w.toNat.testBit (f.lo + i)) := by
  simp [Fld.of, Nat.testBit_mod_two_pow, Nat.testBit_div_two_pow, Nat.add_comm]

theorem Fld.getLsbD_mask (f : Fld) (i : Nat) :
    f.mask.getLsbD i = (decide (i < 48) && decide (f.lo ≤ i) && decide (i < f.lo + f.width)) := by
  rw [Fld.mask, BitVec.getLsbD_ofNat, Nat.testBit_mul_two_pow, Nat.testBit_two_pow_sub_one]
  by_cases h : i < 48 <;> by_cases h2 : f.lo ≤ i <;> simp [h, h2]
  omega

theorem Fld.getLsbD_into (f : Fld) (w : Word) (v i : Nat) :
    (f.into w v).getLsbD i = (decide (i < 48) &&
      if f.lo ≤ i ∧ i < f.lo + f.width then v.testBit (i - f.lo) else w.getLsbD i) := by
  rw [Fld.into, BitVec.getLsbD_or, BitVec.getLsbD_and, BitVec.getLsbD_not, Fld.getLsbD_mask, BitVec.getLsbD_ofNat,
    Nat.testBit_mul_two_pow, Nat.testBit_mod_two_pow]
  by_cases h : i < 48
  · by_cases h1 : f.lo ≤ i <;> by_cases h2 : i < f.lo + f.width
    · have : i - f.lo < f.width := by omega
      simp [h, h1, h2, this]
    · have : ¬ i - f.lo < f.width := by omega
      simp [h, h1, h2, this]
    · simp [h, h1, h2]
    · simp [h, h1, h2]
  · simp [h]

/-- A field just written. -/
theorem Fld.of_into (f : Fld) (w : Word) (v : Nat) (h : f.fits = true) : f.of (f.into w v) = v % 2 ^ f.width := by
  have hf : f.lo + f.width ≤ 48 := by simpa [Fld.fits] using h
  apply Nat.eq_of_testBit_eq
  intro i
  rw [Fld.testBit_of, Nat.testBit_mod_two_pow]
  by_cases hi : i < f.width
  · have e := Fld.getLsbD_into f w v (f.lo + i)
    rw [BitVec.getLsbD] at e
    rw [e]
    have h1 : f.lo + i < 48 := by omega
    simp [hi, h1]
  · simp [hi]

/-- Another field of the same register. -/
theorem Fld.of_into_apart (f g : Fld) (w : Word) (v : Nat) (h : f.apart g = true) : g.of (f.into w v) = g.of w := by
  have hf : f.lo + f.width ≤ g.lo ∨ g.lo + g.width ≤ f.lo := by simpa [Fld.apart] using h
  apply Nat.eq_of_testBit_eq
  intro i
  rw [Fld.testBit_of, Fld.testBit_of]
  by_cases hi : i < g.width
  · have e := Fld.getLsbD_into f w v (g.lo + i)
    rw [BitVec.getLsbD] at e
    rw [e]
    have h0 : ¬ (f.lo ≤ g.lo + i ∧ g.lo + i < f.lo + f.width) := by omega
    by_cases h1 : g.lo + i < 48
    · simp only [hi, h1, h0, decide_true, if_false, Bool.true_and]
      rfl
    · have : w.toNat.testBit (g.lo + i) = false :=
        Nat.testBit_lt_two_pow (lt_of_lt_of_le w.isLt (Nat.pow_le_pow_right (by decide) (by omega)))
      simp [h1, this]
  · simp [hi]

/-! ## Words -/

@[simp] theorem Dev.word_putWord_same (d : Dev) (a : Nat) (w : Word) : (d.putWord a w).word a = w := by
  simp [Dev.word, Dev.putWord]

theorem Dev.word_putWord_other (d : Dev) {a b : Nat} (w : Word) (h : b ≠ a) : (d.putWord a w).word b = d.word b :=
  sparseGet_put_other _ _ _ h

/-- A word after a word is written. -/
theorem Dev.word_putWord (d : Dev) (a b : Nat) (w : Word) : (d.putWord a w).word b = if b = a then w else d.word b :=
  sparseGet_put _ _ _ _ _

/-- A word of another register after a field is written. -/
theorem Dev.word_set_other (d : Dev) (f : Fld) (v : Nat) {b : Nat} (h : b ≠ f.addr) : (d.set f v).word b = d.word b :=
  d.word_putWord_other _ h

/-! ## Fields -/

/-- A field just set. -/
theorem Dev.get_set_same (d : Dev) (f : Fld) (v : Nat) (h : f.fits = true) : (d.set f v).get f = v % 2 ^ f.width := by
  simp [Dev.get, Dev.set, Fld.of_into f _ v h]

/-- A field of another register. -/
theorem Dev.get_set_addr (d : Dev) (f g : Fld) (v : Nat) (h : g.addr ≠ f.addr) : (d.set f v).get g = d.get g := by
  simp [Dev.get, Dev.word_set_other d f v h]

/-- Another field of the same register. -/
theorem Dev.get_set_apart (d : Dev) (f g : Fld) (v : Nat) (ha : g.addr = f.addr) (h : f.apart g = true) :
    (d.set f v).get g = d.get g := by
  unfold Dev.get Dev.set
  rw [ha, Dev.word_putWord_same, Fld.of_into_apart f g _ _ h]

/-- Any field that is not the one set. -/
theorem Dev.get_set_other (d : Dev) (f g : Fld) (v : Nat) (h : (g.addr != f.addr || f.apart g) = true) :
    (d.set f v).get g = d.get g := by
  by_cases ha : g.addr = f.addr
  · exact d.get_set_apart f g v ha (by simpa [ha] using h)
  · exact d.get_set_addr f g v ha

/-- A field of a register that no counter is, after counting. -/
theorem Dev.get_bumpBy (d : Dev) (a n : Nat) (g : Fld) (h : g.addr ≠ a) : (d.bumpBy a n).get g = d.get g := by
  simp [Dev.get, Dev.bumpBy, Dev.word_putWord_other d _ h]

/-- The counter itself (R527). -/
@[simp] theorem Dev.word_bump_same (d : Dev) (a : Nat) : (d.bump a).word a = d.word a + 1 := by
  simp [Dev.bump, Dev.bumpBy]

/-- Another word after counting. -/
theorem Dev.word_bumpBy_other (d : Dev) (a n : Nat) {b : Nat} (h : b ≠ a) : (d.bumpBy a n).word b = d.word b :=
  d.word_putWord_other _ h

end Sys2Proof.Machine
end

