-- ==== Sys2Proof/Laws/State.lean ====
section
/-!
SUPPORT. Frames of the named updates of the device: for each update, one lemma per part of the device that it leaves alone.
-/
namespace Sys2Proof.Machine

/-! ## `Dev.putWord` -/

@[simp] theorem Dev.putWord_glb (d : Dev) (a : Nat) (w : Word) : (d.putWord a w).glb = d.glb := rfl
@[simp] theorem Dev.putWord_ddr (d : Dev) (a : Nat) (w : Word) : (d.putWord a w).ddr = d.ddr := rfl
@[simp] theorem Dev.putWord_nor (d : Dev) (a : Nat) (w : Word) : (d.putWord a w).nor = d.nor := rfl
@[simp] theorem Dev.putWord_feram (d : Dev) (a : Nat) (w : Word) : (d.putWord a w).feram = d.feram := rfl
@[simp] theorem Dev.putWord_cobMem (d : Dev) (a : Nat) (w : Word) : (d.putWord a w).cobMem = d.cobMem := rfl
@[simp] theorem Dev.putWord_poison (d : Dev) (a : Nat) (w : Word) : (d.putWord a w).poison = d.poison := rfl
@[simp] theorem Dev.putWord_pools (d : Dev) (a : Nat) (w : Word) : (d.putWord a w).pools = d.pools := rfl
@[simp] theorem Dev.putWord_fifos (d : Dev) (a : Nat) (w : Word) : (d.putWord a w).fifos = d.fifos := rfl
@[simp] theorem Dev.putWord_hpt (d : Dev) (a : Nat) (w : Word) : (d.putWord a w).hpt = d.hpt := rfl
@[simp] theorem Dev.putWord_cqm (d : Dev) (a : Nat) (w : Word) : (d.putWord a w).cqm = d.cqm := rfl
@[simp] theorem Dev.putWord_strm (d : Dev) (a : Nat) (w : Word) : (d.putWord a w).strm = d.strm := rfl
@[simp] theorem Dev.putWord_plc (d : Dev) (a : Nat) (w : Word) : (d.putWord a w).plc = d.plc := rfl
@[simp] theorem Dev.putWord_cart (d : Dev) (a : Nat) (w : Word) : (d.putWord a w).cart = d.cart := rfl
@[simp] theorem Dev.putWord_ecc (d : Dev) (a : Nat) (w : Word) : (d.putWord a w).ecc = d.ecc := rfl
@[simp] theorem Dev.putWord_chan (d : Dev) (a : Nat) (w : Word) : (d.putWord a w).chan = d.chan := rfl
@[simp] theorem Dev.putWord_pos (d : Dev) (a : Nat) (w : Word) : (d.putWord a w).pos = d.pos := rfl
@[simp] theorem Dev.putWord_tce (d : Dev) (a : Nat) (w : Word) : (d.putWord a w).tce = d.tce := rfl
@[simp] theorem Dev.putWord_mdr (d : Dev) (a : Nat) (w : Word) : (d.putWord a w).mdr = d.mdr := rfl
@[simp] theorem Dev.putWord_cnt (d : Dev) (a : Nat) (w : Word) : (d.putWord a w).cnt = d.cnt := rfl
@[simp] theorem Dev.putWord_cas (d : Dev) (a : Nat) (w : Word) : (d.putWord a w).cas = d.cas := rfl
@[simp] theorem Dev.putWord_sec (d : Dev) (a : Nat) (w : Word) : (d.putWord a w).sec = d.sec := rfl
@[simp] theorem Dev.putWord_pin (d : Dev) (a : Nat) (w : Word) : (d.putWord a w).pin = d.pin := rfl
@[simp] theorem Dev.putWord_freeIx (d : Dev) (a : Nat) (w : Word) : (d.putWord a w).freeIx = d.freeIx := rfl
@[simp] theorem Dev.putWord_out (d : Dev) (a : Nat) (w : Word) : (d.putWord a w).out = d.out := rfl

/-! ## `Dev.set` -/

@[simp] theorem Dev.set_glb (d : Dev) (f : Fld) (v : Nat) : (d.set f v).glb = d.glb := rfl
@[simp] theorem Dev.set_ddr (d : Dev) (f : Fld) (v : Nat) : (d.set f v).ddr = d.ddr := rfl
@[simp] theorem Dev.set_nor (d : Dev) (f : Fld) (v : Nat) : (d.set f v).nor = d.nor := rfl
@[simp] theorem Dev.set_feram (d : Dev) (f : Fld) (v : Nat) : (d.set f v).feram = d.feram := rfl
@[simp] theorem Dev.set_cobMem (d : Dev) (f : Fld) (v : Nat) : (d.set f v).cobMem = d.cobMem := rfl
@[simp] theorem Dev.set_poison (d : Dev) (f : Fld) (v : Nat) : (d.set f v).poison = d.poison := rfl
@[simp] theorem Dev.set_pools (d : Dev) (f : Fld) (v : Nat) : (d.set f v).pools = d.pools := rfl
@[simp] theorem Dev.set_fifos (d : Dev) (f : Fld) (v : Nat) : (d.set f v).fifos = d.fifos := rfl
@[simp] theorem Dev.set_hpt (d : Dev) (f : Fld) (v : Nat) : (d.set f v).hpt = d.hpt := rfl
@[simp] theorem Dev.set_cqm (d : Dev) (f : Fld) (v : Nat) : (d.set f v).cqm = d.cqm := rfl
@[simp] theorem Dev.set_strm (d : Dev) (f : Fld) (v : Nat) : (d.set f v).strm = d.strm := rfl
@[simp] theorem Dev.set_plc (d : Dev) (f : Fld) (v : Nat) : (d.set f v).plc = d.plc := rfl
@[simp] theorem Dev.set_cart (d : Dev) (f : Fld) (v : Nat) : (d.set f v).cart = d.cart := rfl
@[simp] theorem Dev.set_ecc (d : Dev) (f : Fld) (v : Nat) : (d.set f v).ecc = d.ecc := rfl
@[simp] theorem Dev.set_chan (d : Dev) (f : Fld) (v : Nat) : (d.set f v).chan = d.chan := rfl
@[simp] theorem Dev.set_pos (d : Dev) (f : Fld) (v : Nat) : (d.set f v).pos = d.pos := rfl
@[simp] theorem Dev.set_tce (d : Dev) (f : Fld) (v : Nat) : (d.set f v).tce = d.tce := rfl
@[simp] theorem Dev.set_mdr (d : Dev) (f : Fld) (v : Nat) : (d.set f v).mdr = d.mdr := rfl
@[simp] theorem Dev.set_cnt (d : Dev) (f : Fld) (v : Nat) : (d.set f v).cnt = d.cnt := rfl
@[simp] theorem Dev.set_cas (d : Dev) (f : Fld) (v : Nat) : (d.set f v).cas = d.cas := rfl
@[simp] theorem Dev.set_sec (d : Dev) (f : Fld) (v : Nat) : (d.set f v).sec = d.sec := rfl
@[simp] theorem Dev.set_pin (d : Dev) (f : Fld) (v : Nat) : (d.set f v).pin = d.pin := rfl
@[simp] theorem Dev.set_freeIx (d : Dev) (f : Fld) (v : Nat) : (d.set f v).freeIx = d.freeIx := rfl
@[simp] theorem Dev.set_out (d : Dev) (f : Fld) (v : Nat) : (d.set f v).out = d.out := rfl

/-! ## `Dev.bumpBy` -/

@[simp] theorem Dev.bumpBy_glb (d : Dev) (a n : Nat) : (d.bumpBy a n).glb = d.glb := rfl
@[simp] theorem Dev.bumpBy_ddr (d : Dev) (a n : Nat) : (d.bumpBy a n).ddr = d.ddr := rfl
@[simp] theorem Dev.bumpBy_nor (d : Dev) (a n : Nat) : (d.bumpBy a n).nor = d.nor := rfl
@[simp] theorem Dev.bumpBy_feram (d : Dev) (a n : Nat) : (d.bumpBy a n).feram = d.feram := rfl
@[simp] theorem Dev.bumpBy_cobMem (d : Dev) (a n : Nat) : (d.bumpBy a n).cobMem = d.cobMem := rfl
@[simp] theorem Dev.bumpBy_poison (d : Dev) (a n : Nat) : (d.bumpBy a n).poison = d.poison := rfl
@[simp] theorem Dev.bumpBy_pools (d : Dev) (a n : Nat) : (d.bumpBy a n).pools = d.pools := rfl
@[simp] theorem Dev.bumpBy_fifos (d : Dev) (a n : Nat) : (d.bumpBy a n).fifos = d.fifos := rfl
@[simp] theorem Dev.bumpBy_hpt (d : Dev) (a n : Nat) : (d.bumpBy a n).hpt = d.hpt := rfl
@[simp] theorem Dev.bumpBy_cqm (d : Dev) (a n : Nat) : (d.bumpBy a n).cqm = d.cqm := rfl
@[simp] theorem Dev.bumpBy_strm (d : Dev) (a n : Nat) : (d.bumpBy a n).strm = d.strm := rfl
@[simp] theorem Dev.bumpBy_plc (d : Dev) (a n : Nat) : (d.bumpBy a n).plc = d.plc := rfl
@[simp] theorem Dev.bumpBy_cart (d : Dev) (a n : Nat) : (d.bumpBy a n).cart = d.cart := rfl
@[simp] theorem Dev.bumpBy_ecc (d : Dev) (a n : Nat) : (d.bumpBy a n).ecc = d.ecc := rfl
@[simp] theorem Dev.bumpBy_chan (d : Dev) (a n : Nat) : (d.bumpBy a n).chan = d.chan := rfl
@[simp] theorem Dev.bumpBy_pos (d : Dev) (a n : Nat) : (d.bumpBy a n).pos = d.pos := rfl
@[simp] theorem Dev.bumpBy_tce (d : Dev) (a n : Nat) : (d.bumpBy a n).tce = d.tce := rfl
@[simp] theorem Dev.bumpBy_mdr (d : Dev) (a n : Nat) : (d.bumpBy a n).mdr = d.mdr := rfl
@[simp] theorem Dev.bumpBy_cnt (d : Dev) (a n : Nat) : (d.bumpBy a n).cnt = d.cnt := rfl
@[simp] theorem Dev.bumpBy_cas (d : Dev) (a n : Nat) : (d.bumpBy a n).cas = d.cas := rfl
@[simp] theorem Dev.bumpBy_sec (d : Dev) (a n : Nat) : (d.bumpBy a n).sec = d.sec := rfl
@[simp] theorem Dev.bumpBy_pin (d : Dev) (a n : Nat) : (d.bumpBy a n).pin = d.pin := rfl
@[simp] theorem Dev.bumpBy_freeIx (d : Dev) (a n : Nat) : (d.bumpBy a n).freeIx = d.freeIx := rfl
@[simp] theorem Dev.bumpBy_out (d : Dev) (a n : Nat) : (d.bumpBy a n).out = d.out := rfl

/-! ## `Dev.bump` -/

@[simp] theorem Dev.bump_glb (d : Dev) (a : Nat) : (d.bump a).glb = d.glb := rfl
@[simp] theorem Dev.bump_ddr (d : Dev) (a : Nat) : (d.bump a).ddr = d.ddr := rfl
@[simp] theorem Dev.bump_nor (d : Dev) (a : Nat) : (d.bump a).nor = d.nor := rfl
@[simp] theorem Dev.bump_feram (d : Dev) (a : Nat) : (d.bump a).feram = d.feram := rfl
@[simp] theorem Dev.bump_cobMem (d : Dev) (a : Nat) : (d.bump a).cobMem = d.cobMem := rfl
@[simp] theorem Dev.bump_poison (d : Dev) (a : Nat) : (d.bump a).poison = d.poison := rfl
@[simp] theorem Dev.bump_pools (d : Dev) (a : Nat) : (d.bump a).pools = d.pools := rfl
@[simp] theorem Dev.bump_fifos (d : Dev) (a : Nat) : (d.bump a).fifos = d.fifos := rfl
@[simp] theorem Dev.bump_hpt (d : Dev) (a : Nat) : (d.bump a).hpt = d.hpt := rfl
@[simp] theorem Dev.bump_cqm (d : Dev) (a : Nat) : (d.bump a).cqm = d.cqm := rfl
@[simp] theorem Dev.bump_strm (d : Dev) (a : Nat) : (d.bump a).strm = d.strm := rfl
@[simp] theorem Dev.bump_plc (d : Dev) (a : Nat) : (d.bump a).plc = d.plc := rfl
@[simp] theorem Dev.bump_cart (d : Dev) (a : Nat) : (d.bump a).cart = d.cart := rfl
@[simp] theorem Dev.bump_ecc (d : Dev) (a : Nat) : (d.bump a).ecc = d.ecc := rfl
@[simp] theorem Dev.bump_chan (d : Dev) (a : Nat) : (d.bump a).chan = d.chan := rfl
@[simp] theorem Dev.bump_pos (d : Dev) (a : Nat) : (d.bump a).pos = d.pos := rfl
@[simp] theorem Dev.bump_tce (d : Dev) (a : Nat) : (d.bump a).tce = d.tce := rfl
@[simp] theorem Dev.bump_mdr (d : Dev) (a : Nat) : (d.bump a).mdr = d.mdr := rfl
@[simp] theorem Dev.bump_cnt (d : Dev) (a : Nat) : (d.bump a).cnt = d.cnt := rfl
@[simp] theorem Dev.bump_cas (d : Dev) (a : Nat) : (d.bump a).cas = d.cas := rfl
@[simp] theorem Dev.bump_sec (d : Dev) (a : Nat) : (d.bump a).sec = d.sec := rfl
@[simp] theorem Dev.bump_pin (d : Dev) (a : Nat) : (d.bump a).pin = d.pin := rfl
@[simp] theorem Dev.bump_freeIx (d : Dev) (a : Nat) : (d.bump a).freeIx = d.freeIx := rfl
@[simp] theorem Dev.bump_out (d : Dev) (a : Nat) : (d.bump a).out = d.out := rfl

/-! ## `Dev.emit` -/

@[simp] theorem Dev.emit_glb (d : Dev) (o : Out) : (d.emit o).glb = d.glb := rfl
@[simp] theorem Dev.emit_regs (d : Dev) (o : Out) : (d.emit o).regs = d.regs := rfl
@[simp] theorem Dev.emit_ddr (d : Dev) (o : Out) : (d.emit o).ddr = d.ddr := rfl
@[simp] theorem Dev.emit_nor (d : Dev) (o : Out) : (d.emit o).nor = d.nor := rfl
@[simp] theorem Dev.emit_feram (d : Dev) (o : Out) : (d.emit o).feram = d.feram := rfl
@[simp] theorem Dev.emit_cobMem (d : Dev) (o : Out) : (d.emit o).cobMem = d.cobMem := rfl
@[simp] theorem Dev.emit_poison (d : Dev) (o : Out) : (d.emit o).poison = d.poison := rfl
@[simp] theorem Dev.emit_pools (d : Dev) (o : Out) : (d.emit o).pools = d.pools := rfl
@[simp] theorem Dev.emit_fifos (d : Dev) (o : Out) : (d.emit o).fifos = d.fifos := rfl
@[simp] theorem Dev.emit_hpt (d : Dev) (o : Out) : (d.emit o).hpt = d.hpt := rfl
@[simp] theorem Dev.emit_cqm (d : Dev) (o : Out) : (d.emit o).cqm = d.cqm := rfl
@[simp] theorem Dev.emit_strm (d : Dev) (o : Out) : (d.emit o).strm = d.strm := rfl
@[simp] theorem Dev.emit_plc (d : Dev) (o : Out) : (d.emit o).plc = d.plc := rfl
@[simp] theorem Dev.emit_cart (d : Dev) (o : Out) : (d.emit o).cart = d.cart := rfl
@[simp] theorem Dev.emit_ecc (d : Dev) (o : Out) : (d.emit o).ecc = d.ecc := rfl
@[simp] theorem Dev.emit_chan (d : Dev) (o : Out) : (d.emit o).chan = d.chan := rfl
@[simp] theorem Dev.emit_pos (d : Dev) (o : Out) : (d.emit o).pos = d.pos := rfl
@[simp] theorem Dev.emit_tce (d : Dev) (o : Out) : (d.emit o).tce = d.tce := rfl
@[simp] theorem Dev.emit_mdr (d : Dev) (o : Out) : (d.emit o).mdr = d.mdr := rfl
@[simp] theorem Dev.emit_cnt (d : Dev) (o : Out) : (d.emit o).cnt = d.cnt := rfl
@[simp] theorem Dev.emit_cas (d : Dev) (o : Out) : (d.emit o).cas = d.cas := rfl
@[simp] theorem Dev.emit_sec (d : Dev) (o : Out) : (d.emit o).sec = d.sec := rfl
@[simp] theorem Dev.emit_pin (d : Dev) (o : Out) : (d.emit o).pin = d.pin := rfl
@[simp] theorem Dev.emit_freeIx (d : Dev) (o : Out) : (d.emit o).freeIx = d.freeIx := rfl

/-! ## `Dev.setTpos` -/

@[simp] theorem Dev.setTpos_glb (d : Dev) (p : Int) : (d.setTpos p).glb = d.glb := rfl
@[simp] theorem Dev.setTpos_ddr (d : Dev) (p : Int) : (d.setTpos p).ddr = d.ddr := rfl
@[simp] theorem Dev.setTpos_nor (d : Dev) (p : Int) : (d.setTpos p).nor = d.nor := rfl
@[simp] theorem Dev.setTpos_feram (d : Dev) (p : Int) : (d.setTpos p).feram = d.feram := rfl
@[simp] theorem Dev.setTpos_cobMem (d : Dev) (p : Int) : (d.setTpos p).cobMem = d.cobMem := rfl
@[simp] theorem Dev.setTpos_poison (d : Dev) (p : Int) : (d.setTpos p).poison = d.poison := rfl
@[simp] theorem Dev.setTpos_pools (d : Dev) (p : Int) : (d.setTpos p).pools = d.pools := rfl
@[simp] theorem Dev.setTpos_fifos (d : Dev) (p : Int) : (d.setTpos p).fifos = d.fifos := rfl
@[simp] theorem Dev.setTpos_hpt (d : Dev) (p : Int) : (d.setTpos p).hpt = d.hpt := rfl
@[simp] theorem Dev.setTpos_cqm (d : Dev) (p : Int) : (d.setTpos p).cqm = d.cqm := rfl
@[simp] theorem Dev.setTpos_strm (d : Dev) (p : Int) : (d.setTpos p).strm = d.strm := rfl
@[simp] theorem Dev.setTpos_plc (d : Dev) (p : Int) : (d.setTpos p).plc = d.plc := rfl
@[simp] theorem Dev.setTpos_cart (d : Dev) (p : Int) : (d.setTpos p).cart = d.cart := rfl
@[simp] theorem Dev.setTpos_ecc (d : Dev) (p : Int) : (d.setTpos p).ecc = d.ecc := rfl
@[simp] theorem Dev.setTpos_chan (d : Dev) (p : Int) : (d.setTpos p).chan = d.chan := rfl
@[simp] theorem Dev.setTpos_pos (d : Dev) (p : Int) : (d.setTpos p).pos = d.pos := rfl
@[simp] theorem Dev.setTpos_tce (d : Dev) (p : Int) : (d.setTpos p).tce = d.tce := rfl
@[simp] theorem Dev.setTpos_mdr (d : Dev) (p : Int) : (d.setTpos p).mdr = d.mdr := rfl
@[simp] theorem Dev.setTpos_cnt (d : Dev) (p : Int) : (d.setTpos p).cnt = d.cnt := rfl
@[simp] theorem Dev.setTpos_cas (d : Dev) (p : Int) : (d.setTpos p).cas = d.cas := rfl
@[simp] theorem Dev.setTpos_sec (d : Dev) (p : Int) : (d.setTpos p).sec = d.sec := rfl
@[simp] theorem Dev.setTpos_pin (d : Dev) (p : Int) : (d.setTpos p).pin = d.pin := rfl
@[simp] theorem Dev.setTpos_freeIx (d : Dev) (p : Int) : (d.setTpos p).freeIx = d.freeIx := rfl
@[simp] theorem Dev.setTpos_out (d : Dev) (p : Int) : (d.setTpos p).out = d.out := rfl

/-! ## `Dev.putDdr` -/

@[simp] theorem Dev.putDdr_glb (d : Dev) (a : Nat) (bs : List Byte) : (d.putDdr a bs).glb = d.glb := rfl
@[simp] theorem Dev.putDdr_regs (d : Dev) (a : Nat) (bs : List Byte) : (d.putDdr a bs).regs = d.regs := rfl
@[simp] theorem Dev.putDdr_nor (d : Dev) (a : Nat) (bs : List Byte) : (d.putDdr a bs).nor = d.nor := rfl
@[simp] theorem Dev.putDdr_feram (d : Dev) (a : Nat) (bs : List Byte) : (d.putDdr a bs).feram = d.feram := rfl
@[simp] theorem Dev.putDdr_cobMem (d : Dev) (a : Nat) (bs : List Byte) : (d.putDdr a bs).cobMem = d.cobMem := rfl
@[simp] theorem Dev.putDdr_pools (d : Dev) (a : Nat) (bs : List Byte) : (d.putDdr a bs).pools = d.pools := rfl
@[simp] theorem Dev.putDdr_fifos (d : Dev) (a : Nat) (bs : List Byte) : (d.putDdr a bs).fifos = d.fifos := rfl
@[simp] theorem Dev.putDdr_hpt (d : Dev) (a : Nat) (bs : List Byte) : (d.putDdr a bs).hpt = d.hpt := rfl
@[simp] theorem Dev.putDdr_cqm (d : Dev) (a : Nat) (bs : List Byte) : (d.putDdr a bs).cqm = d.cqm := rfl
@[simp] theorem Dev.putDdr_strm (d : Dev) (a : Nat) (bs : List Byte) : (d.putDdr a bs).strm = d.strm := rfl
@[simp] theorem Dev.putDdr_plc (d : Dev) (a : Nat) (bs : List Byte) : (d.putDdr a bs).plc = d.plc := rfl
@[simp] theorem Dev.putDdr_cart (d : Dev) (a : Nat) (bs : List Byte) : (d.putDdr a bs).cart = d.cart := rfl
@[simp] theorem Dev.putDdr_ecc (d : Dev) (a : Nat) (bs : List Byte) : (d.putDdr a bs).ecc = d.ecc := rfl
@[simp] theorem Dev.putDdr_chan (d : Dev) (a : Nat) (bs : List Byte) : (d.putDdr a bs).chan = d.chan := rfl
@[simp] theorem Dev.putDdr_pos (d : Dev) (a : Nat) (bs : List Byte) : (d.putDdr a bs).pos = d.pos := rfl
@[simp] theorem Dev.putDdr_tce (d : Dev) (a : Nat) (bs : List Byte) : (d.putDdr a bs).tce = d.tce := rfl
@[simp] theorem Dev.putDdr_mdr (d : Dev) (a : Nat) (bs : List Byte) : (d.putDdr a bs).mdr = d.mdr := rfl
@[simp] theorem Dev.putDdr_cnt (d : Dev) (a : Nat) (bs : List Byte) : (d.putDdr a bs).cnt = d.cnt := rfl
@[simp] theorem Dev.putDdr_cas (d : Dev) (a : Nat) (bs : List Byte) : (d.putDdr a bs).cas = d.cas := rfl
@[simp] theorem Dev.putDdr_sec (d : Dev) (a : Nat) (bs : List Byte) : (d.putDdr a bs).sec = d.sec := rfl
@[simp] theorem Dev.putDdr_pin (d : Dev) (a : Nat) (bs : List Byte) : (d.putDdr a bs).pin = d.pin := rfl
@[simp] theorem Dev.putDdr_freeIx (d : Dev) (a : Nat) (bs : List Byte) : (d.putDdr a bs).freeIx = d.freeIx := rfl
@[simp] theorem Dev.putDdr_out (d : Dev) (a : Nat) (bs : List Byte) : (d.putDdr a bs).out = d.out := rfl

/-! ## `Dev.putNor` -/

@[simp] theorem Dev.putNor_glb (d : Dev) (a : Nat) (bs : List Byte) : (d.putNor a bs).glb = d.glb := rfl
@[simp] theorem Dev.putNor_regs (d : Dev) (a : Nat) (bs : List Byte) : (d.putNor a bs).regs = d.regs := rfl
@[simp] theorem Dev.putNor_ddr (d : Dev) (a : Nat) (bs : List Byte) : (d.putNor a bs).ddr = d.ddr := rfl
@[simp] theorem Dev.putNor_feram (d : Dev) (a : Nat) (bs : List Byte) : (d.putNor a bs).feram = d.feram := rfl
@[simp] theorem Dev.putNor_cobMem (d : Dev) (a : Nat) (bs : List Byte) : (d.putNor a bs).cobMem = d.cobMem := rfl
@[simp] theorem Dev.putNor_poison (d : Dev) (a : Nat) (bs : List Byte) : (d.putNor a bs).poison = d.poison := rfl
@[simp] theorem Dev.putNor_pools (d : Dev) (a : Nat) (bs : List Byte) : (d.putNor a bs).pools = d.pools := rfl
@[simp] theorem Dev.putNor_fifos (d : Dev) (a : Nat) (bs : List Byte) : (d.putNor a bs).fifos = d.fifos := rfl
@[simp] theorem Dev.putNor_hpt (d : Dev) (a : Nat) (bs : List Byte) : (d.putNor a bs).hpt = d.hpt := rfl
@[simp] theorem Dev.putNor_cqm (d : Dev) (a : Nat) (bs : List Byte) : (d.putNor a bs).cqm = d.cqm := rfl
@[simp] theorem Dev.putNor_strm (d : Dev) (a : Nat) (bs : List Byte) : (d.putNor a bs).strm = d.strm := rfl
@[simp] theorem Dev.putNor_plc (d : Dev) (a : Nat) (bs : List Byte) : (d.putNor a bs).plc = d.plc := rfl
@[simp] theorem Dev.putNor_cart (d : Dev) (a : Nat) (bs : List Byte) : (d.putNor a bs).cart = d.cart := rfl
@[simp] theorem Dev.putNor_ecc (d : Dev) (a : Nat) (bs : List Byte) : (d.putNor a bs).ecc = d.ecc := rfl
@[simp] theorem Dev.putNor_chan (d : Dev) (a : Nat) (bs : List Byte) : (d.putNor a bs).chan = d.chan := rfl
@[simp] theorem Dev.putNor_pos (d : Dev) (a : Nat) (bs : List Byte) : (d.putNor a bs).pos = d.pos := rfl
@[simp] theorem Dev.putNor_tce (d : Dev) (a : Nat) (bs : List Byte) : (d.putNor a bs).tce = d.tce := rfl
@[simp] theorem Dev.putNor_mdr (d : Dev) (a : Nat) (bs : List Byte) : (d.putNor a bs).mdr = d.mdr := rfl
@[simp] theorem Dev.putNor_cnt (d : Dev) (a : Nat) (bs : List Byte) : (d.putNor a bs).cnt = d.cnt := rfl
@[simp] theorem Dev.putNor_cas (d : Dev) (a : Nat) (bs : List Byte) : (d.putNor a bs).cas = d.cas := rfl
@[simp] theorem Dev.putNor_sec (d : Dev) (a : Nat) (bs : List Byte) : (d.putNor a bs).sec = d.sec := rfl
@[simp] theorem Dev.putNor_pin (d : Dev) (a : Nat) (bs : List Byte) : (d.putNor a bs).pin = d.pin := rfl
@[simp] theorem Dev.putNor_freeIx (d : Dev) (a : Nat) (bs : List Byte) : (d.putNor a bs).freeIx = d.freeIx := rfl
@[simp] theorem Dev.putNor_out (d : Dev) (a : Nat) (bs : List Byte) : (d.putNor a bs).out = d.out := rfl

/-! ## `Dev.putFeram` -/

@[simp] theorem Dev.putFeram_glb (d : Dev) (a : Nat) (bs : List Byte) : (d.putFeram a bs).glb = d.glb := rfl
@[simp] theorem Dev.putFeram_regs (d : Dev) (a : Nat) (bs : List Byte) : (d.putFeram a bs).regs = d.regs := rfl
@[simp] theorem Dev.putFeram_ddr (d : Dev) (a : Nat) (bs : List Byte) : (d.putFeram a bs).ddr = d.ddr := rfl
@[simp] theorem Dev.putFeram_nor (d : Dev) (a : Nat) (bs : List Byte) : (d.putFeram a bs).nor = d.nor := rfl
@[simp] theorem Dev.putFeram_cobMem (d : Dev) (a : Nat) (bs : List Byte) : (d.putFeram a bs).cobMem = d.cobMem := rfl
@[simp] theorem Dev.putFeram_poison (d : Dev) (a : Nat) (bs : List Byte) : (d.putFeram a bs).poison = d.poison := rfl
@[simp] theorem Dev.putFeram_pools (d : Dev) (a : Nat) (bs : List Byte) : (d.putFeram a bs).pools = d.pools := rfl
@[simp] theorem Dev.putFeram_fifos (d : Dev) (a : Nat) (bs : List Byte) : (d.putFeram a bs).fifos = d.fifos := rfl
@[simp] theorem Dev.putFeram_hpt (d : Dev) (a : Nat) (bs : List Byte) : (d.putFeram a bs).hpt = d.hpt := rfl
@[simp] theorem Dev.putFeram_cqm (d : Dev) (a : Nat) (bs : List Byte) : (d.putFeram a bs).cqm = d.cqm := rfl
@[simp] theorem Dev.putFeram_strm (d : Dev) (a : Nat) (bs : List Byte) : (d.putFeram a bs).strm = d.strm := rfl
@[simp] theorem Dev.putFeram_plc (d : Dev) (a : Nat) (bs : List Byte) : (d.putFeram a bs).plc = d.plc := rfl
@[simp] theorem Dev.putFeram_cart (d : Dev) (a : Nat) (bs : List Byte) : (d.putFeram a bs).cart = d.cart := rfl
@[simp] theorem Dev.putFeram_ecc (d : Dev) (a : Nat) (bs : List Byte) : (d.putFeram a bs).ecc = d.ecc := rfl
@[simp] theorem Dev.putFeram_chan (d : Dev) (a : Nat) (bs : List Byte) : (d.putFeram a bs).chan = d.chan := rfl
@[simp] theorem Dev.putFeram_pos (d : Dev) (a : Nat) (bs : List Byte) : (d.putFeram a bs).pos = d.pos := rfl
@[simp] theorem Dev.putFeram_tce (d : Dev) (a : Nat) (bs : List Byte) : (d.putFeram a bs).tce = d.tce := rfl
@[simp] theorem Dev.putFeram_mdr (d : Dev) (a : Nat) (bs : List Byte) : (d.putFeram a bs).mdr = d.mdr := rfl
@[simp] theorem Dev.putFeram_cnt (d : Dev) (a : Nat) (bs : List Byte) : (d.putFeram a bs).cnt = d.cnt := rfl
@[simp] theorem Dev.putFeram_cas (d : Dev) (a : Nat) (bs : List Byte) : (d.putFeram a bs).cas = d.cas := rfl
@[simp] theorem Dev.putFeram_sec (d : Dev) (a : Nat) (bs : List Byte) : (d.putFeram a bs).sec = d.sec := rfl
@[simp] theorem Dev.putFeram_pin (d : Dev) (a : Nat) (bs : List Byte) : (d.putFeram a bs).pin = d.pin := rfl
@[simp] theorem Dev.putFeram_freeIx (d : Dev) (a : Nat) (bs : List Byte) : (d.putFeram a bs).freeIx = d.freeIx := rfl
@[simp] theorem Dev.putFeram_out (d : Dev) (a : Nat) (bs : List Byte) : (d.putFeram a bs).out = d.out := rfl

/-! ## `Dev.modConn` -/

@[simp] theorem Dev.modConn_glb (d : Dev) (c : Nat) (f : Conn → Conn) : (d.modConn c f).glb = d.glb := rfl
@[simp] theorem Dev.modConn_regs (d : Dev) (c : Nat) (f : Conn → Conn) : (d.modConn c f).regs = d.regs := rfl
@[simp] theorem Dev.modConn_ddr (d : Dev) (c : Nat) (f : Conn → Conn) : (d.modConn c f).ddr = d.ddr := rfl
@[simp] theorem Dev.modConn_nor (d : Dev) (c : Nat) (f : Conn → Conn) : (d.modConn c f).nor = d.nor := rfl
@[simp] theorem Dev.modConn_feram (d : Dev) (c : Nat) (f : Conn → Conn) : (d.modConn c f).feram = d.feram := rfl
@[simp] theorem Dev.modConn_cobMem (d : Dev) (c : Nat) (f : Conn → Conn) : (d.modConn c f).cobMem = d.cobMem := rfl
@[simp] theorem Dev.modConn_poison (d : Dev) (c : Nat) (f : Conn → Conn) : (d.modConn c f).poison = d.poison := rfl
@[simp] theorem Dev.modConn_pools (d : Dev) (c : Nat) (f : Conn → Conn) : (d.modConn c f).pools = d.pools := rfl
@[simp] theorem Dev.modConn_fifos (d : Dev) (c : Nat) (f : Conn → Conn) : (d.modConn c f).fifos = d.fifos := rfl
@[simp] theorem Dev.modConn_cqm (d : Dev) (c : Nat) (f : Conn → Conn) : (d.modConn c f).cqm = d.cqm := rfl
@[simp] theorem Dev.modConn_strm (d : Dev) (c : Nat) (f : Conn → Conn) : (d.modConn c f).strm = d.strm := rfl
@[simp] theorem Dev.modConn_plc (d : Dev) (c : Nat) (f : Conn → Conn) : (d.modConn c f).plc = d.plc := rfl
@[simp] theorem Dev.modConn_cart (d : Dev) (c : Nat) (f : Conn → Conn) : (d.modConn c f).cart = d.cart := rfl
@[simp] theorem Dev.modConn_ecc (d : Dev) (c : Nat) (f : Conn → Conn) : (d.modConn c f).ecc = d.ecc := rfl
@[simp] theorem Dev.modConn_chan (d : Dev) (c : Nat) (f : Conn → Conn) : (d.modConn c f).chan = d.chan := rfl
@[simp] theorem Dev.modConn_pos (d : Dev) (c : Nat) (f : Conn → Conn) : (d.modConn c f).pos = d.pos := rfl
@[simp] theorem Dev.modConn_tce (d : Dev) (c : Nat) (f : Conn → Conn) : (d.modConn c f).tce = d.tce := rfl
@[simp] theorem Dev.modConn_mdr (d : Dev) (c : Nat) (f : Conn → Conn) : (d.modConn c f).mdr = d.mdr := rfl
@[simp] theorem Dev.modConn_cnt (d : Dev) (c : Nat) (f : Conn → Conn) : (d.modConn c f).cnt = d.cnt := rfl
@[simp] theorem Dev.modConn_cas (d : Dev) (c : Nat) (f : Conn → Conn) : (d.modConn c f).cas = d.cas := rfl
@[simp] theorem Dev.modConn_sec (d : Dev) (c : Nat) (f : Conn → Conn) : (d.modConn c f).sec = d.sec := rfl
@[simp] theorem Dev.modConn_pin (d : Dev) (c : Nat) (f : Conn → Conn) : (d.modConn c f).pin = d.pin := rfl
@[simp] theorem Dev.modConn_freeIx (d : Dev) (c : Nat) (f : Conn → Conn) : (d.modConn c f).freeIx = d.freeIx := rfl
@[simp] theorem Dev.modConn_out (d : Dev) (c : Nat) (f : Conn → Conn) : (d.modConn c f).out = d.out := rfl

/-! ## `Dev.modTimers` -/

@[simp] theorem Dev.modTimers_glb (d : Dev) (c : Nat) (f : Timers → Timers) : (d.modTimers c f).glb = d.glb := rfl
@[simp] theorem Dev.modTimers_regs (d : Dev) (c : Nat) (f : Timers → Timers) : (d.modTimers c f).regs = d.regs := rfl
@[simp] theorem Dev.modTimers_ddr (d : Dev) (c : Nat) (f : Timers → Timers) : (d.modTimers c f).ddr = d.ddr := rfl
@[simp] theorem Dev.modTimers_nor (d : Dev) (c : Nat) (f : Timers → Timers) : (d.modTimers c f).nor = d.nor := rfl
@[simp] theorem Dev.modTimers_feram (d : Dev) (c : Nat) (f : Timers → Timers) : (d.modTimers c f).feram = d.feram := rfl
@[simp] theorem Dev.modTimers_cobMem (d : Dev) (c : Nat) (f : Timers → Timers) : (d.modTimers c f).cobMem = d.cobMem := rfl
@[simp] theorem Dev.modTimers_poison (d : Dev) (c : Nat) (f : Timers → Timers) : (d.modTimers c f).poison = d.poison := rfl
@[simp] theorem Dev.modTimers_pools (d : Dev) (c : Nat) (f : Timers → Timers) : (d.modTimers c f).pools = d.pools := rfl
@[simp] theorem Dev.modTimers_fifos (d : Dev) (c : Nat) (f : Timers → Timers) : (d.modTimers c f).fifos = d.fifos := rfl
@[simp] theorem Dev.modTimers_cqm (d : Dev) (c : Nat) (f : Timers → Timers) : (d.modTimers c f).cqm = d.cqm := rfl
@[simp] theorem Dev.modTimers_strm (d : Dev) (c : Nat) (f : Timers → Timers) : (d.modTimers c f).strm = d.strm := rfl
@[simp] theorem Dev.modTimers_plc (d : Dev) (c : Nat) (f : Timers → Timers) : (d.modTimers c f).plc = d.plc := rfl
@[simp] theorem Dev.modTimers_cart (d : Dev) (c : Nat) (f : Timers → Timers) : (d.modTimers c f).cart = d.cart := rfl
@[simp] theorem Dev.modTimers_ecc (d : Dev) (c : Nat) (f : Timers → Timers) : (d.modTimers c f).ecc = d.ecc := rfl
@[simp] theorem Dev.modTimers_chan (d : Dev) (c : Nat) (f : Timers → Timers) : (d.modTimers c f).chan = d.chan := rfl
@[simp] theorem Dev.modTimers_pos (d : Dev) (c : Nat) (f : Timers → Timers) : (d.modTimers c f).pos = d.pos := rfl
@[simp] theorem Dev.modTimers_tce (d : Dev) (c : Nat) (f : Timers → Timers) : (d.modTimers c f).tce = d.tce := rfl
@[simp] theorem Dev.modTimers_mdr (d : Dev) (c : Nat) (f : Timers → Timers) : (d.modTimers c f).mdr = d.mdr := rfl
@[simp] theorem Dev.modTimers_cnt (d : Dev) (c : Nat) (f : Timers → Timers) : (d.modTimers c f).cnt = d.cnt := rfl
@[simp] theorem Dev.modTimers_cas (d : Dev) (c : Nat) (f : Timers → Timers) : (d.modTimers c f).cas = d.cas := rfl
@[simp] theorem Dev.modTimers_sec (d : Dev) (c : Nat) (f : Timers → Timers) : (d.modTimers c f).sec = d.sec := rfl
@[simp] theorem Dev.modTimers_pin (d : Dev) (c : Nat) (f : Timers → Timers) : (d.modTimers c f).pin = d.pin := rfl
@[simp] theorem Dev.modTimers_freeIx (d : Dev) (c : Nat) (f : Timers → Timers) : (d.modTimers c f).freeIx = d.freeIx := rfl
@[simp] theorem Dev.modTimers_out (d : Dev) (c : Nat) (f : Timers → Timers) : (d.modTimers c f).out = d.out := rfl

/-! ## `Dev.modPort` -/

@[simp] theorem Dev.modPort_glb (d : Dev) (p : Nat) (f : Port → Port) : (d.modPort p f).glb = d.glb := rfl
@[simp] theorem Dev.modPort_regs (d : Dev) (p : Nat) (f : Port → Port) : (d.modPort p f).regs = d.regs := rfl
@[simp] theorem Dev.modPort_ddr (d : Dev) (p : Nat) (f : Port → Port) : (d.modPort p f).ddr = d.ddr := rfl
@[simp] theorem Dev.modPort_nor (d : Dev) (p : Nat) (f : Port → Port) : (d.modPort p f).nor = d.nor := rfl
@[simp] theorem Dev.modPort_feram (d : Dev) (p : Nat) (f : Port → Port) : (d.modPort p f).feram = d.feram := rfl
@[simp] theorem Dev.modPort_cobMem (d : Dev) (p : Nat) (f : Port → Port) : (d.modPort p f).cobMem = d.cobMem := rfl
@[simp] theorem Dev.modPort_poison (d : Dev) (p : Nat) (f : Port → Port) : (d.modPort p f).poison = d.poison := rfl
@[simp] theorem Dev.modPort_pools (d : Dev) (p : Nat) (f : Port → Port) : (d.modPort p f).pools = d.pools := rfl
@[simp] theorem Dev.modPort_fifos (d : Dev) (p : Nat) (f : Port → Port) : (d.modPort p f).fifos = d.fifos := rfl
@[simp] theorem Dev.modPort_cqm (d : Dev) (p : Nat) (f : Port → Port) : (d.modPort p f).cqm = d.cqm := rfl
@[simp] theorem Dev.modPort_strm (d : Dev) (p : Nat) (f : Port → Port) : (d.modPort p f).strm = d.strm := rfl
@[simp] theorem Dev.modPort_plc (d : Dev) (p : Nat) (f : Port → Port) : (d.modPort p f).plc = d.plc := rfl
@[simp] theorem Dev.modPort_cart (d : Dev) (p : Nat) (f : Port → Port) : (d.modPort p f).cart = d.cart := rfl
@[simp] theorem Dev.modPort_ecc (d : Dev) (p : Nat) (f : Port → Port) : (d.modPort p f).ecc = d.ecc := rfl
@[simp] theorem Dev.modPort_chan (d : Dev) (p : Nat) (f : Port → Port) : (d.modPort p f).chan = d.chan := rfl
@[simp] theorem Dev.modPort_pos (d : Dev) (p : Nat) (f : Port → Port) : (d.modPort p f).pos = d.pos := rfl
@[simp] theorem Dev.modPort_tce (d : Dev) (p : Nat) (f : Port → Port) : (d.modPort p f).tce = d.tce := rfl
@[simp] theorem Dev.modPort_mdr (d : Dev) (p : Nat) (f : Port → Port) : (d.modPort p f).mdr = d.mdr := rfl
@[simp] theorem Dev.modPort_cnt (d : Dev) (p : Nat) (f : Port → Port) : (d.modPort p f).cnt = d.cnt := rfl
@[simp] theorem Dev.modPort_cas (d : Dev) (p : Nat) (f : Port → Port) : (d.modPort p f).cas = d.cas := rfl
@[simp] theorem Dev.modPort_sec (d : Dev) (p : Nat) (f : Port → Port) : (d.modPort p f).sec = d.sec := rfl
@[simp] theorem Dev.modPort_pin (d : Dev) (p : Nat) (f : Port → Port) : (d.modPort p f).pin = d.pin := rfl
@[simp] theorem Dev.modPort_freeIx (d : Dev) (p : Nat) (f : Port → Port) : (d.modPort p f).freeIx = d.freeIx := rfl
@[simp] theorem Dev.modPort_out (d : Dev) (p : Nat) (f : Port → Port) : (d.modPort p f).out = d.out := rfl

/-! ## `Dev.sendMsg` -/

@[simp] theorem Dev.sendMsg_glb (d : Dev) (c typ cls : Nat) (p : Payload) (len : Nat) (st : Option Nat) (bufs : List Nat) : (d.sendMsg c typ cls p len st bufs).glb = d.glb := rfl
@[simp] theorem Dev.sendMsg_regs (d : Dev) (c typ cls : Nat) (p : Payload) (len : Nat) (st : Option Nat) (bufs : List Nat) : (d.sendMsg c typ cls p len st bufs).regs = d.regs := rfl
@[simp] theorem Dev.sendMsg_ddr (d : Dev) (c typ cls : Nat) (p : Payload) (len : Nat) (st : Option Nat) (bufs : List Nat) : (d.sendMsg c typ cls p len st bufs).ddr = d.ddr := rfl
@[simp] theorem Dev.sendMsg_nor (d : Dev) (c typ cls : Nat) (p : Payload) (len : Nat) (st : Option Nat) (bufs : List Nat) : (d.sendMsg c typ cls p len st bufs).nor = d.nor := rfl
@[simp] theorem Dev.sendMsg_feram (d : Dev) (c typ cls : Nat) (p : Payload) (len : Nat) (st : Option Nat) (bufs : List Nat) : (d.sendMsg c typ cls p len st bufs).feram = d.feram := rfl
@[simp] theorem Dev.sendMsg_cobMem (d : Dev) (c typ cls : Nat) (p : Payload) (len : Nat) (st : Option Nat) (bufs : List Nat) : (d.sendMsg c typ cls p len st bufs).cobMem = d.cobMem := rfl
@[simp] theorem Dev.sendMsg_poison (d : Dev) (c typ cls : Nat) (p : Payload) (len : Nat) (st : Option Nat) (bufs : List Nat) : (d.sendMsg c typ cls p len st bufs).poison = d.poison := rfl
@[simp] theorem Dev.sendMsg_pools (d : Dev) (c typ cls : Nat) (p : Payload) (len : Nat) (st : Option Nat) (bufs : List Nat) : (d.sendMsg c typ cls p len st bufs).pools = d.pools := rfl
@[simp] theorem Dev.sendMsg_fifos (d : Dev) (c typ cls : Nat) (p : Payload) (len : Nat) (st : Option Nat) (bufs : List Nat) : (d.sendMsg c typ cls p len st bufs).fifos = d.fifos := rfl
@[simp] theorem Dev.sendMsg_cqm (d : Dev) (c typ cls : Nat) (p : Payload) (len : Nat) (st : Option Nat) (bufs : List Nat) : (d.sendMsg c typ cls p len st bufs).cqm = d.cqm := rfl
@[simp] theorem Dev.sendMsg_strm (d : Dev) (c typ cls : Nat) (p : Payload) (len : Nat) (st : Option Nat) (bufs : List Nat) : (d.sendMsg c typ cls p len st bufs).strm = d.strm := rfl
@[simp] theorem Dev.sendMsg_plc (d : Dev) (c typ cls : Nat) (p : Payload) (len : Nat) (st : Option Nat) (bufs : List Nat) : (d.sendMsg c typ cls p len st bufs).plc = d.plc := rfl
@[simp] theorem Dev.sendMsg_cart (d : Dev) (c typ cls : Nat) (p : Payload) (len : Nat) (st : Option Nat) (bufs : List Nat) : (d.sendMsg c typ cls p len st bufs).cart = d.cart := rfl
@[simp] theorem Dev.sendMsg_ecc (d : Dev) (c typ cls : Nat) (p : Payload) (len : Nat) (st : Option Nat) (bufs : List Nat) : (d.sendMsg c typ cls p len st bufs).ecc = d.ecc := rfl
@[simp] theorem Dev.sendMsg_chan (d : Dev) (c typ cls : Nat) (p : Payload) (len : Nat) (st : Option Nat) (bufs : List Nat) : (d.sendMsg c typ cls p len st bufs).chan = d.chan := rfl
@[simp] theorem Dev.sendMsg_pos (d : Dev) (c typ cls : Nat) (p : Payload) (len : Nat) (st : Option Nat) (bufs : List Nat) : (d.sendMsg c typ cls p len st bufs).pos = d.pos := rfl
@[simp] theorem Dev.sendMsg_tce (d : Dev) (c typ cls : Nat) (p : Payload) (len : Nat) (st : Option Nat) (bufs : List Nat) : (d.sendMsg c typ cls p len st bufs).tce = d.tce := rfl
@[simp] theorem Dev.sendMsg_mdr (d : Dev) (c typ cls : Nat) (p : Payload) (len : Nat) (st : Option Nat) (bufs : List Nat) : (d.sendMsg c typ cls p len st bufs).mdr = d.mdr := rfl
@[simp] theorem Dev.sendMsg_cnt (d : Dev) (c typ cls : Nat) (p : Payload) (len : Nat) (st : Option Nat) (bufs : List Nat) : (d.sendMsg c typ cls p len st bufs).cnt = d.cnt := rfl
@[simp] theorem Dev.sendMsg_cas (d : Dev) (c typ cls : Nat) (p : Payload) (len : Nat) (st : Option Nat) (bufs : List Nat) : (d.sendMsg c typ cls p len st bufs).cas = d.cas := rfl
@[simp] theorem Dev.sendMsg_sec (d : Dev) (c typ cls : Nat) (p : Payload) (len : Nat) (st : Option Nat) (bufs : List Nat) : (d.sendMsg c typ cls p len st bufs).sec = d.sec := rfl
@[simp] theorem Dev.sendMsg_pin (d : Dev) (c typ cls : Nat) (p : Payload) (len : Nat) (st : Option Nat) (bufs : List Nat) : (d.sendMsg c typ cls p len st bufs).pin = d.pin := rfl
@[simp] theorem Dev.sendMsg_freeIx (d : Dev) (c typ cls : Nat) (p : Payload) (len : Nat) (st : Option Nat) (bufs : List Nat) : (d.sendMsg c typ cls p len st bufs).freeIx = d.freeIx := rfl
@[simp] theorem Dev.sendMsg_out (d : Dev) (c typ cls : Nat) (p : Payload) (len : Nat) (st : Option Nat) (bufs : List Nat) : (d.sendMsg c typ cls p len st bufs).out = d.out := rfl

/-! ## `Dev.modCmd` -/

@[simp] theorem Dev.modCmd_glb (d : Dev) (h : Nat) (f : Cmd → Cmd) : (d.modCmd h f).glb = d.glb := rfl
@[simp] theorem Dev.modCmd_regs (d : Dev) (h : Nat) (f : Cmd → Cmd) : (d.modCmd h f).regs = d.regs := rfl
@[simp] theorem Dev.modCmd_ddr (d : Dev) (h : Nat) (f : Cmd → Cmd) : (d.modCmd h f).ddr = d.ddr := rfl
@[simp] theorem Dev.modCmd_nor (d : Dev) (h : Nat) (f : Cmd → Cmd) : (d.modCmd h f).nor = d.nor := rfl
@[simp] theorem Dev.modCmd_feram (d : Dev) (h : Nat) (f : Cmd → Cmd) : (d.modCmd h f).feram = d.feram := rfl
@[simp] theorem Dev.modCmd_cobMem (d : Dev) (h : Nat) (f : Cmd → Cmd) : (d.modCmd h f).cobMem = d.cobMem := rfl
@[simp] theorem Dev.modCmd_poison (d : Dev) (h : Nat) (f : Cmd → Cmd) : (d.modCmd h f).poison = d.poison := rfl
@[simp] theorem Dev.modCmd_pools (d : Dev) (h : Nat) (f : Cmd → Cmd) : (d.modCmd h f).pools = d.pools := rfl
@[simp] theorem Dev.modCmd_fifos (d : Dev) (h : Nat) (f : Cmd → Cmd) : (d.modCmd h f).fifos = d.fifos := rfl
@[simp] theorem Dev.modCmd_hpt (d : Dev) (h : Nat) (f : Cmd → Cmd) : (d.modCmd h f).hpt = d.hpt := rfl
@[simp] theorem Dev.modCmd_strm (d : Dev) (h : Nat) (f : Cmd → Cmd) : (d.modCmd h f).strm = d.strm := rfl
@[simp] theorem Dev.modCmd_plc (d : Dev) (h : Nat) (f : Cmd → Cmd) : (d.modCmd h f).plc = d.plc := rfl
@[simp] theorem Dev.modCmd_cart (d : Dev) (h : Nat) (f : Cmd → Cmd) : (d.modCmd h f).cart = d.cart := rfl
@[simp] theorem Dev.modCmd_ecc (d : Dev) (h : Nat) (f : Cmd → Cmd) : (d.modCmd h f).ecc = d.ecc := rfl
@[simp] theorem Dev.modCmd_chan (d : Dev) (h : Nat) (f : Cmd → Cmd) : (d.modCmd h f).chan = d.chan := rfl
@[simp] theorem Dev.modCmd_pos (d : Dev) (h : Nat) (f : Cmd → Cmd) : (d.modCmd h f).pos = d.pos := rfl
@[simp] theorem Dev.modCmd_tce (d : Dev) (h : Nat) (f : Cmd → Cmd) : (d.modCmd h f).tce = d.tce := rfl
@[simp] theorem Dev.modCmd_mdr (d : Dev) (h : Nat) (f : Cmd → Cmd) : (d.modCmd h f).mdr = d.mdr := rfl
@[simp] theorem Dev.modCmd_cnt (d : Dev) (h : Nat) (f : Cmd → Cmd) : (d.modCmd h f).cnt = d.cnt := rfl
@[simp] theorem Dev.modCmd_cas (d : Dev) (h : Nat) (f : Cmd → Cmd) : (d.modCmd h f).cas = d.cas := rfl
@[simp] theorem Dev.modCmd_sec (d : Dev) (h : Nat) (f : Cmd → Cmd) : (d.modCmd h f).sec = d.sec := rfl
@[simp] theorem Dev.modCmd_pin (d : Dev) (h : Nat) (f : Cmd → Cmd) : (d.modCmd h f).pin = d.pin := rfl
@[simp] theorem Dev.modCmd_freeIx (d : Dev) (h : Nat) (f : Cmd → Cmd) : (d.modCmd h f).freeIx = d.freeIx := rfl
@[simp] theorem Dev.modCmd_out (d : Dev) (h : Nat) (f : Cmd → Cmd) : (d.modCmd h f).out = d.out := rfl

/-! ## `Dev.mapCmds` -/

@[simp] theorem Dev.mapCmds_glb (d : Dev) (f : Cmd → Cmd) : (d.mapCmds f).glb = d.glb := rfl
@[simp] theorem Dev.mapCmds_regs (d : Dev) (f : Cmd → Cmd) : (d.mapCmds f).regs = d.regs := rfl
@[simp] theorem Dev.mapCmds_ddr (d : Dev) (f : Cmd → Cmd) : (d.mapCmds f).ddr = d.ddr := rfl
@[simp] theorem Dev.mapCmds_nor (d : Dev) (f : Cmd → Cmd) : (d.mapCmds f).nor = d.nor := rfl
@[simp] theorem Dev.mapCmds_feram (d : Dev) (f : Cmd → Cmd) : (d.mapCmds f).feram = d.feram := rfl
@[simp] theorem Dev.mapCmds_cobMem (d : Dev) (f : Cmd → Cmd) : (d.mapCmds f).cobMem = d.cobMem := rfl
@[simp] theorem Dev.mapCmds_poison (d : Dev) (f : Cmd → Cmd) : (d.mapCmds f).poison = d.poison := rfl
@[simp] theorem Dev.mapCmds_pools (d : Dev) (f : Cmd → Cmd) : (d.mapCmds f).pools = d.pools := rfl
@[simp] theorem Dev.mapCmds_fifos (d : Dev) (f : Cmd → Cmd) : (d.mapCmds f).fifos = d.fifos := rfl
@[simp] theorem Dev.mapCmds_hpt (d : Dev) (f : Cmd → Cmd) : (d.mapCmds f).hpt = d.hpt := rfl
@[simp] theorem Dev.mapCmds_strm (d : Dev) (f : Cmd → Cmd) : (d.mapCmds f).strm = d.strm := rfl
@[simp] theorem Dev.mapCmds_plc (d : Dev) (f : Cmd → Cmd) : (d.mapCmds f).plc = d.plc := rfl
@[simp] theorem Dev.mapCmds_cart (d : Dev) (f : Cmd → Cmd) : (d.mapCmds f).cart = d.cart := rfl
@[simp] theorem Dev.mapCmds_ecc (d : Dev) (f : Cmd → Cmd) : (d.mapCmds f).ecc = d.ecc := rfl
@[simp] theorem Dev.mapCmds_chan (d : Dev) (f : Cmd → Cmd) : (d.mapCmds f).chan = d.chan := rfl
@[simp] theorem Dev.mapCmds_pos (d : Dev) (f : Cmd → Cmd) : (d.mapCmds f).pos = d.pos := rfl
@[simp] theorem Dev.mapCmds_tce (d : Dev) (f : Cmd → Cmd) : (d.mapCmds f).tce = d.tce := rfl
@[simp] theorem Dev.mapCmds_mdr (d : Dev) (f : Cmd → Cmd) : (d.mapCmds f).mdr = d.mdr := rfl
@[simp] theorem Dev.mapCmds_cnt (d : Dev) (f : Cmd → Cmd) : (d.mapCmds f).cnt = d.cnt := rfl
@[simp] theorem Dev.mapCmds_cas (d : Dev) (f : Cmd → Cmd) : (d.mapCmds f).cas = d.cas := rfl
@[simp] theorem Dev.mapCmds_sec (d : Dev) (f : Cmd → Cmd) : (d.mapCmds f).sec = d.sec := rfl
@[simp] theorem Dev.mapCmds_pin (d : Dev) (f : Cmd → Cmd) : (d.mapCmds f).pin = d.pin := rfl
@[simp] theorem Dev.mapCmds_freeIx (d : Dev) (f : Cmd → Cmd) : (d.mapCmds f).freeIx = d.freeIx := rfl
@[simp] theorem Dev.mapCmds_out (d : Dev) (f : Cmd → Cmd) : (d.mapCmds f).out = d.out := rfl

/-! ## `Dev.modQueue` -/

@[simp] theorem Dev.modQueue_glb (d : Dev) (q : Nat) (f : Queue → Queue) : (d.modQueue q f).glb = d.glb := rfl
@[simp] theorem Dev.modQueue_regs (d : Dev) (q : Nat) (f : Queue → Queue) : (d.modQueue q f).regs = d.regs := rfl
@[simp] theorem Dev.modQueue_ddr (d : Dev) (q : Nat) (f : Queue → Queue) : (d.modQueue q f).ddr = d.ddr := rfl
@[simp] theorem Dev.modQueue_nor (d : Dev) (q : Nat) (f : Queue → Queue) : (d.modQueue q f).nor = d.nor := rfl
@[simp] theorem Dev.modQueue_feram (d : Dev) (q : Nat) (f : Queue → Queue) : (d.modQueue q f).feram = d.feram := rfl
@[simp] theorem Dev.modQueue_cobMem (d : Dev) (q : Nat) (f : Queue → Queue) : (d.modQueue q f).cobMem = d.cobMem := rfl
@[simp] theorem Dev.modQueue_poison (d : Dev) (q : Nat) (f : Queue → Queue) : (d.modQueue q f).poison = d.poison := rfl
@[simp] theorem Dev.modQueue_pools (d : Dev) (q : Nat) (f : Queue → Queue) : (d.modQueue q f).pools = d.pools := rfl
@[simp] theorem Dev.modQueue_fifos (d : Dev) (q : Nat) (f : Queue → Queue) : (d.modQueue q f).fifos = d.fifos := rfl
@[simp] theorem Dev.modQueue_hpt (d : Dev) (q : Nat) (f : Queue → Queue) : (d.modQueue q f).hpt = d.hpt := rfl
@[simp] theorem Dev.modQueue_strm (d : Dev) (q : Nat) (f : Queue → Queue) : (d.modQueue q f).strm = d.strm := rfl
@[simp] theorem Dev.modQueue_plc (d : Dev) (q : Nat) (f : Queue → Queue) : (d.modQueue q f).plc = d.plc := rfl
@[simp] theorem Dev.modQueue_cart (d : Dev) (q : Nat) (f : Queue → Queue) : (d.modQueue q f).cart = d.cart := rfl
@[simp] theorem Dev.modQueue_ecc (d : Dev) (q : Nat) (f : Queue → Queue) : (d.modQueue q f).ecc = d.ecc := rfl
@[simp] theorem Dev.modQueue_chan (d : Dev) (q : Nat) (f : Queue → Queue) : (d.modQueue q f).chan = d.chan := rfl
@[simp] theorem Dev.modQueue_pos (d : Dev) (q : Nat) (f : Queue → Queue) : (d.modQueue q f).pos = d.pos := rfl
@[simp] theorem Dev.modQueue_tce (d : Dev) (q : Nat) (f : Queue → Queue) : (d.modQueue q f).tce = d.tce := rfl
@[simp] theorem Dev.modQueue_mdr (d : Dev) (q : Nat) (f : Queue → Queue) : (d.modQueue q f).mdr = d.mdr := rfl
@[simp] theorem Dev.modQueue_cnt (d : Dev) (q : Nat) (f : Queue → Queue) : (d.modQueue q f).cnt = d.cnt := rfl
@[simp] theorem Dev.modQueue_cas (d : Dev) (q : Nat) (f : Queue → Queue) : (d.modQueue q f).cas = d.cas := rfl
@[simp] theorem Dev.modQueue_sec (d : Dev) (q : Nat) (f : Queue → Queue) : (d.modQueue q f).sec = d.sec := rfl
@[simp] theorem Dev.modQueue_pin (d : Dev) (q : Nat) (f : Queue → Queue) : (d.modQueue q f).pin = d.pin := rfl
@[simp] theorem Dev.modQueue_freeIx (d : Dev) (q : Nat) (f : Queue → Queue) : (d.modQueue q f).freeIx = d.freeIx := rfl
@[simp] theorem Dev.modQueue_out (d : Dev) (q : Nat) (f : Queue → Queue) : (d.modQueue q f).out = d.out := rfl

/-! ## `Dev.dropCmds` -/

@[simp] theorem Dev.dropCmds_glb (d : Dev) (p : Cmd → Bool) : (d.dropCmds p).glb = d.glb := rfl
@[simp] theorem Dev.dropCmds_regs (d : Dev) (p : Cmd → Bool) : (d.dropCmds p).regs = d.regs := rfl
@[simp] theorem Dev.dropCmds_ddr (d : Dev) (p : Cmd → Bool) : (d.dropCmds p).ddr = d.ddr := rfl
@[simp] theorem Dev.dropCmds_nor (d : Dev) (p : Cmd → Bool) : (d.dropCmds p).nor = d.nor := rfl
@[simp] theorem Dev.dropCmds_feram (d : Dev) (p : Cmd → Bool) : (d.dropCmds p).feram = d.feram := rfl
@[simp] theorem Dev.dropCmds_cobMem (d : Dev) (p : Cmd → Bool) : (d.dropCmds p).cobMem = d.cobMem := rfl
@[simp] theorem Dev.dropCmds_poison (d : Dev) (p : Cmd → Bool) : (d.dropCmds p).poison = d.poison := rfl
@[simp] theorem Dev.dropCmds_pools (d : Dev) (p : Cmd → Bool) : (d.dropCmds p).pools = d.pools := rfl
@[simp] theorem Dev.dropCmds_fifos (d : Dev) (p : Cmd → Bool) : (d.dropCmds p).fifos = d.fifos := rfl
@[simp] theorem Dev.dropCmds_hpt (d : Dev) (p : Cmd → Bool) : (d.dropCmds p).hpt = d.hpt := rfl
@[simp] theorem Dev.dropCmds_strm (d : Dev) (p : Cmd → Bool) : (d.dropCmds p).strm = d.strm := rfl
@[simp] theorem Dev.dropCmds_plc (d : Dev) (p : Cmd → Bool) : (d.dropCmds p).plc = d.plc := rfl
@[simp] theorem Dev.dropCmds_cart (d : Dev) (p : Cmd → Bool) : (d.dropCmds p).cart = d.cart := rfl
@[simp] theorem Dev.dropCmds_ecc (d : Dev) (p : Cmd → Bool) : (d.dropCmds p).ecc = d.ecc := rfl
@[simp] theorem Dev.dropCmds_chan (d : Dev) (p : Cmd → Bool) : (d.dropCmds p).chan = d.chan := rfl
@[simp] theorem Dev.dropCmds_pos (d : Dev) (p : Cmd → Bool) : (d.dropCmds p).pos = d.pos := rfl
@[simp] theorem Dev.dropCmds_tce (d : Dev) (p : Cmd → Bool) : (d.dropCmds p).tce = d.tce := rfl
@[simp] theorem Dev.dropCmds_mdr (d : Dev) (p : Cmd → Bool) : (d.dropCmds p).mdr = d.mdr := rfl
@[simp] theorem Dev.dropCmds_cnt (d : Dev) (p : Cmd → Bool) : (d.dropCmds p).cnt = d.cnt := rfl
@[simp] theorem Dev.dropCmds_cas (d : Dev) (p : Cmd → Bool) : (d.dropCmds p).cas = d.cas := rfl
@[simp] theorem Dev.dropCmds_sec (d : Dev) (p : Cmd → Bool) : (d.dropCmds p).sec = d.sec := rfl
@[simp] theorem Dev.dropCmds_pin (d : Dev) (p : Cmd → Bool) : (d.dropCmds p).pin = d.pin := rfl
@[simp] theorem Dev.dropCmds_freeIx (d : Dev) (p : Cmd → Bool) : (d.dropCmds p).freeIx = d.freeIx := rfl
@[simp] theorem Dev.dropCmds_out (d : Dev) (p : Cmd → Bool) : (d.dropCmds p).out = d.out := rfl

/-! ## `Dev.putPool` -/

@[simp] theorem Dev.putPool_glb (d : Dev) (p : Nat) (q : Pool) : (d.putPool p q).glb = d.glb := rfl
@[simp] theorem Dev.putPool_regs (d : Dev) (p : Nat) (q : Pool) : (d.putPool p q).regs = d.regs := rfl
@[simp] theorem Dev.putPool_ddr (d : Dev) (p : Nat) (q : Pool) : (d.putPool p q).ddr = d.ddr := rfl
@[simp] theorem Dev.putPool_nor (d : Dev) (p : Nat) (q : Pool) : (d.putPool p q).nor = d.nor := rfl
@[simp] theorem Dev.putPool_feram (d : Dev) (p : Nat) (q : Pool) : (d.putPool p q).feram = d.feram := rfl
@[simp] theorem Dev.putPool_cobMem (d : Dev) (p : Nat) (q : Pool) : (d.putPool p q).cobMem = d.cobMem := rfl
@[simp] theorem Dev.putPool_poison (d : Dev) (p : Nat) (q : Pool) : (d.putPool p q).poison = d.poison := rfl
@[simp] theorem Dev.putPool_fifos (d : Dev) (p : Nat) (q : Pool) : (d.putPool p q).fifos = d.fifos := rfl
@[simp] theorem Dev.putPool_hpt (d : Dev) (p : Nat) (q : Pool) : (d.putPool p q).hpt = d.hpt := rfl
@[simp] theorem Dev.putPool_cqm (d : Dev) (p : Nat) (q : Pool) : (d.putPool p q).cqm = d.cqm := rfl
@[simp] theorem Dev.putPool_strm (d : Dev) (p : Nat) (q : Pool) : (d.putPool p q).strm = d.strm := rfl
@[simp] theorem Dev.putPool_plc (d : Dev) (p : Nat) (q : Pool) : (d.putPool p q).plc = d.plc := rfl
@[simp] theorem Dev.putPool_cart (d : Dev) (p : Nat) (q : Pool) : (d.putPool p q).cart = d.cart := rfl
@[simp] theorem Dev.putPool_ecc (d : Dev) (p : Nat) (q : Pool) : (d.putPool p q).ecc = d.ecc := rfl
@[simp] theorem Dev.putPool_chan (d : Dev) (p : Nat) (q : Pool) : (d.putPool p q).chan = d.chan := rfl
@[simp] theorem Dev.putPool_pos (d : Dev) (p : Nat) (q : Pool) : (d.putPool p q).pos = d.pos := rfl
@[simp] theorem Dev.putPool_tce (d : Dev) (p : Nat) (q : Pool) : (d.putPool p q).tce = d.tce := rfl
@[simp] theorem Dev.putPool_mdr (d : Dev) (p : Nat) (q : Pool) : (d.putPool p q).mdr = d.mdr := rfl
@[simp] theorem Dev.putPool_cnt (d : Dev) (p : Nat) (q : Pool) : (d.putPool p q).cnt = d.cnt := rfl
@[simp] theorem Dev.putPool_cas (d : Dev) (p : Nat) (q : Pool) : (d.putPool p q).cas = d.cas := rfl
@[simp] theorem Dev.putPool_sec (d : Dev) (p : Nat) (q : Pool) : (d.putPool p q).sec = d.sec := rfl
@[simp] theorem Dev.putPool_pin (d : Dev) (p : Nat) (q : Pool) : (d.putPool p q).pin = d.pin := rfl
@[simp] theorem Dev.putPool_freeIx (d : Dev) (p : Nat) (q : Pool) : (d.putPool p q).freeIx = d.freeIx := rfl
@[simp] theorem Dev.putPool_out (d : Dev) (p : Nat) (q : Pool) : (d.putPool p q).out = d.out := rfl

/-! ## `Dev.dropEntries` -/

@[simp] theorem Dev.dropEntries_glb (d : Dev) (p : Entry → Bool) : (d.dropEntries p).glb = d.glb := rfl
@[simp] theorem Dev.dropEntries_regs (d : Dev) (p : Entry → Bool) : (d.dropEntries p).regs = d.regs := rfl
@[simp] theorem Dev.dropEntries_ddr (d : Dev) (p : Entry → Bool) : (d.dropEntries p).ddr = d.ddr := rfl
@[simp] theorem Dev.dropEntries_nor (d : Dev) (p : Entry → Bool) : (d.dropEntries p).nor = d.nor := rfl
@[simp] theorem Dev.dropEntries_feram (d : Dev) (p : Entry → Bool) : (d.dropEntries p).feram = d.feram := rfl
@[simp] theorem Dev.dropEntries_cobMem (d : Dev) (p : Entry → Bool) : (d.dropEntries p).cobMem = d.cobMem := rfl
@[simp] theorem Dev.dropEntries_poison (d : Dev) (p : Entry → Bool) : (d.dropEntries p).poison = d.poison := rfl
@[simp] theorem Dev.dropEntries_pools (d : Dev) (p : Entry → Bool) : (d.dropEntries p).pools = d.pools := rfl
@[simp] theorem Dev.dropEntries_fifos (d : Dev) (p : Entry → Bool) : (d.dropEntries p).fifos = d.fifos := rfl
@[simp] theorem Dev.dropEntries_hpt (d : Dev) (p : Entry → Bool) : (d.dropEntries p).hpt = d.hpt := rfl
@[simp] theorem Dev.dropEntries_cqm (d : Dev) (p : Entry → Bool) : (d.dropEntries p).cqm = d.cqm := rfl
@[simp] theorem Dev.dropEntries_strm (d : Dev) (p : Entry → Bool) : (d.dropEntries p).strm = d.strm := rfl
@[simp] theorem Dev.dropEntries_plc (d : Dev) (p : Entry → Bool) : (d.dropEntries p).plc = d.plc := rfl
@[simp] theorem Dev.dropEntries_cart (d : Dev) (p : Entry → Bool) : (d.dropEntries p).cart = d.cart := rfl
@[simp] theorem Dev.dropEntries_ecc (d : Dev) (p : Entry → Bool) : (d.dropEntries p).ecc = d.ecc := rfl
@[simp] theorem Dev.dropEntries_chan (d : Dev) (p : Entry → Bool) : (d.dropEntries p).chan = d.chan := rfl
@[simp] theorem Dev.dropEntries_tce (d : Dev) (p : Entry → Bool) : (d.dropEntries p).tce = d.tce := rfl
@[simp] theorem Dev.dropEntries_mdr (d : Dev) (p : Entry → Bool) : (d.dropEntries p).mdr = d.mdr := rfl
@[simp] theorem Dev.dropEntries_cnt (d : Dev) (p : Entry → Bool) : (d.dropEntries p).cnt = d.cnt := rfl
@[simp] theorem Dev.dropEntries_cas (d : Dev) (p : Entry → Bool) : (d.dropEntries p).cas = d.cas := rfl
@[simp] theorem Dev.dropEntries_sec (d : Dev) (p : Entry → Bool) : (d.dropEntries p).sec = d.sec := rfl
@[simp] theorem Dev.dropEntries_pin (d : Dev) (p : Entry → Bool) : (d.dropEntries p).pin = d.pin := rfl
@[simp] theorem Dev.dropEntries_freeIx (d : Dev) (p : Entry → Bool) : (d.dropEntries p).freeIx = d.freeIx := rfl
@[simp] theorem Dev.dropEntries_out (d : Dev) (p : Entry → Bool) : (d.dropEntries p).out = d.out := rfl

/-! ## `Dev.fillTx` -/

@[simp] theorem Dev.fillTx_glb (d : Dev) (c : Nat) : (d.fillTx c).glb = d.glb := rfl
@[simp] theorem Dev.fillTx_regs (d : Dev) (c : Nat) : (d.fillTx c).regs = d.regs := rfl
@[simp] theorem Dev.fillTx_ddr (d : Dev) (c : Nat) : (d.fillTx c).ddr = d.ddr := rfl
@[simp] theorem Dev.fillTx_nor (d : Dev) (c : Nat) : (d.fillTx c).nor = d.nor := rfl
@[simp] theorem Dev.fillTx_feram (d : Dev) (c : Nat) : (d.fillTx c).feram = d.feram := rfl
@[simp] theorem Dev.fillTx_cobMem (d : Dev) (c : Nat) : (d.fillTx c).cobMem = d.cobMem := rfl
@[simp] theorem Dev.fillTx_poison (d : Dev) (c : Nat) : (d.fillTx c).poison = d.poison := rfl
@[simp] theorem Dev.fillTx_pools (d : Dev) (c : Nat) : (d.fillTx c).pools = d.pools := rfl
@[simp] theorem Dev.fillTx_fifos (d : Dev) (c : Nat) : (d.fillTx c).fifos = d.fifos := rfl
@[simp] theorem Dev.fillTx_cqm (d : Dev) (c : Nat) : (d.fillTx c).cqm = d.cqm := rfl
@[simp] theorem Dev.fillTx_strm (d : Dev) (c : Nat) : (d.fillTx c).strm = d.strm := rfl
@[simp] theorem Dev.fillTx_plc (d : Dev) (c : Nat) : (d.fillTx c).plc = d.plc := rfl
@[simp] theorem Dev.fillTx_cart (d : Dev) (c : Nat) : (d.fillTx c).cart = d.cart := rfl
@[simp] theorem Dev.fillTx_ecc (d : Dev) (c : Nat) : (d.fillTx c).ecc = d.ecc := rfl
@[simp] theorem Dev.fillTx_chan (d : Dev) (c : Nat) : (d.fillTx c).chan = d.chan := rfl
@[simp] theorem Dev.fillTx_pos (d : Dev) (c : Nat) : (d.fillTx c).pos = d.pos := rfl
@[simp] theorem Dev.fillTx_tce (d : Dev) (c : Nat) : (d.fillTx c).tce = d.tce := rfl
@[simp] theorem Dev.fillTx_mdr (d : Dev) (c : Nat) : (d.fillTx c).mdr = d.mdr := rfl
@[simp] theorem Dev.fillTx_cnt (d : Dev) (c : Nat) : (d.fillTx c).cnt = d.cnt := rfl
@[simp] theorem Dev.fillTx_cas (d : Dev) (c : Nat) : (d.fillTx c).cas = d.cas := rfl
@[simp] theorem Dev.fillTx_sec (d : Dev) (c : Nat) : (d.fillTx c).sec = d.sec := rfl
@[simp] theorem Dev.fillTx_pin (d : Dev) (c : Nat) : (d.fillTx c).pin = d.pin := rfl
@[simp] theorem Dev.fillTx_freeIx (d : Dev) (c : Nat) : (d.fillTx c).freeIx = d.freeIx := rfl
@[simp] theorem Dev.fillTx_out (d : Dev) (c : Nat) : (d.fillTx c).out = d.out := rfl

/-! ## Words and fields through updates that leave the registers alone -/

@[simp] theorem Dev.word_emit (d : Dev) (o : Out) (x : Nat) : (d.emit o).word x = d.word x := rfl
@[simp] theorem Dev.get_emit (d : Dev) (o : Out) (x : Fld) : (d.emit o).get x = d.get x := rfl
@[simp] theorem Dev.flag_emit (d : Dev) (o : Out) (x : Fld) : (d.emit o).flag x = d.flag x := rfl
@[simp] theorem Dev.word_putDdr (d : Dev) (a : Nat) (bs : List Byte) (x : Nat) : (d.putDdr a bs).word x = d.word x := rfl
@[simp] theorem Dev.get_putDdr (d : Dev) (a : Nat) (bs : List Byte) (x : Fld) : (d.putDdr a bs).get x = d.get x := rfl
@[simp] theorem Dev.flag_putDdr (d : Dev) (a : Nat) (bs : List Byte) (x : Fld) : (d.putDdr a bs).flag x = d.flag x := rfl
@[simp] theorem Dev.word_putNor (d : Dev) (a : Nat) (bs : List Byte) (x : Nat) : (d.putNor a bs).word x = d.word x := rfl
@[simp] theorem Dev.get_putNor (d : Dev) (a : Nat) (bs : List Byte) (x : Fld) : (d.putNor a bs).get x = d.get x := rfl
@[simp] theorem Dev.flag_putNor (d : Dev) (a : Nat) (bs : List Byte) (x : Fld) : (d.putNor a bs).flag x = d.flag x := rfl
@[simp] theorem Dev.word_putFeram (d : Dev) (a : Nat) (bs : List Byte) (x : Nat) : (d.putFeram a bs).word x = d.word x := rfl
@[simp] theorem Dev.get_putFeram (d : Dev) (a : Nat) (bs : List Byte) (x : Fld) : (d.putFeram a bs).get x = d.get x := rfl
@[simp] theorem Dev.flag_putFeram (d : Dev) (a : Nat) (bs : List Byte) (x : Fld) : (d.putFeram a bs).flag x = d.flag x := rfl
@[simp] theorem Dev.word_modConn (d : Dev) (c : Nat) (f : Conn → Conn) (x : Nat) : (d.modConn c f).word x = d.word x := rfl
@[simp] theorem Dev.get_modConn (d : Dev) (c : Nat) (f : Conn → Conn) (x : Fld) : (d.modConn c f).get x = d.get x := rfl
@[simp] theorem Dev.flag_modConn (d : Dev) (c : Nat) (f : Conn → Conn) (x : Fld) : (d.modConn c f).flag x = d.flag x := rfl
@[simp] theorem Dev.word_modTimers (d : Dev) (c : Nat) (f : Timers → Timers) (x : Nat) : (d.modTimers c f).word x = d.word x := rfl
@[simp] theorem Dev.get_modTimers (d : Dev) (c : Nat) (f : Timers → Timers) (x : Fld) : (d.modTimers c f).get x = d.get x := rfl
@[simp] theorem Dev.flag_modTimers (d : Dev) (c : Nat) (f : Timers → Timers) (x : Fld) : (d.modTimers c f).flag x = d.flag x := rfl
@[simp] theorem Dev.word_modPort (d : Dev) (p : Nat) (f : Port → Port) (x : Nat) : (d.modPort p f).word x = d.word x := rfl
@[simp] theorem Dev.get_modPort (d : Dev) (p : Nat) (f : Port → Port) (x : Fld) : (d.modPort p f).get x = d.get x := rfl
@[simp] theorem Dev.flag_modPort (d : Dev) (p : Nat) (f : Port → Port) (x : Fld) : (d.modPort p f).flag x = d.flag x := rfl
@[simp] theorem Dev.word_sendMsg (d : Dev) (c typ cls : Nat) (p : Payload) (len : Nat) (st : Option Nat) (bufs : List Nat) (x : Nat) : (d.sendMsg c typ cls p len st bufs).word x = d.word x := rfl
@[simp] theorem Dev.get_sendMsg (d : Dev) (c typ cls : Nat) (p : Payload) (len : Nat) (st : Option Nat) (bufs : List Nat) (x : Fld) : (d.sendMsg c typ cls p len st bufs).get x = d.get x := rfl
@[simp] theorem Dev.flag_sendMsg (d : Dev) (c typ cls : Nat) (p : Payload) (len : Nat) (st : Option Nat) (bufs : List Nat) (x : Fld) : (d.sendMsg c typ cls p len st bufs).flag x = d.flag x := rfl
@[simp] theorem Dev.word_modCmd (d : Dev) (h : Nat) (f : Cmd → Cmd) (x : Nat) : (d.modCmd h f).word x = d.word x := rfl
@[simp] theorem Dev.get_modCmd (d : Dev) (h : Nat) (f : Cmd → Cmd) (x : Fld) : (d.modCmd h f).get x = d.get x := rfl
@[simp] theorem Dev.flag_modCmd (d : Dev) (h : Nat) (f : Cmd → Cmd) (x : Fld) : (d.modCmd h f).flag x = d.flag x := rfl
@[simp] theorem Dev.word_mapCmds (d : Dev) (f : Cmd → Cmd) (x : Nat) : (d.mapCmds f).word x = d.word x := rfl
@[simp] theorem Dev.get_mapCmds (d : Dev) (f : Cmd → Cmd) (x : Fld) : (d.mapCmds f).get x = d.get x := rfl
@[simp] theorem Dev.flag_mapCmds (d : Dev) (f : Cmd → Cmd) (x : Fld) : (d.mapCmds f).flag x = d.flag x := rfl
@[simp] theorem Dev.word_modQueue (d : Dev) (q : Nat) (f : Queue → Queue) (x : Nat) : (d.modQueue q f).word x = d.word x := rfl
@[simp] theorem Dev.get_modQueue (d : Dev) (q : Nat) (f : Queue → Queue) (x : Fld) : (d.modQueue q f).get x = d.get x := rfl
@[simp] theorem Dev.flag_modQueue (d : Dev) (q : Nat) (f : Queue → Queue) (x : Fld) : (d.modQueue q f).flag x = d.flag x := rfl
@[simp] theorem Dev.word_dropCmds (d : Dev) (p : Cmd → Bool) (x : Nat) : (d.dropCmds p).word x = d.word x := rfl
@[simp] theorem Dev.get_dropCmds (d : Dev) (p : Cmd → Bool) (x : Fld) : (d.dropCmds p).get x = d.get x := rfl
@[simp] theorem Dev.flag_dropCmds (d : Dev) (p : Cmd → Bool) (x : Fld) : (d.dropCmds p).flag x = d.flag x := rfl
@[simp] theorem Dev.word_putPool (d : Dev) (p : Nat) (q : Pool) (x : Nat) : (d.putPool p q).word x = d.word x := rfl
@[simp] theorem Dev.get_putPool (d : Dev) (p : Nat) (q : Pool) (x : Fld) : (d.putPool p q).get x = d.get x := rfl
@[simp] theorem Dev.flag_putPool (d : Dev) (p : Nat) (q : Pool) (x : Fld) : (d.putPool p q).flag x = d.flag x := rfl
@[simp] theorem Dev.word_dropEntries (d : Dev) (p : Entry → Bool) (x : Nat) : (d.dropEntries p).word x = d.word x := rfl
@[simp] theorem Dev.get_dropEntries (d : Dev) (p : Entry → Bool) (x : Fld) : (d.dropEntries p).get x = d.get x := rfl
@[simp] theorem Dev.flag_dropEntries (d : Dev) (p : Entry → Bool) (x : Fld) : (d.dropEntries p).flag x = d.flag x := rfl
@[simp] theorem Dev.word_fillTx (d : Dev) (c : Nat) (x : Nat) : (d.fillTx c).word x = d.word x := rfl
@[simp] theorem Dev.get_fillTx (d : Dev) (c : Nat) (x : Fld) : (d.fillTx c).get x = d.get x := rfl
@[simp] theorem Dev.flag_fillTx (d : Dev) (c : Nat) (x : Fld) : (d.fillTx c).flag x = d.flag x := rfl

end Sys2Proof.Machine
end

