-- ==== Sys2Proof/Laws/Host.lean ====
section
/-!
SUPPORT. What follows a command on the host side when no connection waits to be reset: credit is refreshed (R286), which
touches ports, outputs, the count of segments and the credit that connections have advertised, and nothing else.
-/
namespace Sys2Proof.Machine

/-- `b` is `a` after sending acknowledgements and credit: only ports, waiting control segments, credit, outputs, to which some are
added, and the count of segments differ. -/
def Dev.hostOnly (a b : Dev) : Prop :=
  b = { a with hpt := { a.hpt with conns := b.hpt.conns, ports := b.hpt.ports, ctrl := b.hpt.ctrl }, out := b.out, regs := b.regs }
    ∧ b.hpt.conns.map Conn.core = a.hpt.conns.map Conn.core ∧ (∀ x, x ≠ C.hptTxSeg → b.word x = a.word x)
    ∧ ∃ os, b.out = os ++ a.out

theorem Dev.hostOnly_refl (d : Dev) : d.hostOnly d := ⟨rfl, rfl, fun _ _ => rfl, [], rfl⟩

theorem Dev.hostOnly_trans {a b c : Dev} (h : a.hostOnly b) (k : b.hostOnly c) : a.hostOnly c :=
  ⟨by rw [k.1, h.1], by rw [k.2.1, h.2.1], fun x hx => by rw [k.2.2.1 x hx, h.2.2.1 x hx], by
    obtain ⟨os, e⟩ := h.2.2.2
    obtain ⟨os', e'⟩ := k.2.2.2
    exact ⟨os' ++ os, by rw [e', e, List.append_assoc]⟩⟩

theorem Dev.hostOnly_foldl {α : Type} (f : Dev → α → Dev) (h : ∀ (d : Dev) (x : α), d.hostOnly (f d x)) (l : List α) (d : Dev) :
    d.hostOnly (l.foldl f d) := by
  induction l generalizing d with
  | nil => exact d.hostOnly_refl
  | cons x l ih => exact Dev.hostOnly_trans (h d x) (ih _)

theorem Dev.hostOnly_emit (d : Dev) (o : Out) : d.hostOnly (d.emit o) := ⟨rfl, rfl, fun _ _ => rfl, [o], rfl⟩

theorem Dev.hostOnly_ctrl (d : Dev) (cs : List (Nat × Ctrl)) : d.hostOnly { d with hpt := { d.hpt with ctrl := cs } } :=
  ⟨rfl, rfl, fun _ _ => rfl, [], rfl⟩

theorem Dev.hostOnly_modPort (d : Dev) (p : Nat) (f : Port → Port) : d.hostOnly (d.modPort p f) := ⟨rfl, rfl, fun _ _ => rfl, [], rfl⟩

theorem Dev.hostOnly_wire (d : Dev) (s : Seg) (flow : Word) (cls : Nat) : d.hostOnly (d.wire s flow cls) :=
  ⟨rfl, rfl, fun _ hx => d.word_bumpBy_other _ _ hx, [_], rfl⟩

theorem Dev.hostOnly_modConn (d : Dev) (c : Nat) (f : Conn → Conn) (h : ∀ k, (f k).core = k.core) : d.hostOnly (d.modConn c f) := by
  refine ⟨rfl, ?_, fun _ _ => rfl, [], rfl⟩
  simp only [Dev.modConn, List.map_map]
  apply List.map_congr_left
  intro k _
  simp only [Function.comp]
  split
  · exact h k
  · rfl

theorem Dev.hostOnly_wireOf (d : Dev) (k : Conn) (s : Seg) (cls : Nat) : d.hostOnly (d.wireOf k s cls) :=
  Dev.hostOnly_trans (d.hostOnly_wire s k.flow cls) (Dev.hostOnly_modConn _ _ _ fun _ => rfl)

theorem Dev.hostOnly_solicitIf (d : Dev) (p : Bool) (port : Nat) (ip : IPv6) :
    d.hostOnly (if p = true then d else d.solicit port ip) := by
  split
  · exact d.hostOnly_refl
  · exact d.hostOnly_emit _

theorem Dev.hostOnly_sendAck (d : Dev) (c : Nat) (now : Bool) : d.hostOnly (d.sendAck c now) := by
  unfold Dev.sendAck
  split
  · exact d.hostOnly_refl
  · split
    · exact d.hostOnly_wireOf ..
    · exact Dev.hostOnly_trans (d.hostOnly_ctrl _) (Dev.hostOnly_solicitIf ..)

theorem Dev.hostOnly_advertise (d : Dev) (c : Nat) : d.hostOnly (d.advertise c) := by
  unfold Dev.advertise
  split
  · exact d.hostOnly_refl
  · dsimp only
    split
    · exact d.hostOnly_sendAck ..
    · exact d.hostOnly_refl

theorem Dev.hostOnly_refreshCredit (d : Dev) : d.hostOnly d.refreshCredit := by
  unfold Dev.refreshCredit
  dsimp only
  refine Dev.hostOnly_trans ?_ (Dev.hostOnly_foldl Dev.advertise Dev.hostOnly_advertise _ _)
  refine ⟨rfl, ?_, fun _ _ => rfl, [], rfl⟩
  simp only [List.map_map]
  apply List.map_congr_left
  intro k _
  simp only [Function.comp]
  split <;> rfl

/-- With no connection in CLOSE_WAIT and no standby request held, only credit follows a command. -/
theorem Dev.hostOnly_hostSettle (d : Dev) (h : d.calm = true) : d.hostOnly d.hostSettle := by
  have hc : (d.hpt.conns.filter fun k => k.st == .closeWait && d.frozen k.queue) = [] := by
    rw [List.filter_eq_nil_iff]
    intro k hk
    simp only [Dev.calm, Bool.and_eq_true, List.all_eq_true, bne_iff_ne] at h
    simp [h.1 k hk]
  have hr := d.hostOnly_refreshCredit
  have hb : d.refreshCredit.glb.standbyHeld = false := by
    rw [hr.1]
    simp only [Dev.calm, Bool.and_eq_true, Bool.not_eq_true'] at h
    exact h.2
  have e : d.hostSettle = d.refreshCredit := by
    simp [Dev.hostSettle, hc, Dev.settleStandby, hb]
  rw [e]
  exact hr

end Sys2Proof.Machine
end

