-- ==== Sys2Proof/Laws/Link.lean ====
section
/-!
SUPPORT. The bytes of flits (R446): their length, and that the FCRC of a flit that the device makes checks.
-/
namespace Sys2Proof.Machine

@[simp] theorem length_leBytes (n v : Nat) : (leBytes n v).length = n := by
  induction n generalizing v with
  | zero => rfl
  | succ n ih => simp [leBytes, ih]

@[simp] theorem length_fitTo (n : Nat) (bs : List Byte) : (fitTo n bs).length = n := by
  simp [fitTo, padTo]

theorem length_flitBody (f : Flit) : (flitBody f).length = 508 := by simp [flitBody]

theorem length_flitBytes (f : Flit) : (flitBytes f).length = 512 := by simp [flitBytes, length_flitBody]

theorem fcrcGood_bytes (f : Flit) : fcrcGood (flitBytes f) = true := by
  have h := length_flitBody f
  simp [fcrcGood, flitBytes, h]

end Sys2Proof.Machine
end

