-- ==== Sys2Proof/Laws/Pools.lean ====
section
/-!
SUPPORT. Laws of the pools: what each operation does to buffers, and that BPM.FW_RESULT shows what it is given.
-/
namespace Sys2Proof.Machine

theorem getElem?_setAt {α : Type} (l : List α) (i j : Nat) (x : α) :
    (setAt l i x)[j]? = if j = i ∧ i < l.length then some x else l[j]? := by
  induction l generalizing i j with
  | nil => simp [setAt]
  | cons y l ih =>
    cases i with
    | zero => cases j <;> simp [setAt]
    | succ i =>
      cases j with
      | zero => simp [setAt]
      | succ j => simp [setAt, ih]

@[simp] theorem Pool.buf_setBuf_same (p : Pool) (i : Nat) (b : Buf) : (p.setBuf i b).buf i = b := by
  simp [Pool.buf, Pool.setBuf]

theorem Pool.buf_setBuf_other (p : Pool) {i j : Nat} (b : Buf) (h : j ≠ i) : (p.setBuf i b).buf j = p.buf j :=
  sparseGet_put_other _ _ _ h

@[simp] theorem Pool.buf_take (p : Pool) (i j : Nat) : (p.take i).buf j = p.buf j := by
  unfold Pool.take
  split <;> rfl

@[simp] theorem Pool.buf_giveBack (p : Pool) (i j : Nat) : (p.giveBack i).buf j = p.buf j := by
  unfold Pool.giveBack
  split <;> rfl

@[simp] theorem Pool.buf_evaluate (p : Pool) (a b c h j : Nat) : (p.evaluate a b c h).buf j = p.buf j := rfl

/-- The pool stored: buffers as given, thresholds evaluated (R343). -/
theorem Dev.pool?_putPool_same (d : Dev) (p : Nat) (q q0 : Pool) (h : d.pool? p = some q0) :
    ∃ q', (d.putPool p q).pool? p = some q' ∧ ∀ j, q'.buf j = q.buf j := by
  have hl : p < d.pools.length := by
    simp only [Dev.pool?] at h
    exact (List.getElem?_eq_some_iff.mp h).1
  refine ⟨q.evaluate (d.get (F.bpmPoolCfgEw1.ix p)) (d.get (F.bpmPoolCfgEw2.ix p)) (d.get (F.bpmPoolCfgEw3.ix p))
    (d.get (F.bpmPoolCfgHyst.ix p)), ?_, fun j => rfl⟩
  simp [Dev.pool?, Dev.putPool, getElem?_setAt, hl]

/-- Another pool. -/
theorem Dev.pool?_putPool_other (d : Dev) {p r : Nat} (q : Pool) (h : r ≠ p) : (d.putPool p q).pool? r = d.pool? r := by
  simp [Dev.pool?, Dev.putPool, getElem?_setAt, h]

@[simp] theorem Dev.putPool_word (d : Dev) (p : Nat) (q : Pool) (a : Nat) : (d.putPool p q).word a = d.word a := rfl

/-- What BPM.FW_RESULT shows after an operation (R365), and what else stands. -/
theorem Dev.fwResult_spec (d : Dev) (e : Bool) (o h : Nat) :
    (d.fwResult e o h).get F.bpmFwResultDone = 1 ∧ (d.fwResult e o h).get F.bpmFwResultEmpty = b2n e
      ∧ (d.fwResult e o h).get F.bpmFwResultOwners = o % 256 ∧ (d.fwResult e o h).get F.bpmFwResultHandle = h % 2 ^ 32
      ∧ d.fwResult e o h = { d with regs := (d.fwResult e o h).regs }
      ∧ ∀ a, a ≠ F.bpmFwResultDone.addr → (d.fwResult e o h).word a = d.word a := by
  refine ⟨?_, ?_, ?_, ?_, rfl, ?_⟩
  · simp (disch := decide) [Dev.fwResult, Dev.get_set_same, Dev.get_set_other]
  · simp (disch := decide) [Dev.fwResult, Dev.get_set_same, Dev.get_set_other]; cases e <;> decide
  · simp (disch := decide) [Dev.fwResult, Dev.get_set_same, Dev.get_set_other]; rfl
  · simp (disch := decide) [Dev.fwResult, Dev.get_set_same]; rfl
  · intro a ha
    have h1 : a ≠ F.bpmFwResultEmpty.addr := ha
    have h2 : a ≠ F.bpmFwResultOwners.addr := ha
    have h3 : a ≠ F.bpmFwResultHandle.addr := ha
    rw [Dev.fwResult, Dev.word_set_other _ _ _ h3, Dev.word_set_other _ _ _ h2, Dev.word_set_other _ _ _ h1,
      Dev.word_set_other _ _ _ ha]

end Sys2Proof.Machine
end

