-- ==== Sys2Proof/Laws/Queue.lean ====
section
/-!
SUPPORT. Laws of completion: what finishing a command with GOOD does when it is the only command.
-/
namespace Sys2Proof.Machine

/-- The device after the only command has completed with GOOD (R300, R305): its STATUS is the newest message. -/
def Dev.afterGood (d : Dev) (c : Cmd) (k : Conn) (already : Bool) (detail : List Byte) : Dev :=
  { d with
    cqm := { d.cqm with
      cmds := if c.counts then [{ c with phase := .completed, data := [] }] else []
      deficit := if c.opcode == opRead && decide (c.cls < 4) then modAt (· - (fieldAt detail 0 4 : Nat)) d.cqm.deficit c.cls
        else d.cqm.deficit }
    hpt := { d.hpt with
      conns := [{ k with msgs := k.msgs ++ [⟨d.hpt.nextMsg, typStatus, c.cls, Payload.onDie (statusBytes c.tag c.opcode false
        (d.flag F.plcStatusEwSeen) already stGood 0 0 detail), 32, some c.h, []⟩] }]
      nextMsg := d.hpt.nextMsg + 1 } }

/-- Releasing buffers changes the pools and nothing else. -/
theorem Dev.releaseAll_pools (hs : List Nat) (o : Nat) : ∀ d : Dev, d.releaseAll hs o = { d with pools := (d.releaseAll hs o).pools } := by
  induction hs with
  | nil => intro d; rfl
  | cons x hs ih =>
    intro d
    have hx : d.release x o = { d with pools := (d.release x o).pools } := by
      unfold Dev.release
      split
      · rfl
      · dsimp only
        split <;> rfl
    have e : d.releaseAll (x :: hs) o = (d.release x o).releaseAll hs o := rfl
    rw [e, ih (d.release x o), hx]

/-- Releasing buffers looks at no command. -/
theorem Dev.releaseAll_cqm (hs : List Nat) (o : Nat) (x : Cqm) : ∀ d : Dev,
    ({ d with cqm := x } : Dev).releaseAll hs o = { d.releaseAll hs o with cqm := x } := by
  induction hs with
  | nil => intro d; rfl
  | cons y hs ih =>
    intro d
    have hy : ({ d with cqm := x } : Dev).release y o = { d.release y o with cqm := x } := by
      unfold Dev.release
      have e : ({ d with cqm := x } : Dev).pool? (handlePool y) = d.pool? (handlePool y) := rfl
      rw [e]
      split
      · rfl
      · dsimp only
        split <;> rfl
    have e : ∀ f : Dev, f.releaseAll (y :: hs) o = (f.release y o).releaseAll hs o := fun _ => rfl
    rw [e, e, hy, ih]

/-- Finishing the only command with GOOD. -/
theorem Dev.finish_alone (d : Dev) (c : Cmd) (k : Conn) (q : Queue) (already : Bool) (detail : List Byte) (h : d.alone c k q) :
    d.finish c.h stGood detail already = (d.releaseAll c.data ownHostRx).afterGood c k already detail := by
  obtain ⟨h1, h2, h3, h4, h5, h6, h7, h8, _⟩ := h
  have e1 : d.modCmd c.h (fun c => { c with phase := .finished stGood detail already }) =
      { d with cqm := { d.cqm with cmds := [{ c with phase := .finished stGood detail already }] } } := by
    simp [Dev.modCmd, h1]
  have e2 : ({ d with cqm := { d.cqm with cmds := [{ c with phase := .finished stGood detail already }] } } : Dev).mayComplete
      { c with phase := .finished stGood detail already } = true := by
    simp [Dev.mayComplete]
  have e3 : ({ d with cqm := { d.cqm with cmds := [{ c with phase := .finished stGood detail already }] } } : Dev).completeNow
      { c with phase := .finished stGood detail already } stGood detail already 0
      = (d.releaseAll c.data ownHostRx).afterGood c k already detail := by
    have r := (Dev.releaseAll_cqm c.data ownHostRx { d.cqm with cmds := [{ c with phase := .finished stGood detail already }] } d)
    have p := Dev.releaseAll_pools c.data ownHostRx d
    rw [p] at r
    rw [p]
    generalize (d.releaseAll c.data ownHostRx).pools = P at r ⊢
    have hd : (decide (0x200 ≤ stGood) && decide (stGood < 0x300)) = false := rfl
    have hs : (decide (0x100 ≤ stGood) && decide (stGood < 0x200) && stGood != stQueueFull) = false := rfl
    have hb : (stGood == stBusy) = false := rfl
    have hg : (stGood == stGood) = true := rfl
    unfold Dev.completeNow
    simp only [hd, hs, hb, hg, Bool.false_or, if_false, Bool.false_eq_true, Bool.and_true, r]
    by_cases hr : c.opcode = opRead <;> by_cases hc : c.cls < 4 <;> cases h9 : c.counts <;>
    simp [Dev.modCmd, Dev.sendFor, Dev.queue?, Dev.frozen, Dev.dropCmds,
      h2, h3, h4, h5, h9, Dev.sendMsg, h6, Dev.afterGood, hr, hc, Dev.flag, Dev.get, Dev.word]
  unfold Dev.finish
  rw [e1]
  dsimp only
  simp only [List.length_cons, List.length_nil, Dev.settle, List.find?_cons, e2, Bool.and_self]
  rw [e3]
  cases h9 : c.counts <;> simp [Dev.afterGood, h9]

end Sys2Proof.Machine
end

