-- ==== Sys2Proof/Tests/Slice0.lean ====
section
/-!
SUPPORT. Tests: for every statement, states and operands that meet its hypotheses (`meets_<statement>_<clause>`), ill-formed
terms that the check refuses, and the spec's worked examples.
-/
open Sys2Proof Sys2Proof.Machine
namespace Sys2Proof.Tests

-- One theorem after another: side by side their kernel evaluations take too much memory.
set_option Elab.async false

theorem test_reset_canonical : State.reset.dev.canonical = true := by decide

/-! ## States to try commands on -/

/-- The block after reset, brought to a device state and changed by `f`. -/
def at_ (st : DevState) (f : Dev → Dev := id) : State :=
  ⟨[], f { Dev.reset with glb := { Glb.reset with dev := st, porstLow := false } }⟩

/-- An established connection, the first one, with nothing sent or received. -/
def k0 : Conn where
  id := 0
  st := .established
  port := 0
  host := 0xFE800000000000000000000000001234
  hostPort := 4000
  hostId := 77
  epoch := 5
  flow := 0
  queue := 0
  peerMss := 9000
  isn := 9
  hostIsn := 999
  rcvNext := 1000
  rcvEdge := 1064
  rcv := []
  lastRcv := none
  grans := []
  creditCut := 0
  unacked := 0
  sndUna := 10
  sndNext := 10
  peerEdge := 74
  msgs := []
  cutIx := 0
  cutOff := 0
  tx := []
  rp := 0

/-- Its queue. -/
def q0 : Queue := ⟨0, k0.host, k0.hostId, [5], some 0, false, [], 0⟩

/-- A command block (R298). -/
def block (tag op stream len : Nat) (par : List Byte) : List Byte :=
  leBytes 4 tag ++ leBytes 1 op ++ leBytes 1 1 ++ leBytes 2 stream ++ leBytes 2 32 ++ leBytes 2 0 ++ leBytes 4 len ++ fitTo 16 par

/-- A command of that queue on stream 3, with its parameters. -/
def cmdOf (op : Nat) (ph : Phase) (par : List Byte := []) (len : Nat := 0) : Cmd :=
  ⟨0, 0, 5, op, 1, 3, block 5 op 3 len par, len, [], ph, false, true, false, false, 0⟩

/-- A device with one connection and one command. -/
def with_ (c : Cmd) (d : Dev) : Dev :=
  { d with hpt := { d.hpt with conns := [k0] }, cqm := { d.cqm with cmds := [c], queues := [q0] } }

/-- The first link is up and the host is its neighbour. -/
def linked (d : Dev) : Dev :=
  (d.set (F.hptPortStatusLinkUp.ix 0) 1).modPort 0 fun p => { p with neighbors := [⟨k0.host, 5⟩] }

/-- Both DDR5 channels are trained with 16 GiB, and the pools are laid out. -/
def trained (d : Dev) : Dev :=
  (((d.set F.memStatusCh0Ready 1).set F.memStatusCh1Ready 1).set F.memStatusSizeGib 16).layPools

/-- A ball holds a role. -/
def ball (i role : Nat) (d : Dev) : Dev := d.set (F.pinGpioCfgRole.ix i) role


/-! ## Registers, sideband and balls -/

theorem meets_ReservedReadsZero : rowOf 0x000001 ≠ none ∧ rowOf 0xFFFFFF = none
    ∧ ((rowOf 0x000001).any fun r => r.fields.all fun f => !f.mask.getLsbD 15) = true := by decide
theorem meets_RegisterWriteWholeOrNot_refused :
    (at_ .idle).dev.pathUp .rrt = true ∧ (at_ .idle).dev.calm = true ∧ (at_ .idle).dev.mayWrite .rrt 0xFFFFFF 1 1 = false
      ∧ (at_ .idle).dev.mayWrite .rrt 0x040000 1 1 = false := by decide
/-- ITER_MAX of ECC.C1_CFG, which clamps at 4 and 16. -/
theorem meets_RegisterWriteWholeOrNot_taken :
    let s := at_ .maintenance
    s.dev.pathUp .rrt = true ∧ s.dev.calm = true ∧ s.dev.mayWrite .rrt 0x040000 0x1F 0x1F = true ∧ 0x040000 ∉ [0x0E0001, C.hptTxSeg]
      ∧ (s.dev.store 0x040000 0x1F 0x1F).writeActs 0x040000 0x1F 0x1F (s.dev.word 0x040000) = s.dev.store 0x040000 0x1F 0x1F := by decide +kernel
/-- The last bit of the last word of GLB.NOR_BUF. -/
theorem meets_PlainFieldTakesBits :
    let s := at_ .maintenance
    s.dev.pathUp .rrt = true ∧ s.dev.calm = true ∧ s.dev.mayWrite .rrt 0x7F 0xFFFFFFFF 0xFFFFFFFF = true
      ∧ ((rowOf 0x7F).any fun r => r.fields.any fun f => decide (f.acc = .rw) && (r.fields.all fun g => g.range.isNone)
          && decide (f.lo ≤ 31 ∧ 31 ≤ f.hi)) = true := by decide +kernel
theorem meets_PlainFieldTakesBits_noActs :
    (∀ w, crossClamp 0x7F w = w) ∧ ∀ (d : Dev) (was : Word), d.writeActs 0x7F 0xFFFFFFFF 0xFFFFFFFF was = d :=
  ⟨fun _ => rfl, fun _ _ => rfl⟩
/-- DONE of GLB.NOR_CTRL, and DONE of WCH.HFM_RX beside two fields of another kind. -/
theorem meets_ReadClears :
    let s := at_ .idle
    s.dev.pathUp .rrt = true ∧ s.dev.mayRead .rrt 0x000008 = true ∧ s.dev.mayRead .rrt 0x020041 = true
      ∧ ([0x000008, 0x020041].all fun a => (rowOf a).any fun r => r.fields.any fun f => decide (f.acc = .rc)
          && decide (f.lo ≤ f.hi) && decide (f.hi < 48)
          && r.fields.all fun g => decide (g = f) || g.acc != .rc || (decide (g.lo ≤ g.hi) && (decide (g.hi < f.lo) || decide (f.hi < g.lo))))
        = true := by decide +kernel
theorem meets_SidebandAndPortsTransact :
    let s := at_ .maintenance
    s.dev.glb.dev.hostUp = true ∧ s.dev.inReset = false ∧ s.dev.glb.straps.sbMode = false ∧ cobblerOnly 0 = false
      ∧ s.dev.pin.sbLost = false ∧ s.dev.calm = true ∧ (s.dev.writeReg .sideband 0x40 7 0xFF).isSome = true
      ∧ ((s.dev.writeReg .sideband 0x40 7 0xFF).all Dev.calm) = true ∧ s.dev.glb.dev ≠ .standby := by decide
theorem meets_BallsAndInterlocksAct_level :
    let s := at_ .maintenance
    s.dev.glb.dev ≠ .standby ∧ s.dev.inReset = false ∧ bitAt (s.dev.get F.pinStatusHiz) 15 = false
      ∧ bitAt (s.dev.get F.pinGpioInIn) 15 = !true ∧ s.dev.calm = true ∧ s.dev.get (F.pinGpioCfgRole.ix 14) = 0
      ∧ bitAt (s.dev.get F.pinStatusHiz) 14 = false := by decide
theorem meets_BallsAndInterlocksAct_window :
    bitAt ((at_ .idle fun d => d.openWindow 15).dev.get F.pinStatusHiz) 15 = true := by decide
theorem meets_BallsAndInterlocksAct_atRest (loader : Bool) :
    let s := at_ .idle fun d => ball 15 4 (ball 0 3 d)
    (s.dev.roleBall (if loader then 4 else 3)).isSome = true ∧ s.dev.glb.dev ≠ .standby ∧ s.dev.inReset = false ∧ s.dev.quiet = true
      ∧ s.dev.glb.interlock = 0 ∧ s.dev.tce.v = 0 ∧ s.dev.tce.a = 0 ∧ s.dev.glb.dev ≠ .streaming := by revert loader; decide
theorem meets_BallsAndInterlocksAct_moving (loader : Bool) :
    let s := at_ .loaded fun d => { ball 15 4 (ball 0 3 d) with tce := { d.tce with v := 1 } }
    (s.dev.roleBall (if loader then 4 else 3)).isSome = true ∧ s.dev.glb.dev ≠ .standby ∧ s.dev.inReset = false ∧ s.dev.quiet = true
      ∧ s.dev.glb.interlock = 0 ∧ s.dev.tce.v ≠ 0 ∧ s.dev.tce.reaction = 0 ∧ s.dev.tce.stopping = false
      ∧ s.dev.flag F.mdrStatusBrake = false := by revert loader; decide
theorem meets_HeadBallsPlaced : 255 < 256 ∧ 25 ∈ [3, 6, 9, 12, 13, 16, 19, 22, 25] ∧ 1 ≤ 64 := by decide
/-- The worked example of the chapter: channel 186, and DQS2 of subchannel B of DDR5 channel 1 with its row BU. -/
theorem test_balls :
    netAt 10 45 = .signal "WD" 0 186 false ∧ netAt 10 46 = .signal "WD" 0 186 true ∧ rowLetters[9]? = some "K"
      ∧ netAt 23 45 = .signal "RD" 0 186 false ∧ rowLetters[22]? = some "AD"
      ∧ netAt 54 62 = .signal "DQS" 3 2 false ∧ netAt 54 61 = .signal "DQS" 3 2 true ∧ rowLetters[53]? = some "BU"
      ∧ [60, 57, 59, 58, 40].map (netAt 54) = [.vss, .vss, .vddq, .vddq, .vcore] := by decide
theorem meets_RoleServedByLowest :
    let d := (at_ .idle fun d => ball 12 7 d).dev
    d.ballRole 15 = 7 ∧ d.roleBall 7 = some 12 := by decide

/-! ## Start-up, recovery and standby -/

/-- An attempt whose memories do not train: it counts the boot and fails. -/
def env0 : StartEnv := ⟨true, true, true, true, (true, true), (false, false), true⟩

/-- Both copies of the boot counter in FeRAM (R511): one at its highest value, the other one below. -/
def counted (d : Dev) : Dev :=
  let b := fun n => leBytes 4 n ++ leBytes 4 (crc32c (leBytes 4 n))
  d.putFeram 0x10000 (b 0xFFFFFFFF ++ b 0xFFFFFFFE)

theorem meets_BootCounterCounts :
    let d := counted Dev.reset
    d.glb.straps.testMode = 0 ∧ env0.pllLocks = true ∧ d.counterCopy 0 = some 0xFFFFFFFF ∧ d.counterCopy 1 = some 0xFFFFFFFE := by
  decide +kernel
theorem meets_AttemptEndsIdleOrRecovery_release :
    let s := State.reset
    s.dev.glb.porstLow = true ∧ s.dev.glb.thermalHold = false ∧ s.dev.glb.brownOut = false ∧ s.dev.glb.standbyHeld = false
      ∧ s.dev.hpt.conns = [] ∧ (⟨true, 15, true, 0⟩ : Straps).testMode = 0 := by decide
theorem meets_AttemptEndsIdleOrRecovery_rails :
    let s := at_ .standby fun d => { d with glb := { d.glb with waking := true } }
    s.dev.glb.dev = .standby ∧ s.dev.glb.waking = true ∧ s.dev.glb.straps.testMode = 0 := by decide
theorem meets_AttemptEndsIdleOrRecovery_brownOut :
    let s := at_ .startUp fun d => { d with glb := { d.glb with brownOut := true } }
    s.dev.glb.brownOut = true ∧ s.dev.glb.porstLow = false ∧ s.dev.glb.thermalHold = false ∧ s.dev.glb.standbyHeld = false
      ∧ s.dev.hpt.conns = [] ∧ s.dev.glb.straps.testMode = 0 := by decide
theorem meets_RecoveryRetriesAndSettings :
    let s := at_ .recovery
    s.dev.glb.dev = .recovery ∧ s.dev.glb.retryHeld = false ∧ s.dev.glb.straps.testMode = 0
      ∧ ({ env0 with pllLocks := false } : StartEnv).pllLocks = false ∧ s.dev.glb.norOp = none := by decide
theorem meets_RecoveryRetriesAndSettings_hold :
    let s := at_ .recovery fun d => { d with glb := { d.glb with retryHeld := true } }
    s.dev.glb.dev = .recovery ∧ s.dev.glb.retryHeld = true := by decide
theorem meets_ResetsLeaveNonvolatile :
    let s := at_ .streaming
    s.dev.glb.norOp = none ∧ s.dev.glb.dev ≠ .standby ∧ s.dev.glb.porstLow = false ∧ s.dev.glb.brownOut = false := by decide
theorem meets_StandbyAndWake_entry :
    let s := at_ .idle (ball 15 6)
    s.dev.glb.dev = .idle ∧ s.dev.glb.norOp = none ∧ (s.dev.roleBall 6).isSome = true ∧ s.dev.inReset = false := by decide
theorem meets_StandbyAndWake_wake :
    let s := at_ .standby fun d => { ball 12 2 (ball 13 5 d) with glb := { d.glb with wake := ⟨10, 1, true, true⟩ } }
    s.dev.glb.dev = .standby ∧ s.dev.glb.waking = false ∧ s.dev.glb.wake.wakePin = true ∧ (s.dev.roleBall 5).isSome = true
      ∧ s.dev.glb.wake.wakeCart = true ∧ s.dev.roleBall 2 = some 12 ∧ s.dev.glb.wake.wakeS ≠ 0 := by decide
theorem meets_NorOperations_starts :
    let s := at_ .maintenance
    s.dev.glb.dev = .maintenance ∧ s.dev.glb.norOp = none ∧ 0x1FFFF00 % 256 = 0 ∧ 0x1FF0000 % 65536 = 0
      ∧ s.dev.touchesRunning 0x1FFFF00 = false ∧ s.dev.touchesRunning 0x1FF0000 = false := by decide
theorem meets_NorOperations_done (op : Nat) :
    let s := at_ .maintenance fun d => { d with glb := { d.glb with norOp := some ⟨op, 0, []⟩ } }
    s.dev.glb.norOp = some ⟨op, 0, []⟩ := rfl
theorem meets_MeasurementsShown_modules :
    let s := at_ .loaded fun d => d.hfmWrite 7 1 15
    s.dev.glb.dev = .loaded ∧ s.dev.moduleOn 7 = true ∧ s.dev.moduleOn 0 = false := by decide
theorem meets_MeasurementsShown_cool :
    let s := at_ .idle
    let ts : List Int := [399, 399, 399, 399, 399, 399, 399, 399]
    ts.length = 8 ∧ ts[0]? = some 399 ∧ (ts.all fun u => decide (u ≤ 399)) = true ∧ s.dev.glb.dev ≠ .standby ∧ s.dev.inReset = false
      ∧ s.dev.calm = true ∧ 399 < (s.dev.get F.glbThermalTjWarn : Int) * 4 ∧ 399 < (s.dev.get F.glbThermalTjCrit : Int) * 4 := by decide
/-- The highest sensor is the last one. -/
theorem meets_MeasurementsShown_hot :
    let ts : List Int := [0, 0, 0, 0, 0, 0, 0, 500]
    ts.length = 8 ∧ ts[7]? = some 500 ∧ (ts.take 7).all (fun u => decide (u < 500)) = true := by decide
theorem meets_MeasurementsShown_rails :
    let s := at_ .recovery
    let mv : List (BitVec 16) := [727, 0, 0, 0, 0, 0, 0, 0]
    mv.length = 8 ∧ s.dev.glb.dev ≠ .standby ∧ s.dev.inReset = false ∧ s.dev.calm = true ∧ s.dev.glb.dev.hostUp = false
      ∧ mv[0]? = some 727 ∧ (727 : BitVec 16).toNat * 10 < 7275 := by decide

/-! ## Host ports -/

/-- A segment from the host to that connection, whole in itself. -/
def segOf (typ : Nat) (seq ack : Nat) (pay : List Byte) : Seg :=
  ⟨0, k0.host, 4000, 1, BitVec.ofNat 8 typ, true, true, false, [], 0, 77, 5, BitVec.ofNat 48 seq, BitVec.ofNat 48 ack, 64,
    BitVec.ofNat 16 pay.length, BitVec.ofNat 32 pay.length, 0, 100, 0, pay⟩

/-- A set-up request. -/
def syn0 : Seg := { segOf 1 1000 0 (leBytes 2 9000 ++ leBytes 6 0) with dstConn := 0xFFFF, epoch := 0 }

/-- The block with that connection on a linked port, changed by `g`. -/
def open_ (st : DevState) (g : Conn → Conn := id) (f : Dev → Dev := id) : State :=
  at_ st fun d => f { linked d with
    hpt := { (linked d).hpt with conns := [g k0], timers := [⟨0, none, 0, 1000000, 0, 0, 0, 1⟩] }
    cqm := { d.cqm with queues := [q0] } }

/-- A port of `st` with every priority enabled for pauses and all priorities paused. -/
def paused_ : State := at_ .idle fun d => (d.set F.hptPfcCfgPfcEn 0xFF).modPort 3 fun p => { p with paused := [7, 0] }

theorem meets_NeighborsAnswered :
    let s := at_ .idle
    s.dev.glb.dev.hostUp = true ∧ 3 < s.dev.hpt.ports.length ∧ s.dev.linkLocal 3 ∈ s.dev.addressesInUse 3 := by decide +kernel
theorem meets_NeighborsAnswered_echo :
    let s := at_ .idle
    s.dev.linkLocal 0 ∈ s.dev.addressesInUse 0 ++ s.dev.groups 0 ∧ (List.replicate 1280 (0 : Byte)).length ≤ 1280
      ∧ (0 : IPv6) ∉ s.dev.addressesInUse 0 ++ s.dev.groups 0 := by decide +kernel
theorem meets_PausesAndLinks_pauses :
    paused_.dev.glb.dev.hostUp = true ∧ 3 < paused_.dev.hpt.ports.length ∧ 7 < 8 ∧ bitAt (paused_.dev.get F.hptPfcCfgPfcEn) 7 = true
      ∧ (paused_.dev.port 3).storms.contains 7 = false ∧ (paused_.dev.port 3).paused.contains 7 = true
      ∧ DropCause.fcs ∉ [DropCause.fec, .hopLimit, .otherIcmp] ∧ DropCause.otherIcmp ∈ [DropCause.hopLimit, .otherIcmp] := by decide
theorem meets_PausesAndLinks_links :
    let s := at_ .idle fun d => (d.set (F.hptPortStatusLinkUp.ix 3) 1).modPort 3 fun p => { p with dadLocal := true }
    3 < 4 ∧ s.dev.hpt.ports.length = 4 ∧ s.dev.glb.dev.hostUp = true ∧ s.dev.portExists 3 = true
      ∧ s.dev.flag (F.hptPortStatusLinkUp.ix 3) = true ∧ (s.dev.port 3).dadLocal = true := by decide
theorem meets_PausesAndLinks_global :
    let s := at_ .idle fun d => (d.set (F.hptIpAddrEn.ix 12) 1).modPort 3 fun p => { p with dadGlobal := true }
    (s.dev.port 3).dadGlobal = true ∧ s.dev.flag (F.hptIpAddrEn.ix (4 * 3)) = true := by decide
theorem meets_ConnectionsFollow_syn :
    let s := at_ .idle linked
    s.dev.hears syn0 = true ∧ syn0.ver = 1 ∧ syn0.payLen.toNat = syn0.payload.length ∧ syn0.sack = [] ∧ s.dev.glb.standbyHeld = false
      ∧ syn0.typ = 1 ∧ syn0.dstConn = 0xFFFF ∧ 8 ≤ syn0.payload.length ∧ s.dev.calm = true
      ∧ (s.dev.hpt.conns.any fun k => k.host == syn0.src && k.hostId == syn0.srcConn.toNat) = false
      ∧ (s.dev.cqm.queues.any fun q => q.orphanOf syn0.src syn0.srcConn.toNat) = false
      ∧ ((List.range 64).find? fun i => !s.dev.hpt.conns.any fun k => k.id == i) = some 0 ∧ s.dev.ctrlOpen syn0.port syn0.src = true := by
  decide +kernel
theorem meets_ConnectionsFollow_ackOfSynAck :
    let g := segOf 3 1000 11 []
    let s := open_ .idle fun k => { k with st := .synRcvd }
    let k := { k0 with st := .synRcvd }
    s.dev.hears g = true ∧ g.ver = 1 ∧ g.payLen.toNat = g.payload.length ∧ g.sack = [] ∧ s.dev.glb.standbyHeld = false ∧ s.dev.hpt.conns = [k]
      ∧ k.id = g.dstConn.toNat ∧ k.epoch = g.epoch.toNat ∧ g.typ = 3 ∧ k.st = .synRcvd ∧ g.ack = k.sndUna + 1 := by decide

/-- A STATUS in flight on that connection. -/
def inFlight (k : Conn) : Conn :=
  { k with msgs := [⟨1, 0x11, 0, ⟨List.replicate 32 0, []⟩, 32, some 0, []⟩], cutIx := 1, rp := 1, sndNext := 11
           tx := [⟨10, 1, 0x11, 0, true, true, 32, 0, 32, 1, false, none⟩] }

theorem meets_ConnectionsFollow_ack :
    let g := segOf 3 1000 11 []
    let s := open_ .idle inFlight
    let k := inFlight k0
    s.dev.hears g = true ∧ g.ver = 1 ∧ g.payLen.toNat = g.payload.length ∧ g.sack = [] ∧ s.dev.glb.standbyHeld = false ∧ s.dev.hpt.conns = [k]
      ∧ k.id = g.dstConn.toNat ∧ k.epoch = g.epoch.toNat ∧ g.typ = 3 ∧ k.st = .established
      ∧ (k.tx.all fun x => decide (0 < x.sends) && x.typ != 4 && x.last) = true ∧ k.tx.length = 1
      ∧ (k.msgs.map fun m => (m.id, m.typ, m.status)) = [(1, 0x11, some 0)] ∧ (k.tx.map fun x => (x.msg, x.typ)) = [(1, 0x11)]
      ∧ g.ack = k.sndUna + 1 := by decide
theorem meets_ConnectionsFollow_fin :
    let g := segOf 4 1000 10 []
    let s := open_ .idle
    s.dev.hears g = true ∧ g.ver = 1 ∧ g.payLen.toNat = g.payload.length ∧ g.sack = [] ∧ s.dev.glb.standbyHeld = false ∧ s.dev.hpt.conns = [k0]
      ∧ k0.id = g.dstConn.toNat ∧ k0.epoch = g.epoch.toNat ∧ g.typ = 4 ∧ k0.st = .established ∧ k0.rcv = [] ∧ k0.tx = []
      ∧ g.seq = k0.rcvNext ∧ before48 g.seq k0.rcvEdge = true ∧ g.ack = k0.sndUna ∧ s.dev.frozen k0.queue = false := by decide
/-- An RST in SYN_RCVD as well as in ESTABLISHED. -/
theorem meets_ConnectionsFollow_rst :
    let g := segOf 5 1000 10 (leBytes 2 8)
    (open_ .idle).dev.hears g = true ∧ g.ver = 1 ∧ g.payLen.toNat = g.payload.length ∧ g.sack = [] ∧ g.typ = 5
      ∧ (open_ .idle).dev.hpt.conns = [k0] ∧ k0.id = g.dstConn.toNat ∧ k0.epoch = g.epoch.toNat := by decide

/-- An OPEN_STREAM of stream 3 as its CMD segment. -/
def cmdSeg : Seg := segOf 0x10 1000 10 (block 5 1 3 0 [])

theorem meets_MessagesHandedOver_command :
    let g := cmdSeg
    let s := open_ .idle
    let op := fieldAt g.payload 4 1
    let c : Cmd := ⟨s.dev.cqm.nextH, k0.queue, fieldAt g.payload 0 4, op, fieldAt g.payload 5 1 % 8, fieldAt g.payload 6 2, g.payload,
        fieldAt g.payload 12 4, [], .queued, s.dev.frozen k0.queue, true, false, false,
        if op = opRead ∨ op = opLocate then fieldAt g.payload 16 6 else 0⟩
    s.dev.hears g = true ∧ g.ver = 1 ∧ g.payLen.toNat = g.payload.length ∧ g.sack = [] ∧ s.dev.glb.standbyHeld = false ∧ s.dev.hpt.conns = [k0]
      ∧ k0.id = g.dstConn.toNat ∧ k0.epoch = g.epoch.toNat ∧ k0.st = .established ∧ k0.rcv = [] ∧ k0.tx = [] ∧ k0.grans = []
      ∧ g.seq = k0.rcvNext ∧ before48 g.seq k0.rcvEdge = true ∧ g.ack = k0.sndUna ∧ g.first = true ∧ g.last = true ∧ g.msgOff = 0
      ∧ g.msgLen.toNat = g.payload.length ∧ g.typ = 0x10 ∧ g.payload.length = 32 ∧ isDataOp op = true ∧ s.dev.glb.dev ≠ .maintenance
      ∧ s.dev.acceptCheck c k0.id 32 = none := by decide
/-- READ of GLB.STATE. -/
def mgmtRead0 : Seg := segOf 0x20 1000 10 (leBytes 2 9 ++ leBytes 1 1 ++ leBytes 1 1 ++ leBytes 3 1 ++ leBytes 1 0)
/-- WRITE of the first word of GLB.NOR_BUF. -/
def mgmtWrite0 : Seg :=
  segOf 0x20 1000 10 (leBytes 2 9 ++ leBytes 1 2 ++ leBytes 1 1 ++ leBytes 3 0x40 ++ leBytes 1 0 ++ leBytes 6 7 ++ leBytes 6 0xFF)

theorem meets_MessagesHandedOver_requests (st : DevState) (h : st = .idle ∨ st = .maintenance) :
    let s := open_ st
    ([mgmtRead0, mgmtWrite0].all fun g => s.dev.hears g && g.ver == 1 && g.payLen.toNat == g.payload.length && g.sack.isEmpty
      && k0.id == g.dstConn.toNat && k0.epoch == g.epoch.toNat && g.seq == k0.rcvNext && before48 g.seq k0.rcvEdge && g.ack == k0.sndUna
      && g.first && g.last && g.msgOff == 0 && g.msgLen.toNat == g.payload.length && g.typ == 0x20) = true
      ∧ s.dev.cobblerBusy = none ∧ s.dev.inReset = false ∧ mgmtRead0.payload.length = 8 ∧ cobblerOnly 1 = false
      ∧ mgmtWrite0.payload.length = 20 ∧ 0x40 ∉ [0x0E0001, C.hptRxSeg, C.hptTxSeg]
      ∧ s.dev.mayWrite .rrt 0x40 7 0xFF = decide (st = .maintenance) := by
  rcases h with rfl | rfl <;> decide
theorem meets_MessagesHandedOver_noActs (d : Dev) (was : Word) : d.writeActs 0x40 7 0xFF was = d := rfl
theorem meets_TimersAndSending_first :
    let s := open_ .idle fun k => { k with unacked := 1 }
    s.dev.hpt.timers.map Timers.id = [0] ∧ s.dev.glb.standbyHeld = false ∧ s.dev.ctrlOpen k0.port k0.host = true
      ∧ (s.dev.hpt.conns.map fun k => decide (0 < k.unacked)) = [true] ∧ (s.dev.hpt.timers.map Timers.probes) = [0] := by decide +kernel
theorem meets_TimersAndSending_keepaliveEnds :
    let s := open_ .idle id fun d => { d with hpt := { d.hpt with timers := [⟨0, none, 0, 1000000, 0, 0, 3, 3⟩] } }
    s.dev.hpt.conns = [k0] ∧ s.dev.ctrlOpen k0.port k0.host = true ∧ (s.dev.hpt.timers.map fun t => (t.probes, t.synTries)) = [(3, 3)] := by
  decide +kernel
/-- A STATUS that the peer's window does not admit. -/
def waits (k : Conn) : Conn := { k with msgs := [⟨1, 0x11, 0, ⟨List.replicate 32 0, []⟩, 32, some 0, []⟩], peerEdge := 10 }

theorem meets_TimersAndSending_probe :
    let s := open_ .idle waits
    let k := waits k0
    s.dev.hpt.conns = [k]
      ∧ (((k.fill (s.dev.maxPay k) (1024 - k.tx.length)).tx[k.rp]?).any fun x => x.sends == 0 && x.seq == k.peerEdge) = true := by decide +kernel
theorem meets_TimersAndSending_expiry :
    let s := open_ .idle inFlight
    let k := inFlight k0
    s.dev.hpt.conns = [k] ∧ k.tx.length = 1 ∧ (k.tx.all fun x => decide (0 < x.sends) && !x.sacked && s.dev.descOpen k x) = true
      ∧ s.dev.timersFrozen k = false ∧ s.dev.poison = [] ∧ 0 + 1 < s.dev.get F.hptRrtCfgRetryMax
      ∧ s.dev.get F.hptRrtCfgRetryMax ≤ 255 + 1 := by decide +kernel
theorem meets_TimersAndSending_lastAck :
    let s := open_ .idle fun k => { k with st := .closeWait }
    let k := { k0 with st := .closeWait }
    s.dev.hpt.conns = [k] ∧ k.st = .closeWait ∧ k.msgs = [] ∧ k.tx = [] ∧ (s.dev.cqm.cmds.any fun x => x.queue == k.queue) = false
      ∧ before48 k.sndNext k.peerEdge = true := by decide
theorem meets_TimersAndSending_control :
    let s := open_ .idle id fun d => { d with hpt := { d.hpt with ctrl := [(0, .seg (segOf 5 0 0 (leBytes 2 8)))] } }
    s.dev.hpt.ctrl = [(0, .seg (segOf 5 0 0 (leBytes 2 8)))] ∧ s.dev.ctrlOpen 0 (segOf 5 0 0 (leBytes 2 8)).src = true := by decide +kernel
theorem meets_TimersAndSending_segment :
    let s := open_ .idle fun k => { waits k with peerEdge := 11 }
    let k := { waits k0 with peerEdge := 11 }
    let k' := k.fill (s.dev.maxPay k) (1024 - k.tx.length)
    s.dev.hpt.ctrl = [] ∧ s.dev.hpt.conns = [k] ∧ k.st = .established ∧ s.dev.poison = []
      ∧ (k'.tx[k'.rp]?.any fun x => !x.sacked && s.dev.descOpen k' x) = true := by decide +kernel
theorem meets_TimersAndSending_orphan :
    let q := { q0 with conn := none, frozen := true }
    let s := at_ .idle fun d => { d with cqm := { d.cqm with queues := [q], cmds := [cmdOf opFlush .queued, { cmdOf opWrite .started with h := 1 }] } }
    s.dev.queue? q.id = some q ∧ q.conn = none ∧ s.dev.calm = true := by decide

/-! ## Commands and log -/

/-- The block with that command and connection. -/
def alone_ (st : DevState) (c : Cmd) (f : Dev → Dev := id) : State := at_ st fun d => f (with_ c d)

theorem meets_QueueServed_dispatch (urgent : Bool) :
    let c := { cmdOf opFlush .queued with cls := if urgent then 4 else 3 }
    let s := alone_ .loaded c
    s.dev.calm = true ∧ s.dev.pick = (some c, s.dev.pick.2) ∧ s.dev.glb.dev = .loaded := by revert urgent; decide +kernel
theorem meets_QueueServed_readLog :
    let c := { cmdOf opReadLog .accepted (leBytes 6 1 ++ leBytes 2 1) with counts := false }
    let s := alone_ .idle c fun d => (d.log (q0.entry 5 0 [])).log (q0.entry 5 0 [])
    s.dev.calm = true ∧ s.dev.alone c k0 q0 ∧ c.phase = .accepted ∧ c.opcode = opReadLog ∧ s.dev.flag F.glbCobblerRestarting = false := by
  decide
theorem meets_QueueServed_resume :
    let q := { q0 with frozen := true }
    let c := { cmdOf opResume .accepted with counts := false, h := 1 }
    let x := { cmdOf opFlush .queued with held := true }
    let s := fun (cs : List Cmd) => alone_ .loaded c fun d => { d with cqm := { d.cqm with queues := [q], cmds := cs } }
    (s [c]).dev.calm = true ∧ (s [c]).dev.cqm.cmds = [c] ∧ (s [c]).dev.cqm.queues = [q] ∧ q.id = c.queue ∧ q.conn = some k0.id
      ∧ q.frozen = true ∧ (s [c]).dev.hpt.conns = [k0] ∧ c.counts = false ∧ c.phase = .accepted ∧ c.opcode = opResume
      ∧ (s [c]).dev.flag F.glbCobblerRestarting = false ∧ (s [x, c]).dev.cqm.cmds = [x, c] ∧ x.queue = q.id ∧ x.phase = .queued ∧ x.h ≠ c.h
      ∧ bitAt (c.par 16 1) 0 = false := by decide

/-! ## Commands that stream, load, read and maintain -/

def loadEnv : LoadEnv := ⟨true, true, true, [], [], none, none, (0, 0), ⟨[], []⟩, .arrived⟩
/-- The enable groups are on and the reels turn, memory laid out. -/
def threaded (d : Dev) : Dev :=
  let d := trained d
  { (d.set F.mdrReelMode 2).set (F.mdrReelMode.ix 1) 2 with chan := { d.chan with groupsOn := 16 } }
/-- A cartridge is loaded. -/
def carted (d : Dev) : Dev := { d with cart := { d.cart with loaded := true } }

theorem meets_CartridgeComesAndGoes_loadBegins :
    let c := cmdOf opLoad .dispatched
    let s := alone_ .idle c
    s.dev.alone c k0 q0 ∧ s.dev.motionBar = none ∧ c.opcode = opLoad ∧ c.phase = .dispatched ∧ s.dev.cart.loaded = false
      ∧ loadEnv.present = true ∧ s.dev.flag F.glbCobblerRestarting = false ∧ s.dev.glb.dev ≠ .maintenance := by decide
theorem meets_CartridgeComesAndGoes_loadEnds :
    let c := cmdOf opLoad .started
    let s := alone_ .idle c threaded
    s.dev.alone c k0 q0 ∧ s.dev.motionBar = none ∧ c.opcode = opLoad ∧ c.phase = .started ∧ s.dev.flag F.glbCobblerRestarting = false
      ∧ 16 ≤ s.dev.chan.groupsOn ∧ s.dev.mdr.boot = [] ∧ 2 ≤ s.dev.reelMode 0 ∧ 2 ≤ s.dev.reelMode 1 ∧ loadEnv.motion = .arrived
      ∧ loadEnv.ztf1 = true ∧ loadEnv.setOk = true ∧ s.dev.cqm.waits = [] ∧ s.dev.glb.dev ≠ .maintenance ∧ s.dev.zoneBuffer = true
      ∧ s.dev.startsScan loadEnv = false := by decide +kernel
/-- A checkpoint that reserves 16 generations, and a data set of generation 5, of whose session nothing is recorded. -/
def unended : LoadEnv := { loadEnv with
  parts := [⟨0, 0, (⟨1, 1, 0, 1, 16, 0, 0, 0⟩ : CommitHead).bytes [], []⟩], scan := [⟨3600, 0, 1, 0, 0, 0, 0, 5, true, [], [], [], []⟩] }
theorem meets_CartridgeComesAndGoes_scans :
    let c := cmdOf opLoad .started
    let s := alone_ .idle c threaded
    s.dev.alone c k0 q0 ∧ s.dev.motionBar = none ∧ c.phase = .started ∧ s.dev.zoneBuffer = true ∧ 16 ≤ s.dev.chan.groupsOn ∧ s.dev.mdr.boot = []
      ∧ 2 ≤ s.dev.reelMode 0 ∧ 2 ≤ s.dev.reelMode 1 ∧ unended.motion = .arrived ∧ unended.ztf1 = true ∧ s.dev.startsScan unended = true
      ∧ s.dev.flag F.glbCobblerRestarting = false ∧ s.dev.glb.dev ≠ .maintenance := by decide +kernel
theorem meets_CartridgeComesAndGoes_unload :
    let c := cmdOf opUnload .dispatched
    let s := alone_ .loaded c carted
    s.dev.alone c k0 q0 ∧ s.dev.motionBar = none ∧ c.opcode = opUnload ∧ c.phase = .dispatched ∧ s.dev.cart.loaded = true
      ∧ s.dev.plc.session = none ∧ s.dev.glb.dev = .loaded ∧ s.dev.flag F.glbCobblerRestarting = false := by decide
theorem meets_CartridgeComesAndGoes_unloadEnds :
    let c := { cmdOf opUnload .started with counts := false }
    let s := alone_ .streaming c fun d => trained (carted d)
    s.dev.alone c k0 q0 ∧ s.dev.motionBar = none ∧ c.opcode = opUnload ∧ c.phase = .started ∧ s.dev.plc.session = none
      ∧ s.dev.plc.commits = [] ∧ s.dev.strm.reads = [] ∧ s.dev.flag F.glbCobblerRestarting = false ∧ s.dev.glb.dev ≠ .maintenance ∧ s.dev.zoneBuffer = true := by decide +kernel
theorem meets_CartridgeComesAndGoes_done (op : Nat) (h : op = opLoad ∨ op = opUnload) :
    let c := cmdOf op .dispatched
    let s := alone_ (if op = opLoad then .loaded else .idle) c (if op = opLoad then carted else id)
    s.dev.alone c k0 q0 ∧ s.dev.motionBar = none ∧ c.opcode = op ∧ c.phase = .dispatched ∧ s.dev.cart.loaded = decide (op = opLoad)
      ∧ s.dev.flag F.glbCobblerRestarting = false ∧ s.dev.glb.dev ≠ .maintenance := by
  rcases h with rfl | rfl <;> decide
theorem meets_CartridgeComesAndGoes_ejection (st : DevState) (h : st = .loaded ∨ st = .maintenance) :
    (at_ st carted).dev.quiet = true ∧ (at_ st carted).dev.cart.loaded = true ∧ (at_ st carted).dev.calm = true := by rcases h with rfl | rfl <;> decide

/-- Stream 3, open with context 7 and `n` bytes in its open click. -/
def ctx3 (n : Nat) : Ctx where
  id := 7
  stream := 3
  endCut := false
  chainSet := false
  chainOpt := 0
  affinity := 0
  nextRec := 4
  owner := 4
  recStart := true
  open_ := if n = 0 then [] else [⟨0, 0, n⟩]
  inLen := n
  ends := []
  urgent := false
  sinceReset := 0
  fresh := true
  chain := 7
  chainFrom := 4
  chainAt := none
  member := 0
  lastUse := 0
  onDie := true
  slot := []
  slotChain := 7
  spill := []
  histLen := 0
  spillAt := 0
  closing := false

/-- A loaded cartridge with that stream. -/
def streamed (n : Nat) (d : Dev) : Dev := { carted d with strm := { d.strm with ctxs := [ctx3 n] } }

theorem meets_StreamCommandsComplete_open :
    let c := cmdOf opOpen .dispatched
    let s := alone_ .loaded c carted
    s.dev.alone c k0 q0 ∧ c.phase = .dispatched ∧ s.dev.cart.loaded = true ∧ c.opcode = opOpen ∧ s.dev.ctx? c.stream = none
      ∧ s.dev.openStreams < s.dev.get F.plcCfgOpenMax ∧ s.dev.onDieCtxs < 256 := by decide
theorem meets_StreamCommandsComplete_close (n : Nat) (h : n = 0 ∨ n = 1) :
    let c := cmdOf opClose .dispatched
    let s := alone_ .loaded c (streamed n)
    s.dev.alone c k0 q0 ∧ c.phase = .dispatched ∧ s.dev.cart.loaded = true ∧ c.opcode = opClose ∧ s.dev.ctx? c.stream = some (ctx3 n)
      ∧ (s.dev.strm.ctxs.find? fun y => y.id == (ctx3 n).id) = some (ctx3 n) ∧ (ctx3 n).onDie = true ∧ s.dev.casMode = 0 := by
  rcases h with rfl | rfl <;> decide
/-- The longest record that still joins an empty open click. -/
theorem meets_StreamCommandsComplete_write :
    let c := cmdOf opWrite .dispatched [] 65531
    let x := ctx3 0
    let s := alone_ .loaded c (streamed 0)
    s.dev.alone c k0 q0 ∧ c.phase = .dispatched ∧ s.dev.cart.loaded = true ∧ c.opcode = opWrite ∧ s.dev.ctx? c.stream = some x
      ∧ (s.dev.strm.ctxs.find? fun y => y.id == x.id) = some x ∧ x.onDie = true ∧ s.dev.appendBar = none ∧ s.dev.noRoom c.dataLen = false
      ∧ 1 ≤ c.dataLen ∧ x.inLen + c.dataLen + 1 ≤ openBudget (x.ends.length + 1) ∧ x.endCut = false := by decide
theorem meets_FlushQueryAndContexts_flush (n : Nat) (h : n = 0 ∨ n = 1) :
    let c := cmdOf opFlush .dispatched
    let s := alone_ .loaded c (streamed n)
    s.dev.alone c k0 q0 ∧ c.phase = .dispatched ∧ s.dev.cart.loaded = true ∧ s.dev.cqm.waits = [] ∧ s.dev.plc.stopped = none
      ∧ s.dev.strm.clicks = [] ∧ s.dev.casMode = 0 ∧ c.opcode = opFlush ∧ s.dev.plc.session = none ∧ c.all = false
      ∧ s.dev.ctx? c.stream = some (ctx3 n) ∧ (s.dev.strm.ctxs.find? fun y => y.id == (ctx3 n).id) = some (ctx3 n)
      ∧ (s.dev.strm.ctxs.all fun x => x.inLen == 0) = decide (n = 0) := by rcases h with rfl | rfl <;> decide
theorem meets_FlushQueryAndContexts_query :
    let c := cmdOf opQuery .dispatched (leBytes 8 2 ++ leBytes 2 1)
    let s := alone_ .loaded c carted
    s.dev.alone c k0 q0 ∧ c.phase = .dispatched ∧ s.dev.cart.loaded = true ∧ s.dev.cqm.waits = [] ∧ s.dev.plc.stopped = none
      ∧ s.dev.strm.clicks = [] ∧ s.dev.casMode = 0 ∧ c.opcode = opQuery := by decide
theorem meets_FlushQueryAndContexts_idleCut :
    let s := at_ .loaded (streamed 1)
    s.dev.casMode = 0 ∧ s.dev.get F.cmpCfgIdleCut ≠ 0 ∧ s.dev.ctx? (3 : BitVec 16).toNat = some (ctx3 1)
      ∧ (s.dev.strm.ctxs.find? fun y => y.id == (ctx3 1).id) = some (ctx3 1) ∧ (ctx3 1).inLen ≠ 0 := by decide
/-- 256 contexts stand on the die, the first of them used least recently. -/
def fullDie (d : Dev) : Dev :=
  let d := trained (with_ { cmdOf opOpen .dispatched with stream := 999 } (carted d))
  { d with strm := { d.strm with ctxs := (List.range 256).map fun i => { ctx3 0 with id := i, stream := i + 3, lastUse := i } } }

theorem meets_FlushQueryAndContexts_spill :
    let s := at_ .loaded fullDie
    s.dev.casMode = 0 ∧ s.dev.lru = some { ctx3 0 with id := 0 } ∧ ({ ctx3 0 with id := 0 } : Ctx).stream = (3 : BitVec 16).toNat
      ∧ 256 ≤ s.dev.onDieCtxs ∧ s.dev.ctxWanted = true ∧ 4 ≤ s.dev.poolFree 4 := by decide +kernel
theorem meets_FlushQueryAndContexts_restore :
    let x := { ctx3 0 with onDie := false }
    let s := alone_ .loaded (cmdOf opWrite .dispatched) fun d => { streamed 0 d with strm := { d.strm with ctxs := [x] } }
    s.dev.casMode = 0 ∧ s.dev.ctx? (3 : BitVec 16).toNat = some x ∧ x.onDie = false ∧ s.dev.onDieCtxs < 256
      ∧ (s.dev.cqm.cmds.any fun c => c.oneStream && c.stream == (3 : BitVec 16).toNat && c.phase == .dispatched) = true := by decide

/-- A cut click of stream 3 in which record 4 begins and ends, held in a granule of P0, its chain's first. -/
def click3 (at_ : ClickAt) (coded : List Byte) : Click where
  id := 1
  ctx := 7
  stream := 3
  chain := 7
  reset := true
  record := 4
  recStart := true
  spans := [⟨0, 0, 1⟩]
  inLen := 1
  ends := [0]
  cutFlush := false
  urgent := false
  affinity := 0
  member := 0
  at_ := at_
  input := [9]
  raw := true
  coded := coded
  sent := 0
  pieces := []
  redo := []
  source := none
  remote := none

/-- A cartridge, memory, and that click among the clicks. -/
def clicked (c : Click) (d : Dev) : Dev := { trained (carted d) with strm := { d.strm with clicks := [c] } }

theorem meets_RecordsReadAndLocated_buffers :
    let c := cmdOf opRead .dispatched (leBytes 6 4)
    let s := alone_ .loaded c (clicked (click3 .staged []))
    s.dev.alone c k0 q0 ∧ c.phase = .dispatched ∧ s.dev.cart.loaded = true ∧ s.dev.cutFor c.stream 4 = s.dev ∧ BitVec.ofNat 48 (c.par 16 6) = 4
      ∧ c.opcode = opRead ∧ s.dev.strm.reads = [] ∧ s.dev.bufferRecord c.stream 4 = some [9] ∧ (s.dev.takeOutput 1).1.isSome = true := by
  decide +kernel

/-- A group of wrap 1 with record 4 of stream 3 in the first entry of its data set 59. -/
def group3 : GroupEntry := ⟨0, 1, 0, 1, 0, 936719, 936657, 1, 60, false, false, 59, [⟨3, 0, 4⟩], [⟨3, 59, 0, 4⟩], []⟩
/-- An index with that group. -/
def indexed (d : Dev) : Dev := { carted d with plc := { d.plc with index := { d.plc.index with groups := [group3] } } }

theorem meets_RecordsReadAndLocated_tape (op : Nat) (h : op = opRead ∨ op = opLocate) :
    let c := cmdOf op .dispatched (leBytes 6 4)
    let s := alone_ .loaded c indexed
    s.dev.alone c k0 q0 ∧ c.phase = .dispatched ∧ s.dev.cart.loaded = true ∧ s.dev.cutFor c.stream 4 = s.dev ∧ BitVec.ofNat 48 (c.par 16 6) = 4
      ∧ c.opcode = op ∧ s.dev.strm.reads = [] ∧ s.dev.bufferRecord c.stream 4 = none ∧ s.dev.chainInBuffers c.stream 4 = none
      ∧ s.dev.findRecord c.stream 4 false = some (group3, ⟨3, 59, 0, 4⟩, [group3]) ∧ s.dev.plc.session = none ∧ s.dev.motionBar = none
      ∧ s.dev.casMode = 0 ∧ s.dev.tce.target.isPlace = false ∧ s.dev.mayMove = true
      ∧ (s.dev.readPlan c.stream 4 false).isSome = true := by
  rcases h with rfl | rfl <;> decide +kernel
theorem meets_RecordsReadAndLocated_arrival :
    let c := cmdOf opLocate .dispatched (leBytes 6 4)
    let s := alone_ .loaded c fun d => { indexed d with tce := { d.tce with target := .place 0 100 0 } }
    let rev := wrapReverse group3.wrap
    let place := readStart rev (slotAfter rev group3.firstSlot 59) / 512 + (if rev then 300 else -300)
    s.dev.alone c k0 q0 ∧ c.phase = .dispatched ∧ s.dev.cart.loaded = true ∧ s.dev.cutFor c.stream 4 = s.dev
      ∧ s.dev.chainInBuffers c.stream 4 = none ∧ s.dev.findRecord c.stream 4 false = some (group3, ⟨3, 59, 0, 4⟩, [group3])
      ∧ s.dev.plc.session = none ∧ s.dev.tce.target.isPlace = true ∧ s.dev.motionBar = none ∧ s.dev.tce.held = none
      ∧ place.natAbs < 2 ^ 38 := by decide +kernel
/-- A LOCATE of a record whose chain is placed in a data set in flight. -/
theorem meets_RecordsReadAndLocated_placed :
    let c := cmdOf opLocate .dispatched (leBytes 6 4)
    let x : DSet := ⟨5, 1, false, 0, 1, 0, 0, 0, 0, 0, 0, 1, 0, 3600, 0, [1], none, false, false, false, [Copy.at 3600 0 .closed]⟩
    let k := { click3 .placed [9] with pieces := [⟨5, 0, 0, 1, true, true⟩] }
    let s := alone_ .loaded c fun d => { clicked k d with plc := { d.plc with dsets := [x] } }
    s.dev.alone c k0 q0 ∧ c.phase = .dispatched ∧ s.dev.cart.loaded = true ∧ s.dev.cutFor c.stream 4 = s.dev ∧ c.opcode = opLocate
      ∧ s.dev.chainInBuffers c.stream 4 = some (some (3600, 0)) := by decide +kernel

/-- The block in maintenance with an accepted command of an operation. -/
def maint_ (c : Cmd) (f : Dev → Dev := id) : State := alone_ .maintenance c f

def calFound : CalFound := ⟨[], [(true, 5), (false, 0xFFFFFFFF)], [], 256⟩

theorem meets_CalibrationAndNvmComplete_store (no : Bool) :
    let c := cmdOf opCalibrate .accepted [0, if no then 1 else 0]
    (maint_ c).maintains c k0 q0 opCalibrate 0 ∧ calFound.lateral = [(true, 5), (false, 0xFFFFFFFF)] := by revert no; decide
theorem meets_CalibrationAndNvmComplete_runs (sub : Nat) (h : sub = 1 ∨ sub = 2) :
    let c := cmdOf opCalibrate .accepted [BitVec.ofNat 8 sub, 1, 0xA5]
    let s := maint_ c carted
    s.maintains c k0 q0 opCalibrate sub ∧ bitAt (c.par 17 1) 0 = true ∧ s.dev.cart.loaded = true ∧ s.dev.motionBar = none
      ∧ s.dev.plc.index.groups = [] ∧ c.par 18 1 = 0xA5 := by rcases h with rfl | rfl <;> decide
theorem meets_CalibrationAndNvmComplete_invalidate :
    let c := cmdOf opCalibrate .accepted [3, 0, 0xA5]
    (maint_ c).maintains c k0 q0 opCalibrate 3 ∧ c.par 18 1 = 0xA5 := by decide
theorem meets_CalibrationAndNvmComplete_read :
    let c := cmdOf opNvm .accepted ([0, 1, 0, 0] ++ leBytes 4 0xFFFFFF ++ leBytes 4 1)
    (maint_ c).maintains c k0 q0 opNvm 0 ∧ c.par 17 1 < 2 ∧ c.par 20 4 + c.par 24 4 ≤ 0x1000000 := by decide
theorem meets_CalibrationAndNvmComplete_write :
    let c := { cmdOf opNvm .accepted ([1, 1, 0, 0] ++ leBytes 4 0xFF0000) 2 with data := [0] }
    let s := maint_ c trained
    s.maintains c k0 q0 opNvm 1 ∧ c.par 17 1 < 2 ∧ s.dev.runningSlot (c.par 17 1) = false ∧ c.par 20 4 % 65536 = 0
      ∧ s.dev.dataBytes c ≠ [] ∧ c.par 20 4 + (s.dev.dataBytes c).length ≤ 0x1000000 := by decide +kernel
theorem meets_CalibrationAndNvmComplete_slots (sub : Nat) (h : sub = 2 ∨ sub = 3 ∨ sub = 4) :
    let c := cmdOf opNvm .accepted [BitVec.ofNat 8 sub, 1]
    (maint_ c).maintains c k0 q0 opNvm sub ∧ (maint_ c).dev.runningSlot (c.par 17 1) = false := by rcases h with rfl | rfl | rfl <;> decide

theorem meets_MaintenanceEnds (sub : Nat) (h : sub < 3) :
    let c := cmdOf opRestart .accepted [BitVec.ofNat 8 sub, 0xA5]
    let s := maint_ c
    s.maintains c k0 q0 opRestart sub ∧ s.dev.glb.beforeMaint = .idle ∧ s.dev.cart.loaded = false ∧ c.par 17 1 = 0xA5
      ∧ s.dev.glb.straps.testMode = 0 ∧ s.dev.glb.norOp = none := by
  rcases sub with _ | _ | _ | n
  · decide
  · decide
  · decide
  · omega
theorem meets_MaintenanceEnds_waits :
    let c := cmdOf opRestart .started [1]
    let s := maint_ c fun d => d.set F.glbCobblerRestarting 1
    s.dev.alone c k0 q0 ∧ c.opcode = opRestart ∧ c.phase = .started ∧ s.dev.flag F.glbCobblerRestarting = true := by decide
/-- Three restarts within a minute are allowed: two have been. -/
theorem meets_WatchdogAndKick :
    let s := at_ .streaming fun d => { d.set F.glbCobblerRestarts 0xFFFE with glb := { d.glb with wdogTimes := [0, 0] } }
    s.dev.glb.dev.hostUp = true ∧ s.dev.inReset = false ∧ s.dev.flag F.glbCobblerRestarting = false ∧ s.dev.glb.wdogTimes.length < 3
      ∧ s.dev.calm = true ∧ s.dev.get F.glbCobblerRestarts < 0xFFFF := by decide
theorem meets_SnapshotTaken_armed :
    let c := cmdOf opSnapshot .accepted ([1, 0, 9, 0] ++ leBytes 6 1)
    let s := alone_ .idle c fun d => { d with cnt := { d.cnt with armed := List.replicate 3 ⟨0, false, 0⟩ } }
    s.dev.alone c k0 q0 ∧ c.phase = .accepted ∧ c.held = false ∧ c.opcode = opSnapshot ∧ c.par 16 1 = 1 ∧ s.dev.cnt.armed.length < 4
      ∧ s.dev.flag F.glbCobblerRestarting = false
      ∧ before48 (BitVec.ofNat 48 s.dev.time) (BitVec.ofNat 48 (c.par 20 6)) = true := by decide
theorem meets_SnapshotTaken_fires :
    let a : Armed := ⟨9, true, 0⟩
    let s := at_ .idle fun d => { d with cnt := { d.cnt with armed := [a], banks := [[⟨[], [], none⟩]] } }
    s.dev.cnt.armed = [a] ∧ a.time = true ∧ atOrBefore48 a.target (BitVec.ofNat 48 s.dev.time) = true ∧ s.dev.cnt.banks.length < 2 := by
  decide
theorem meets_SnapshotTaken_readout :
    let s := at_ .idle fun d => { trained d with cnt := { d.cnt with banks := [[⟨[0, 0, 0, 0, 0], [], none⟩], []] } }
    s.dev.cnt.banks = [⟨[0, 0, 0, 0, 0], [], none⟩] :: [[]] ∧ s.dev.flag F.glbCobblerRestarting = false
      ∧ (s.dev.allocate 4 ownDma ownDma).1.isSome = true := by decide +kernel

/-! ## The write path -/

/-- Clicks in the engines: engine 15 free, memory laid out. -/
def coded_ (c : Click) (f : Dev → Dev := id) : State := at_ .streaming fun d => f (clicked c d)

theorem meets_EnginesCode_start :
    let c := click3 .cut []
    let s := coded_ c
    s.dev.calm = true ∧ 15 < s.dev.strm.engines.length ∧ s.dev.engineFree 15 = true ∧ s.dev.readMode = false
      ∧ (s.dev.engine 15).outs.length < 2 ∧ s.dev.level 1 < 3 ∧ s.dev.nextClick 15 = some c ∧ s.dev.poison = [] := by decide +kernel
theorem meets_EnginesCode_coded :
    let c := click3 (.coding 15) []
    let s := coded_ c fun d => d.modEngine 15 fun g => { g with bound := some (3, 7), job := .code 1 }
    s.dev.calm = true ∧ 15 < s.dev.strm.engines.length ∧ (s.dev.engine 15).job = .code 1 ∧ s.dev.click? 1 = some c ∧ c.remote = none
      ∧ (s.dev.strm.ctxs.all fun x => x.id != c.ctx || x.onDie) = true := by
  decide +kernel

/-- A whole raw click of stream 3 with the bytes of record 4, as the tape holds it. -/
def rawClick (bad : Bool) : List Byte :=
  let h : ClickHead := ⟨3, 3, 7, true, true, true, true, false⟩
  let b := h.bytes [7, 8, 9] ++ endList [2] ++ [7, 8, 9]
  if bad then b.dropLast ++ [10] else b

/-- A read of record 4 of stream 3 whose click is there. -/
def read3 (bytes : List Byte) : Read :=
  ⟨0, 3, 4, [], [⟨3, 4, bytes, true, ⟨3600, 0, 0, 1⟩, 0, none⟩], 1, 0, [], [0x03000000], false, false⟩

/-- That read, its command begun. -/
def reading (r : Read) (f : Dev → Dev := id) : State :=
  alone_ .streaming (cmdOf opRead .started (leBytes 6 4)) fun d =>
    f { trained (carted d) with strm := { d.strm with reads := [r] } }

theorem meets_EnginesCode_decodeStart :
    let r := read3 (rawClick false)
    let s := reading r
    s.dev.calm = true ∧ 0 < s.dev.strm.engines.length ∧ s.dev.engineFree 0 = true ∧ s.dev.readMode = true ∧ s.dev.mayLeave 0 = true
      ∧ s.dev.nextDecode 0 = some (0, 0)
      ∧ (s.dev.strm.reads.find? fun r => r.h == 0) = some r
      ∧ (s.dev.gathered r).1.length + 65536 * (1 + s.dev.decodingOf 0) ≤ p3Bytes * r.out.length := by decide +kernel
/-- The decompression of that click runs on engine 0. -/
def decoding (bytes : List Byte) : State := reading (read3 bytes) fun d => d.modEngine 0 fun g => { g with job := .decode 0 0 }

theorem meets_EnginesCode_decoded :
    let r := read3 (rawClick false)
    let c := cmdOf opRead .started (leBytes 6 4)
    let s := decoding (rawClick false)
    (s.dev.engine 0).job = .decode 0 0 ∧ (s.dev.strm.reads.find? fun r => r.h == 0) = some r
      ∧ decodeClick 3 (r.histOf 0) (rawClick false) = .input [7, 8, 9] [2] ∧ s.dev.alone c k0 q0 ∧ c.h = 0 ∧ c.opcode = opRead
      ∧ c.phase = .started ∧ s.dev.strm.reads = [r]
      ∧ gather (s.dev.get F.cmpCfgRatioMax) r.record (modAt (fun y => { y with out := some ([7, 8, 9], [2]) }) r.clicks 0) [] 0
        = ([7, 8, 9], true, false) := by decide +kernel
theorem meets_EnginesCode_refused :
    let s := decoding (rawClick true)
    let g := decoding [1, 2, 3]
    (s.dev.engine 0).job = .decode 0 0 ∧ decodeClick 3 ((read3 (rawClick true)).histOf 0) (rawClick true) = .crc
      ∧ (g.dev.engine 0).job = .decode 0 0 ∧ decodeClick 3 ((read3 [1, 2, 3]).histOf 0) [1, 2, 3] = .guard := by decide +kernel

/-- A session of generation 1 at the first slot of wrap `w`, in its direction. -/
def session_ (w : Nat) : Session where
  generation := 1
  firstWrap := w
  startSlot := if w % 2 = 0 then 3600 else 936719
  place := ⟨w, 0, 0, 1, if w % 2 = 0 then 3600 else 936719⟩
  dsSeq := 0
  group := 0
  index := 0
  count := 0
  noParity := false
  groupFirst := 0
  groups := 0
  lastGroup := none
  dataSets := 0
  ending := false
  closing := false
  endCommit := 0
  heel := none
  lastUsed := none
  affMember := []
  lost := false
  owedGaps := 0
  atEnd := false

/-- The tape runs at 1.00 m/s, position locked, `n` eyelets before slot 3600 or 936719. -/
def running_ (rev : Bool) (n : Nat) (d : Dev) : Dev :=
  let d := { d with tce := { d.tce with v := if rev then -1000000000000 else 1000000000000 }, pos := { d.pos with mode := .locked } }
  (d.set F.posStatusDir (b2n rev)).setTpos (if rev then slotStart true 936719 + 512 * n else slotStart false 3600 - 512 * n)

/-- An open session on the running tape, memory laid out. -/
def appending (z : Session) (n : Nat) (f : Dev → Dev := id) : State := at_ .streaming fun d =>
  let d := (running_ (wrapReverse z.place.wrap) n (trained (carted d))).set F.plcGenCeilGenCeil 16
  f { d with plc := { d.plc with session := some z } }

/-- What R15, R85, R243 and R392 ask before a data set may close. -/
def mayClose (z : Session) (s : State) : Bool :=
  s.dev.calm && (s.dev.strm.clicks.all fun c => c.at_ == .cut || c.at_ == .staged || c.at_ == .placed) && !s.dev.plc.hold
    && !s.dev.plc.holdDone && s.dev.plc.stopped.isNone && s.dev.pos.mode == .locked && s.dev.writeOk && s.dev.casMode == 0
    && !s.dev.flag F.glbCobblerRestarting && decide (z.generation ≠ 0) && !z.atEnd && decide (z.owedGaps = 0)
    && s.dev.reverse == wrapReverse z.place.wrap && s.dev.clearTo (placeBefore (wrapReverse z.place.wrap) z.place.slot 300) && z.heel.isNone && !z.closing && decide (z.index < 59)
    && z.place.width == 1 && s.dev.pos.regapFrom.isNone && s.dev.plc.pendingCopies.isEmpty && s.dev.plc.again.isEmpty
    && decide (11 < slotsLeft z.place.wrap z.place.slot) && decide (s.dev.pos.entries.length < 64)

/-- One click staged, and another one cut for which a FLUSH waits: the data set takes the first without closing its group. -/
def flushing (d : Dev) : Dev :=
  let a := click3 .staged [1, 2, 3]
  let b := { click3 .cut [] with id := 2, stream := 4, ctx := 8, chain := 8 }
  { d with strm := { d.strm with clicks := [a, b] }, plc := { d.plc with staged := [0x01000000] }
           cqm := { d.cqm with waits := [⟨9, [], [2], 0, 0⟩] } }

theorem meets_DataSetCloses_closes (w : Nat) (h : w = 0 ∨ w = 1) :
    let z := session_ w
    let s := appending z 300 flushing
    let e : Entry := ⟨slotStart (wrapReverse w) z.place.slot, wrapReverse w, .dsStart z.place.slot⟩
    s.dev.plc.session = some z ∧ mayClose z s = true
      ∧ 1024 ≤ (if wrapReverse w then s.dev.tpos - e.target else e.target - s.dev.tpos)
      ∧ ((s.dev.wouldClose { z with groupFirst := z.place.slot } s.dev.unplaced).any fun x => x.fills.length == 1 && !x.last && !x.covered) = true
      ∧ s.dev.plc.staged = [0x01000000] := by rcases h with rfl | rfl <;> decide +kernel
theorem meets_DataSetCloses_holds :
    let z := session_ 0
    let s := appending z 300
    s.dev.plc.session = some z ∧ mayClose z s = true ∧ 1024 ≤ slotStart false 3600 - s.dev.tpos
      ∧ s.dev.wouldClose { z with groupFirst := z.place.slot } s.dev.unplaced = none := by decide +kernel

/-- The bytes that 1.20 m/s just takes in a window of 10 ms have left the engines, and before it more. -/
def rated (tgt : Nat) : State := appending (session_ 0) 2 fun d =>
  let d := (((d.set F.plcSpeedCfgBlLo 0).set F.plcSpeedCfgWindow 10).set F.plcStatusSpeedTgt tgt).set F.posTimeTime 10000001
  { d with plc := { d.plc with sinceSpeed := 16, coded := [(0, 1000000), (1, 76800 * 10 * 24)] } }

theorem meets_AppendingStopsAndGoesOn_speed (tgt : Nat) (h : tgt = 22 ∨ tgt = 24) :
    let s := rated tgt
    s.dev.get F.plcSpeedCfgBlLo ≤ s.dev.backlog ∧ s.dev.backlog ≤ s.dev.get F.plcSpeedCfgBlHi ∧ s.dev.get F.plcSpeedCfgWindow ≠ 0
      ∧ s.dev.matchedSpeed 0 = 24 ∧ s.dev.get F.plcStatusSpeedTgt = tgt ∧ 16 ≤ s.dev.plc.sinceSpeed ∧ s.dev.plc.holdDone = false
      ∧ s.dev.tce.reaction = 0 ∧ s.dev.tce.target.isPlace = false := by rcases h with rfl | rfl <;> decide +kernel
theorem meets_AppendingStopsAndGoesOn_idle :
    let s := appending (session_ 0) 2
    s.dev.plc.session = some (session_ 0) ∧ s.dev.get F.plcCfgSessionIdle ≠ 0 ∧ s.dev.strm.clicks = []
      ∧ (s.dev.strm.ctxs.all fun x => x.inLen == 0) = true
      ∧ (s.dev.cqm.cmds.any fun c => c.opcode == opWrite && (c.phase == .queued || c.phase == .dispatched)) = false := by decide +kernel
/-- At rest in a hold of a cause, 20 slots written. -/
def held (w cause : Nat) : State :=
  let z := { session_ w with lastUsed := some (slotAfter (wrapReverse w) (session_ w).place.slot 20) }
  at_ .loaded fun d => { trained (carted d) with plc := { d.plc with session := some z, hold := true, holdDone := true, holdCause := cause } }

theorem meets_AppendingStopsAndGoesOn_resumes (w cause : Nat) (h : w = 0 ∨ w = 1) (hc : cause = 3 ∨ cause = 4) :
    let s := held w cause
    s.dev.plc.session.isSome = true ∧ s.dev.plc.hold = true ∧ s.dev.plc.holdDone = true ∧ s.dev.plc.stopped = none ∧ s.dev.mayMove = true
      ∧ s.dev.flag F.glbCobblerRestarting = false ∧ (cause = 3 → s.dev.stageAll.mayResume = true) ∧ s.dev.tce.v = 0 ∧ s.dev.tce.a = 0 ∧ s.dev.calm = true := by
  rcases h with rfl | rfl <;> rcases hc with rfl | rfl <;> decide +kernel

/-- A data set in slot 3600 of a session's wrap 0. -/
def dset_ (typ index : Nat) (st : Step) : DSet :=
  ⟨5, typ, false, 0, 1, 0, 0, 0, 0, index, 0, 1, 0, 3600, 0x01000000, [], none, false, false, false, [Copy.at 3600 0 st]⟩

/-- With that data set in flight. -/
def withDset (x : DSet) (d : Dev) : Dev := { d with plc := { d.plc with dsets := [x] } }
/-- With a start armed for slot 3600. -/
def armed3600 (d : Dev) : Dev := { d with pos := { d.pos with entries := [⟨slotStart false 3600, false, .dsStart 3600⟩] } }

/-- The data set's buffer in its pool, with these owners. -/
def owned_ (o : Nat) (d : Dev) : Dev := { d with pools := modAt (fun (q : Pool) => q.setBuf 4096 ⟨1, o⟩) d.pools 0 }

theorem meets_FoldsMarksAndStarts_folds (typ : Nat) (h : typ = 1 ∨ typ = 2) :
    let x := dset_ typ (if typ = 1 then 59 else 63) .closed
    let s := appending (session_ 0) 2 fun d => owned_ 68 (withDset x d)
    (s.dev.query x.handle = some ⟨1, 68⟩ ∧ bitAt 68 ownC3 = true) ∧ s.dev.calm = true ∧ s.dev.nextFold = some x ∧ s.dev.poison = [] ∧ x.typ = typ := by rcases h with rfl | rfl <;> decide +kernel
/-- Channel 0 and channel 255 are fitted and enabled. -/
def twoChannels (d : Dev) : Dev :=
  ((List.range 8).foldl (fun (d : Dev) i => d.set (F.wchChEnEn.ix i) 0) { d with chan := { d.chan with groupsOn := 16 } }
    |>.set (F.wchChEnEn.ix 0) 1).set (F.wchChEnEn.ix 7) 0x80000000

theorem meets_FoldsMarksAndStarts_marks :
    let x := dset_ 1 0 .folded
    let s := appending (session_ 0) 2 fun d => owned_ 64 (twoChannels (armed3600 (withDset x d)))
    (s.dev.query x.handle = some ⟨1, 64⟩ ∧ bitAt 64 ownLast = true ∧ x.copies.length = 1 ∧ s.dev.glb.dev.running = true) ∧ s.dev.calm = true ∧ s.dev.markNext = some (3600, x) ∧ s.dev.poison = [] ∧ s.dev.channelsOn = [0, 255]
      ∧ s.dev.clearTo (placeBefore s.dev.reverse 3600 150) = true := by decide +kernel
theorem meets_FoldsMarksAndStarts_starts :
    let e : Entry := ⟨slotStart false 3600, false, .dsStart 3600⟩
    let x := dset_ 1 0 .marked
    let s := appending (session_ 0) 2 fun d => twoChannels (armed3600 (withDset x d))
    s.dev.plc.session = some (session_ 0) ∧ s.dev.pos.regapFrom = none ∧ s.dev.nextEntries Entry.isStart = [e] ∧ s.dev.pos.mode = .locked
      ∧ s.dev.occupant 3600 = some x ∧ x.last? = some (Copy.at 3600 0 .marked) ∧ s.dev.poison = [] := by decide +kernel
theorem meets_FoldsMarksAndStarts_gap (m : PosMode) (h : m = .locked ∨ m = .count ∨ m = .acquire ∨ m = .uncertain) :
    let e : Entry := ⟨slotStart false 3600, false, .dsStart 3600⟩
    let s := appending (session_ 0) 2 fun d => { armed3600 d with pos := { (armed3600 d).pos with mode := m } }
    s.dev.plc.session = some (session_ 0) ∧ s.dev.pos.regapFrom = none ∧ s.dev.nextEntries Entry.isStart = [e] ∧ s.dev.pos.mode = m
      ∧ s.dev.occupant 3600 = none := by rcases h with rfl | rfl | rfl | rfl <;> decide +kernel

/-- A commit of one group, one stream and the session, verified. -/
def commit_ : Commit := ⟨1, 5, true, false, [group3], [⟨3, true, false, 0, 5, 0⟩], ⟨1, 0, 0, 0, 3600, 0, 1⟩⟩

theorem meets_CommitsAndTurns_merges :
    let s := at_ .loaded fun d => { carted d with plc := { d.plc with commits := [commit_] } }
    let es := commit_.group.flatMap GroupEntry.entries ++ commit_.streams.map StreamEntry.bytes ++ [commit_.session.bytes]
    s.dev.calm = true ∧ s.dev.flag F.glbCobblerRestarting = false ∧ s.dev.plc.commits = [commit_] ∧ commit_.verified = true
      ∧ commit_.merged = false ∧ s.dev.isMember = false ∧ s.dev.plc.session = none ∧ s.dev.plc.stopped = none ∧ s.dev.cqm.waits = []
      ∧ entriesLength (s.dev.plc.index.merge (es.map fun e => (fieldAt e 0 2, e))).entries ≤ 3185049600 := by decide +kernel
theorem meets_CommitsAndTurns_zone :
    let z := { session_ 0 with generation := 0 }
    let s := appending z 2 fun d => d.set F.plcGenCeilGenCeil 0
    s.dev.calm = true ∧ s.dev.flag F.glbCobblerRestarting = false ∧ s.dev.cart.loaded = true ∧ s.dev.cart.readOnly = false
      ∧ s.dev.needsReserve = true ∧ s.dev.plc.session = some z ∧ s.dev.zoneBuffer = true
      ∧ s.dev.deadTracks.length ≤ min 16 (min (s.dev.get F.vfyCfgBadMax) (s.dev.get F.vfyCfgMarginMax)) ∧ (cutParts (s.dev.plc.index.merge []).entries [] 0).length ≤ 1800 ∧ s.dev.plc.zone.1 = ⟨0, 0, true⟩ := by
  decide +kernel
/-- The last lane of band 0, and the last one of the cartridge. -/
theorem meets_CommitsAndTurns_turns (band : Nat) (h : band = 0 ∨ band = 3) :
    let z := { session_ 0 with place := ⟨0, band, 37, 1, 936720⟩ }
    let s := appending z 2
    s.dev.calm = true ∧ s.dev.plc.session = some z ∧ wrapReverse z.place.wrap = false ∧ slotsLeft z.place.wrap z.place.slot ≤ 0
      ∧ s.dev.writtenUndecided = false ∧ s.dev.plc.stopped = none ∧ s.dev.plc.pendingCopies = [] ∧ s.dev.plc.again = [] ∧ z.heel = none
      ∧ s.dev.leaveWaits = false ∧ s.dev.mayMove = true ∧ s.dev.flag F.glbCobblerRestarting = false ∧ s.dev.casMode = 0
      ∧ (z.place.next 1).onTape = decide (band = 0) := by rcases h with rfl | rfl <;> decide +kernel

/-! ## Read and verify -/

/-- A decode of slot 3600 in the first P3 buffer. -/
def decode_ (verify : Bool) (reports : List C1Report) (c2Bad : Option (List Nat)) (group index step : Nat) : Decode where
  slot := 3600
  wrap := 0
  member := 0
  verify := verify
  headers := []
  syncs := []
  reports := reports
  handle := 0x60001001
  c2Bad := c2Bad
  head := none
  headerBad := []
  group := group
  index := index
  corrected := false
  content := true
  klass := none
  step := step
  merged := []

/-- Decodes, and slot 3600 as channel 255 read it. -/
def decoding_ (xs : List Decode) (d : Dev) : Dev :=
  { d with ecc := { d.ecc with decodes := xs }
           chan := { d.chan with retained := [⟨3600, [⟨255, [], [], [], none⟩], [(255, ⟨[], 0, 0, DefectScan.zero⟩)]⟩] } }

/-- The eight reports of channel 255. -/
def reports255 (bad : Nat) : List C1Report := (List.range 8).map fun c => ⟨255, c, decide (bad ≤ c), 1, 0, 0⟩
/-- The 2,048 reports of a data set. -/
def reportsAll : List C1Report := (List.range 2048).map fun i => ⟨i / 8, i % 8, true, 1, 0, 0⟩

/-- Channel 255 read the slot, channel 254 has no samples. -/
theorem meets_SlotVerified_c1 :
    let x := decode_ true ((reports255 0).take 7) none 0 0 0
    let s := at_ .loaded (decoding_ [x])
    s.dev.wantsC1 255 7 = some x ∧ s.dev.wantsC1 254 7 = some x ∧ ((s.dev.chan.retained.find? fun r => r.slot == x.slot).any fun r =>
      ((r.reads.find? fun t => t.channel == 255).isSome && (r.sets.find? fun t => t.1 == 255).isSome)
        && (r.reads.find? fun t => t.channel == 254).isNone) = true := by decide
/-- The verify window of slot 3600, written. -/
theorem meets_SlotVerified_window :
    let e : Entry := ⟨readStart false 3600, false, .window 3600⟩
    let x := dset_ 1 0 .written
    let s := at_ .streaming fun d =>
      let d := trained (carted d)
      { d with pos := { d.pos with mode := .locked, entries := [e] }, plc := { d.plc with dsets := [x] } }
    s.dev.calm = true ∧ (s.dev.nextEntries Entry.isWindow).findSome? Entry.windowSlot = some (e, 3600) ∧ s.dev.pos.mode = .locked
      ∧ (s.dev.ecc.decodes.filter Decode.verify).length < 3 ∧ (s.dev.allocate 3 ownVerify ownVerify).1 = some 0x60000001
      ∧ (s.dev.writtenAt 3600).isSome = true := by decide +kernel
theorem meets_SlotVerified_c2 :
    let y := decode_ true reportsAll none 0 0 0
    let s := at_ .loaded (decoding_ [y])
    s.dev.calm = true ∧ (s.dev.ecc.decodes.find? fun x => x.c2Bad.isNone && x.c1Done) = some y ∧ y.verify = true
      ∧ s.dev.poison = [] := by decide +kernel
/-- Read back, with `bad` codewords of channel 255 that failed. -/
def readBack_ (bad : Nat) (noWindow : Bool) : State :=
  let y := decode_ true (reports255 bad) (some []) 0 0 0
  let x := { dset_ 1 0 .read with copies := [{ Copy.at 3600 0 .read with noWindow := noWindow }] }
  at_ .loaded fun d => let d := decoding_ [y] (trained (carted d)); { d with plc := { d.plc with dsets := [x] } }

theorem meets_SlotVerified_decision :
    let y := decode_ true (reports255 3) (some []) 0 0 0
    let x := dset_ 1 0 .read
    let s := readBack_ 3 false
    s.dev.calm = true ∧ s.dev.plc.session = none ∧ s.dev.plc.stopped = none ∧ s.dev.cqm.waits = [] ∧ s.dev.strm.clicks = []
      ∧ s.dev.casMode = 0 ∧ s.dev.windowless = none ∧ (s.dev.ecc.decodes.find? fun y => y.verify && y.c2Bad.isSome) = some y
      ∧ (s.dev.plc.dsets.findSome? fun x => if x.member != s.dev.self then none else
        (x.copies.find? fun k => k.slot == y.slot && k.step == .read).map fun k => (x, k)) = some (x, Copy.at 3600 0 .read) := by decide
theorem meets_SlotVerified_few (n : Nat) : ((reports255 3).countP fun r => r.channel == n && !r.ok) < 4 := by
  have h : ((reports255 3).countP fun r => r.channel == n && !r.ok) ≤ (reports255 3).countP fun r => !r.ok :=
    List.countP_mono_left fun r _ h => by simp_all
  exact Nat.lt_of_le_of_lt h (by decide)
theorem meets_SlotVerified_windowless :
    (readBack_ 0 true).dev.windowless.isSome = true ∧ (readBack_ 0 true).dev.calm = true ∧ (readBack_ 0 true).dev.plc.session = none
      ∧ (readBack_ 0 true).dev.plc.stopped = none ∧ (readBack_ 0 true).dev.casMode = 0 := by decide

/-- A group of one data data set on wrap 0, with or without its parity. -/
def small (noC3 : Bool) : GroupEntry := ⟨0, 1, 0, 0, 0, 3600, 3600, 1, 1, noC3, false, 0, [], [], []⟩
/-- Loaded, with that group in the index. -/
def indexed_ (noC3 : Bool) (xs : List Decode) : State := at_ .loaded fun d =>
  let d := decoding_ xs (running_ false 0 (trained (carted d)))
  { d with plc := { d.plc with index := { d.plc.index with groups := [small noC3] } }, tce := { d.tce with v := 0 } }

theorem meets_LadderStepsTaken_reDecode :
    let x := decode_ false (reports255 8) (some [0]) 0 0 0
    let s := at_ .loaded fun d => let d := decoding_ [x] d; { d with ecc := { d.ecc with pin := some 3600 } }
    s.dev.calm = true ∧ s.dev.strm.reads = [] ∧ s.dev.ecc.decodes = [x] ∧ x.failing = true ∧ x.step = 0 ∧ s.dev.ecc.pin = some x.slot
      ∧ x.reports ≠ [] ∧ (x.reports.countP fun r => !r.ok) ≤ s.dev.get F.eccLadderRetryCw ∧ s.dev.stepOn 1 = true ∧ s.dev.stepOn 2 = true
      ∧ (s.dev.chan.retained.find? fun y => y.slot == x.slot).isSome = true ∧ s.dev.poison = [] := by decide +kernel
theorem meets_LadderStepsTaken_c3 :
    let others := [60, 61, 62, 63].map fun i => { decode_ false [] (some []) 0 i 0 with klass := some 0, handle := i }
    let s := indexed_ false (decode_ false [] (some [0]) 0 0 2 :: others)
    s.dev.calm = true ∧ s.dev.strm.reads = [] ∧ s.dev.groupAt 2 = some (small false) ∧ s.dev.stepOn 3 = true ∧ (small false).noC3 = false := by
  decide +kernel
theorem meets_LadderStepsTaken_reread :
    let e := small true
    let s := indexed_ true [decode_ false [] (some [0]) 0 0 3]
    let rev := wrapReverse e.wrap
    let there := s.dev.runAt rev (s.dev.clampSpeed (s.dev.get F.plcStatusSpeedTgt)) (readStart rev (slotAfter rev (s.dev.spanEnd e) 1))
    s.dev.calm = true ∧ s.dev.strm.reads = [] ∧ s.dev.mayMove = true ∧ s.dev.groupAt 3 = some e ∧ s.dev.stepOn 4 = true
      ∧ (there.mergeReads e []).unsettled e = true ∧ s.dev.ecc.rereads + 1 < s.dev.get F.eccLadderRereads := by decide +kernel

/-! ## Position -/

/-- A frame at offset 0 in either direction, its stripes where R63 has them. -/
def frame_ (rev : Bool) : ServoFrame :=
  let at_ := fun (x : Int) => some (if rev then -x else x)
  ⟨[at_ 0, at_ 80, at_ 160], at_ 4000, [at_ 24576, at_ 24656, at_ 24736], [at_ 24576, at_ 24656, at_ 24736]⟩

theorem meets_LateralAndWelts_frame (rev : Bool) :
    let s := at_ .loaded
    let f := frame_ rev
    s.dev.calm = true ∧ frameSums f = some (73728, 73728) ∧ (frameBit f).isSome = true ∧ frameReverse f = some rev
      ∧ (if rev then s.dev.tce.v ≤ 0 else 0 ≤ s.dev.tce.v) := by revert rev; decide
/-- The least energy that gives a welt value, on channel 255. -/
theorem meets_LateralAndWelts_welt :
    let s := at_ .loaded twoChannels
    s.dev.channelOn 255 = true ∧ s.dev.weltSpoilt 255 s.dev.weltEyelet = false ∧ s.dev.oddLane = false ∧ weltOf false [2048] = some 4096
      ∧ weltOf true [2047] = none := by decide

/-- The band word with a number in a servo band. -/
def word_ (band n : Nat) : Word :=
  let b := BitVec.ofNat 48 (0x7E + 256 * band + 2048 * n)
  b ||| BitVec.ofNat 48 (wcrc b * 2 ^ 40)

theorem meets_PositionFollows_signature : (at_ .loaded).dev.pos.mode = .unset := rfl
/-- One input, that of the active band, has gathered `w`, the other one nothing. -/
def gathered (upper : Bool) (w : Word) (d : Dev) : Dev :=
  { d.set F.posStatusActiveBand (b2n upper) with pos := { d.pos with words := if upper then (0, w) else (w, 0) } }
theorem meets_PositionFollows_words (upper : Bool) :
    let w := word_ (b2n upper) 5
    let s := at_ .loaded fun d => gathered upper w { d with pos := { d.pos with lastWord := some 4 } }
    let t := at_ .loaded fun d => gathered upper w { d.setTpos (decodePlace false 0 5) with pos := { d.pos with mode := .locked } }
    wordValid (s.dev.pos.dataBand + b2n upper) w = true ∧ wordNumber w = 5 ∧ s.dev.follows = false ∧ s.dev.calm = true
      ∧ s.dev.flag F.posStatusActiveBand = upper ∧ s.dev.pos.mode = .unset ∧ s.dev.pos.words = (if upper then (0, w) else (w, 0))
      ∧ s.dev.pos.lastWord = some (if s.dev.reverse then wordNumber w + 1 else wordNumber w - 1)
      ∧ t.dev.follows = false ∧ t.dev.calm = true ∧ t.dev.flag F.posStatusActiveBand = upper
      ∧ t.dev.pos.mode = .locked ∧ eyeletsOff t.dev.reverse (decodePlace t.dev.reverse (t.dev.offsetOf (b2n upper)) (wordNumber w)) t.dev.tpos = 0
      ∧ hasSync (w ^^^ 0x800000000000) = true ∧ wordValid (b2n upper) (w ^^^ 0x800000000000) = false ∧ hasSync 0 = false := by
  cases upper <;> decide +kernel
/-- Locked at eyelet 1000. -/
def locked_ (d : Dev) : Dev := { d.setTpos 512000 with pos := { d.pos with mode := .locked } }

theorem meets_PositionFollows_windows :
    let s := at_ .loaded locked_
    let t := at_ .loaded fun d => (locked_ d).set F.posStatusMissLower 3 |>.set F.posStatusMissUpper 3
    let early : Pulse := [(-200, 40), (-192, 100), (-184, 40)]
    s.dev.follows = false ∧ s.dev.calm = true ∧ s.dev.pos.mode = .locked ∧ omitted s.dev.nextWindow.1 = false
      ∧ s.dev.nextWindow.2.natAbs < 2 ^ 47 ∧ Pulse.centre s.dev.pos.amps.1 early = some (-192)
      ∧ Pulse.centre s.dev.pos.amps.2 [(192, 1)] = some 192 ∧ (-192 : Int).natAbs ≤ 192
      ∧ t.dev.follows = false ∧ t.dev.calm = true ∧ t.dev.pos.mode = .locked ∧ omitted t.dev.nextWindow.1 = false
      ∧ t.dev.nextWindow.2.natAbs < 2 ^ 47 ∧ t.dev.get F.posStatusMissLower = 3 ∧ t.dev.get F.posStatusMissUpper = 3 := by decide
/-- The shortest interval after 10,528 ns. -/
theorem meets_PositionFollows_count :
    let s := at_ .loaded fun d => { locked_ d with pos := { d.pos with mode := .count, interval := 11229 } }
    s.dev.follows = false ∧ s.dev.calm = true ∧ s.dev.pos.mode = .count ∧ s.dev.reverse = false ∧ s.dev.eyelet.natAbs < 2 ^ 38 - 1
      ∧ 800000 < 8422 * 95
      ∧ 4 * (max 8422 s.dev.pos.interval - min 8422 s.dev.pos.interval) ≤ s.dev.pos.interval := by decide
theorem meets_PositionFollows_timeout :
    let s := at_ .loaded fun d => { locked_ d with pos := { d.pos with mode := .uncertain, uncertainFor := 1200 } }
    s.dev.follows = false ∧ s.dev.calm = true ∧ s.dev.quiet = true ∧ s.dev.pos.mode = .uncertain ∧ 1200 ≤ s.dev.pos.uncertainFor := by decide

theorem meets_HfmBusActs_send : (at_ .maintenance).dev.glb.dev = .maintenance
    ∧ bitsAt (hfmFrame 0x12345678).toNat 7 0 = hfmCrc ((hfmFrame 0x12345678).extractLsb' 8 32) := by decide +kernel
theorem meets_HfmBusActs_go :
    let s := at_ .streaming fun d => d.set F.wchHfmTxRd 1
    s.dev.glb.dev ≠ .maintenance ∧ s.dev.glb.dev.hostUp = true ∧ s.dev.flag F.wchHfmTxRd = true := by decide
theorem meets_HfmBusActs_enable :
    let s := alone_ .idle (cmdOf opLoad .started) fun d => { d with chan := { d.chan with groupsOn := 15 } }
    (s.dev.cqm.cmds.any fun c => c.opcode == opLoad && c.phase == .started) = true ∧ s.dev.chan.groupsOn < 16 := by decide
/-- Module 7 alone is enabled; it answers without a fault, with a faulted element of its last channel, with an over-temperature. -/
theorem meets_HfmBusActs_poll (st : DevState) (h : st = .loaded ∨ st = .streaming) :
    let s := at_ st fun d => let d := carted d; { d with chan := { d.chan with hfmRegs := sparsePut (fun _ => 0) [] (256 * 7 + 1) 1 } }
    let good := hfmFrame 0x80020000
    let element := hfmFrame 0x80021F01
    let hot := hfmFrame 0x80020010
    s.dev.glb.dev = st ∧ s.dev.calm = true ∧ s.dev.quiet = true
      ∧ ((List.range 8).all fun k => (bitAt (s.dev.hfmReg k 1) 0 && !s.dev.ecc.hfmGone.contains k) == decide (k = 7)) = true
      ∧ ([good, element, hot].all taken) = true ∧ bitsAt good.toNat 23 8 = 0 ∧ bitsAt (bitsAt element.toNat 23 8) 3 0 ≠ 0
      ∧ bitsAt (bitsAt element.toNat 23 8) 5 4 = 0 ∧ s.dev.ecc.deadHfm.contains (32 * 7 + bitsAt (bitsAt element.toNat 23 8) 12 8) = false
      ∧ bitsAt (bitsAt hot.toNat 23 8) 3 0 = 0 ∧ bitsAt (bitsAt hot.toNat 23 8) 5 4 ≠ 0 ∧ s.dev.chan.hfmHot.contains 7 = false
      ∧ s.dev.tce.reaction = 0 ∧ s.dev.plc.stopped = none := by rcases h with rfl | rfl <;> decide +kernel

/-! ## Buffers, memory and DMA -/

/-- The handle of a buffer of a pool at GEN 0. -/
def handle_ (pool index : Nat) : BitVec 32 := BitVec.ofNat 32 (mkHandle pool index 0)

theorem meets_PoolAllocateGrants (p : Nat) (h : p = 0 ∨ p = 3 ∨ p = 4) :
    let s := at_ .loaded fun d => trained (carted d)
    let q := (s.dev.pool? p).getD ⟨0, 0, [], [], [], false, false, false, 0, []⟩
    handlePool (handle_ p 0).toNat = p ∧ s.dev.pool? p = some q ∧ (q.waiting.all fun w => w.1 != ownDma) = true ∧ 3 < q.free
      ∧ q.oldestFree = some 0 := by rcases h with rfl | rfl | rfl <;> decide +kernel
/-- The last buffer of P3, with and without an owner, in a running state and in maintenance. -/
theorem meets_PoolOwnersChange (owned : Bool) :
    let f := fun (d : Dev) => let d := trained d; if owned then { d with pools := modAt (fun q => q.setBuf (q.count - 1) ⟨1, 0x80⟩) d.pools 3 } else d
    let s := at_ .loaded f
    let q := (s.dev.pool? 3).getD ⟨0, 0, [], [], [], false, false, false, 0, []⟩
    let h := handle_ 3 (q.count - 1)
    s.dev.pool? (handlePool h.toNat) = some q ∧ handleIndex h.toNat = q.count - 1 ∧ 0 < q.count ∧ s.dev.glb.dev.running = true
      ∧ bitAt (q.buf (handleIndex h.toNat)).owners 7 = owned ∧ (at_ .maintenance f).dev.glb.dev.running = false
      ∧ (at_ .maintenance f).dev.pool? (handlePool h.toNat) = some q := by revert owned; decide +kernel
theorem meets_MemoryUpkeep :
    let s := at_ .idle trained
    s.dev.ddrReady = true ∧ (3 : Nat) < 4 ∧ s.dev.get F.memCfgScrubH ≠ 0
      ∧ ([16 * 1073741824 - 1].all fun a => decide (4 * (a / 4) < s.dev.ddrBytesInstalled)) = true := by decide

/-- Channel `c` in a state of R361. -/
def chan_ (c st : Nat) (d : Dev) : Dev := d.setCh c F.dmaChState st
/-- That channel runs a copy of `n` bytes from the last bytes of memory to address 0. -/
def runs_ (c n : Nat) (d : Dev) : Dev :=
  let d := ((chan_ c 2 (trained d)).set F.dmaStatusBusy 1).set F.dmaStatusCurrent c
  (d.setCh c F.dmaChXM1 (n - 1)).setCh c F.dmaChSrcAddr (16 * 1073741824 - n)

theorem meets_DmaChannelsRun_states (st : Nat) (h : st < 6) : (at_ .idle (chan_ 7 st)).dev.ch 7 F.dmaChState = st := by
  interval_cases st <;> decide
theorem meets_DmaChannelsRun_stop :
    let s := at_ .idle (runs_ 7 256)
    s.dev.ch 7 F.dmaChState = 2 ∧ s.dev.dmaRunning = some 7
      ∧ (copyBursts (s.dev.ch 7 F.dmaChSrcSpace) (s.dev.ch 7 F.dmaChDstSpace) ((s.dev.burstsOf 7).take 1) ⟨s.dev, [], none⟩).err = none := by
  decide +kernel
/-- Every channel but the one that ran last is idle, so its turn comes again. -/
theorem meets_DmaChannelsRun_start :
    let s := at_ .idle fun d => (chan_ 7 1 d).set F.dmaStatusCurrent 7
    s.dev.flag F.dmaStatusBusy = false ∧ s.dev.glb.dev ≠ .standby
      ∧ (∀ j, j < 7 → s.dev.ch ((s.dev.get F.dmaStatusCurrent + 1 + j) % 8) F.dmaChState ≠ 1)
      ∧ s.dev.ch ((s.dev.get F.dmaStatusCurrent + 1 + 7) % 8) F.dmaChState = 1 := by decide
theorem meets_DmaChannelsRun_poisoned :
    let s := at_ .idle fun d => { runs_ 0 256 d with poison := [16 * 1073741824 - 4] }
    s.dev.dmaRunning = some 0 ∧ s.dev.ddrReady = true ∧ s.dev.ch 0 F.dmaChSrcSpace = 0 ∧ s.dev.ch 0 F.dmaChYM1 = 0
      ∧ s.dev.ch 0 F.dmaChXM1 < 256 ∧ s.dev.ch 0 F.dmaChSrcAddr + s.dev.ch 0 F.dmaChXM1 + 1 ≤ s.dev.ddrBytesInstalled
      ∧ s.dev.poisonIn (s.dev.ch 0 F.dmaChSrcAddr) (s.dev.ch 0 F.dmaChXM1 + 1) = some (16 * 1073741824 - 4) := by decide +kernel
theorem meets_DmaCopiesRow (n : Nat) (h : n = 1 ∨ n = 256) :
    let s := at_ .idle (runs_ 7 n)
    s.dev.dmaRunning = some 7 ∧ s.dev.ddrReady = true ∧ s.dev.poison = [] ∧ s.dev.ch 7 F.dmaChSrcSpace = 0
      ∧ s.dev.ch 7 F.dmaChDstSpace = 0 ∧ s.dev.ch 7 F.dmaChYM1 = 0 ∧ s.dev.ch 7 F.dmaChXM1 < 256 ∧ s.dev.ch 7 F.dmaChCrcEn = 0
      ∧ s.dev.ch 7 F.dmaChSrcAddr + s.dev.ch 7 F.dmaChXM1 + 1 = s.dev.ddrBytesInstalled
      ∧ s.dev.ch 7 F.dmaChDstAddr + s.dev.ch 7 F.dmaChXM1 + 1 ≤ s.dev.ddrBytesInstalled := by rcases h with rfl | rfl <;> decide +kernel
theorem meets_FifoFaultActs :
    let s := at_ .loaded fun d => { carted d with cnt := { d.cnt with banks := [[⟨[0], [], none⟩]] } }
    let t := at_ .loaded fun d => { carted d with hpt := { d.hpt with conns := [{ k0 with id := 63 }] } }
    let u := at_ .loaded fun d => (carted d).modCasPort 1 fun k => { k with up := true, rewinds := 14 }
    s.dev.calm = true ∧ s.dev.quiet = true ∧ s.dev.glb.standbyHeld = false ∧ s.dev.ecc.decodes = [] ∧ s.dev.cnt.banks.head?.isSome = true
      ∧ t.dev.glb.standbyHeld = false ∧ t.dev.hpt.conns = [{ k0 with id := 0x23F - 0x200 }] ∧ k0.st ≠ .closeWait
      ∧ u.dev.calm = true ∧ u.dev.glb.standbyHeld = false ∧ u.dev.cas.ports.length = 2 ∧ (u.dev.casPort ((0x257 - 0x250) / 4)).up = true
      ∧ (u.dev.casPort ((0x257 - 0x250) / 4)).rewinds < 15 := by decide

/-! ## Transport and motors -/

/-- Slot `i` alone is closed, its limits open. -/
def slotClosed (i : Nat) (d : Dev) : Dev :=
  ((d.set F.tceLoopCtrlClosed (2 ^ i)).set (F.tceSlotOutMin.ix (64 * i)) (2 ^ 47)).set (F.tceSlotOutMax.ix (64 * i)) (2 ^ 47 - 1)

theorem meets_LoopSampleRuns_closed (i : Nat) (h : i = 0 ∨ i = 7) :
    let s := at_ .loaded fun d => (slotClosed i d).set (F.posLatValid.ix 0) 1
    i < 8 ∧ s.dev.tce.loops.length = 8 ∧ s.dev.quiet = true ∧ s.dev.closed i = true ∧ (s.dev.measured i).2 = .valid
      ∧ (s.dev.runSlot i .valid (s.dev.measured i).1).fails = [] := by rcases h with rfl | rfl <;> decide +kernel
theorem meets_LoopSampleRuns_open : (at_ .loaded).dev.closed 7 = false ∧ (at_ .loaded).dev.quiet = true := by decide
theorem meets_LoopSampleRuns_lost :
    let s := at_ .loaded (slotClosed 0)
    s.dev.closed 0 = true ∧ (s.dev.loop 0).invRun + 1 ≠ s.dev.get F.tceSupCfgInvMax ∧ s.dev.quiet = true := by decide
theorem meets_VoiceCoilFollowsLat :
    let s := at_ .loaded (slotClosed 0)
    s.dev.quiet = true ∧ s.dev.mdr.legs.length = 12 ∧ s.dev.tce.loops.length = 8
      ∧ (s.dev.runSlot 0 .invalid (s.dev.measured 0).1).fails = [] := by decide
/-- The voice coil driven and `ns` after its valley, both legs in a pulse from 1 µs to 4 µs. -/
theorem meets_VoiceCoilFollowsLat_pulse (ns : Nat) (h : ns = 500 ∨ ns = 1000 ∨ ns = 3999 ∨ ns = 4000) :
    let s := at_ .loaded fun d => { ((slotClosed 0 d).set F.mdrStatusGdEn 4).set F.posTimeTime ns with
      mdr := { d.mdr with valleys := [none, none, some 0, none], legs := List.replicate 12 ⟨2500000, 0, 3000000, 0, 1000000, false⟩ } }
    s.dev.quiet = true ∧ s.dev.driven 2 = true ∧ s.dev.pwmPhase 2 = some (1000 * ns / 625 * 625) ∧ (s.dev.leg 7).width = 3000000
      ∧ (s.dev.runSlot 0 .invalid (s.dev.measured 0).1).fails = [] := by
  rcases h with rfl | rfl | rfl | rfl <;> decide
/-- The tape at 1 m/s with a target and, where `n` is not 0, in that reaction. -/
def profile_ (target : PgTarget) (n : Nat) (gate : Bool) : State := at_ .loaded fun d =>
  { carted d with tce := { d.tce with v := 1000000000000, target := target, reaction := n } } |>.set F.posStatusWriteGate (b2n gate)

theorem meets_ProfileSteps_idle :
    let s := profile_ (.speed 40) 0 false
    s.dev.calm = true ∧ s.dev.pos.mode ≠ .uncertain ∧ s.dev.tce.stopping = false ∧ s.dev.lastIdle = true ∧ s.dev.tce.reaction = 0
      ∧ (pgStep s.dev.pgLimits.1 s.dev.pgLimits.2 s.dev.tce.v s.dev.tce.a 0).1 ≠ 0 := by decide +kernel
theorem meets_ProfileSteps_stops :
    let s := profile_ .stop 0 false
    s.dev.calm = true ∧ s.dev.lastIdle = false ∧ s.dev.tce.reaction = 0
      ∧ (pgStep s.dev.pgLimits.1 s.dev.pgLimits.2 s.dev.tce.v s.dev.tce.a s.dev.speedWanted).1 ≠ 0 := by decide +kernel
theorem meets_ProfileSteps_reaction (gate : Bool) :
    let s := profile_ .stop 1 gate
    s.dev.calm = true ∧ s.dev.tce.reaction ≠ 0 ∧ s.dev.flag F.posStatusWriteGate = gate ∧ s.dev.tce.a = 0 ∧ s.dev.tce.v ≠ 0
      ∧ (pgStep s.dev.pgLimits.1 s.dev.pgLimits.2 s.dev.tce.v s.dev.tce.a 0).1 ≠ 0 := by revert gate; decide +kernel

/-- A maintenance command in maintenance, its operation and its first parameters. -/
def maintCmd (op sub : Nat) (par : List Byte) : Cmd := { cmdOf op .accepted (leBytes 1 sub ++ par) with counts := false }

theorem meets_LoopsInMaintenance_write : (at_ .maintenance).dev.cart.loaded = false ∧ F.tceLoopCtrlClosed.of 0x80 ≠ 0
    ∧ (at_ .loaded).dev.glb.dev ≠ .maintenance := by decide
theorem meets_LoopsInMaintenance_commands (sub : Nat) (h : sub = 0 ∨ sub = 1) :
    let c := maintCmd opLoop sub (leBytes 1 7)
    let s := alone_ .maintenance c
    c.par 17 1 < 8 ∧ s.maintains c k0 q0 opLoop sub ∧ s.dev.heldClosed (c.par 17 1) = false := by rcases h with rfl | rfl <;> decide
/-- A test run of slot 7 to higher addresses with every slot closed. -/
theorem meets_LoopsInMaintenance_test :
    let c := maintCmd opLoop 2 (leBytes 1 7 ++ leBytes 1 0 ++ leBytes 1 0 ++ leBytes 1 20 ++ leBytes 1 0 ++ leBytes 2 100)
    let s := alone_ .maintenance c fun d => { (carted (d.setTpos (512 * 1000000))).set F.tceLoopCtrlClosed 255 with
      pos := { d.pos with mode := .count } }
    s.maintains c k0 q0 opLoop 2 ∧ c.par 17 1 < 8 ∧ s.dev.testBar c = none ∧ s.dev.motionBar = none := by decide +kernel
theorem meets_TracesRecorded (sub : Nat) (h : sub < 3) :
    let c := maintCmd opTrace sub (leBytes 1 3 ++ leBytes 1 8 ++ leBytes 1 5)
    let s := alone_ .maintenance c
    s.dev.tce.traces.length = 4 ∧ s.maintains c k0 q0 opTrace sub ∧ c.par 17 1 = 3 ∧ c.par 18 1 ≤ 8 ∧ c.par 19 1 ≤ 5 ∧ c.par 19 1 ≠ 3
      ∧ c.par 19 1 ≠ 4 ∧ s.dev.calm = true ∧ s.dev.get (F.tceTraceTrig.ix 12) ≠ 3 ∧ s.dev.get (F.tceTraceTrig.ix 12) ≠ 4 := by
  interval_cases sub <;> decide
/-- The voice coil is driven; its requests try the three cases at their borders. -/
theorem meets_PulsesAndStepper :
    let s := at_ .idle fun d => d.set F.mdrStatusGdEn 4
    let dead := 1000 * (s.dev.get (F.mdrPwmCfgDead.ix 2) : Int)
    let least := 1000 * (s.dev.get (F.mdrPwmCfgMinPulse.ix 2) : Int)
    7 ∈ legsOf 2 ∧ s.dev.mdr.legs.length = 12 ∧ s.dev.driven 2 = true ∧ max dead least - 1 < max dead least
      ∧ max dead least ≤ pwmPeriod 2 - 2 * dead - least ∧ max dead least ≤ pwmPeriod 2 - 2 * dead - least + 1 := by decide
/-- Both reels in a mode, reel `x` with or without its part of an Observer reaction. -/
def reels_ (m : Nat) (f : Dev → Dev := id) : State := at_ .loaded fun d => f ((d.set F.mdrReelMode m).set (F.mdrReelMode.ix 1) m)

theorem meets_ReelsCommutate_boot :
    let s := reels_ 0 fun d => { d with mdr := { d.mdr with boot := [1] } }
    s.dev.mdr.reels.length = 2 ∧ s.dev.reelMode 1 = 0 ∧ 1 ∈ s.dev.mdr.boot ∧ 1 ∉ s.dev.mdr.gdWait := by decide
theorem meets_ReelsCommutate_modes (m : Nat) (h : m = 1 ∨ m = 2 ∨ m = 3) :
    (reels_ m).dev.mdr.reels.length = 2 ∧ (reels_ m).dev.reelMode 1 = m ∧ ((reels_ m).dev.reel 1).restart = false
      ∧ (reels_ m).dev.calm = true := by rcases h with rfl | rfl | rfl <;> decide
theorem meets_ReelsCommutate_observer :
    let s := reels_ 3 fun d => { d with
      tce := { d.tce with reaction := 2 }
      pos := { d.pos with mode := .locked, silent := false, freq := 2097152 }
      mdr := { d.mdr with reels := d.mdr.reels.map fun (r : Reel) => { r with restart := true } } }
    s.dev.mdr.reels.length = 2 ∧ s.dev.reelMode 1 = 3 ∧ s.dev.tce.reaction = 2 ∧ (s.dev.reel 1).restart = true
      ∧ 500000000000 ≤ s.dev.tapeSpeed.1.natAbs ∧ (s.dev.reel 0).restart = true := by decide +kernel
theorem meets_QuadratureAndCurrents_edges (n : Int) (h : n = 0 ∨ n = 1) :
    let s := at_ .idle fun d => (d.set F.mdrQeCfgEn 1).set (F.mdrQeCfgEn.ix 1) 1 |>.set F.mdrQeCountCount n.toNat
    let t := at_ .idle fun _ => s.dev.modQuad 0 fun x => { x with indexed := decide (n = 1) }
    s.dev.flag (F.mdrQeCfgEn.ix 1) = true ∧ s.dev.mdr.quads.length = 2 ∧ (s.dev.quad 1).a = false ∧ (s.dev.quad 1).b = false
      ∧ t.dev.flag F.mdrQeCfgEn = true ∧ t.dev.mdr.quads.length = 2 ∧ (t.dev.quad 0).up = true
      ∧ (t.dev.quad 0).indexed = decide (n = 1) ∧ t.dev.get F.mdrQeCountCount = n.toNat := by rcases h with rfl | rfl <;> decide
/-- Both paths at the codes where the choice changes. -/
theorem meets_QuadratureAndCurrents_paths (was : Bool) :
    let s := at_ .idle fun d => { d with mdr := { d.mdr with path8 := setAt d.mdr.path8 0 was } }
    let c1 : Int := 512
    let c8 : Int := 7680
    s.dev.mdr.path8.length = 10 ∧ s.dev.calm = true ∧ s.dev.mdr.path8.getD 0 false = was
      ∧ (s.dev.combined 0 (if was then decide (c8.natAbs < 7680) else decide (c1.natAbs < 512)) c1 c8).natAbs
        ≤ s.dev.get F.mdrPwmCfgOcLim * 64 := by revert was; decide +kernel
theorem meets_IndexSetsCount (up : Bool) :
    let s := at_ .idle fun d => ((d.set F.mdrQeCfgEn 1).set F.mdrQeCountCount 1).modQuad 0 fun x => { x with indexed := true, up := up }
    s.dev.flag F.mdrQeCfgEn = true ∧ s.dev.mdr.quads.length = 2 ∧ (s.dev.quad 0).indexed = true ∧ (s.dev.quad 0).up = up
      ∧ s.dev.get F.mdrQeCountCount ≠ 0 := by revert up; decide
theorem meets_DriverFaultsAndRestarts_fault :
    let s := at_ .loaded fun d => { d with plc := { d.plc with stopped := some 0x030C, judged := true } }
    s.dev.quiet = true ∧ s.dev.plc.stopped.isSome = true ∧ s.dev.plc.judged = true ∧ 3 ∉ s.dev.mdr.gdSeen := by decide
theorem meets_DriverFaultsAndRestarts_restart (g : Nat) (h : g = 1 ∨ g = 3) :
    let s := at_ .loaded fun d => { d.set F.mdrStatusGdEn 15 with mdr := { d.mdr with gdWait := [g], gdSeen := [g] } }
    g ∈ s.dev.mdr.gdWait ∧ s.dev.calm = true ∧ s.dev.mdr.reels.length = 2 ∧ g ∉ s.dev.mdr.gdDead ∧ g ∈ s.dev.mdr.gdSeen
      ∧ (s.dev.mdr.reels.all fun r => decide (r.omega.natAbs < 500)) = true ∧ bitAt (s.dev.get F.mdrStatusGdEn) g = true := by
  rcases h with rfl | rfl <;> decide

/-! ## Cascade -/

/-- A device of a set: mode 1 width, 2 stripe; the master of member 15 in a state, or member 15. -/
def cascade_ (mode : Nat) (master : Bool) (state : Nat) (f : Dev → Dev := id) : State := at_ .loaded fun d =>
  let d := d.set F.casCfgMode mode
  f { d with glb := { d.glb with straps := ⟨master, if master then 0 else 15, false, 0⟩ }
             cas := { d.cas with members := [⟨15, state, 0, []⟩] } }

theorem meets_CascadeRuns_master (state : Nat) (h : state < 6) :
    let s := cascade_ 1 true state
    s.dev.isMaster = true ∧ s.dev.casMode = 1 ∧ s.dev.memberState 15 = state ∧ s.dev.joinBoundary = true ∧ s.dev.calm = true ∧ s.dev.flag F.glbCobblerRestarting = false
      ∧ s.dev.cas.ports.length = 2 ∧ s.dev.plc.session = none ∧ s.dev.plc.dsets = [] ∧ s.dev.cqm.waits = [] ∧ s.dev.strm.clicks = []
      ∧ s.dev.plc.stopped = none := by interval_cases state <;> decide
theorem meets_CascadeRuns_session : (cascade_ 1 true 3 fun d => { d with plc := { d.plc with session := some (session_ 0) } }).dev.plc.session.isSome = true
    ∧ (cascade_ 1 true 3 fun d => { d with plc := { d.plc with session := some (session_ 0) } }).dev.memberState 15 = 3 := by decide
/-- What a member reports that keeps R450, in stripe mode, but for the digest, which is the master's own. -/
theorem meets_CascadeRuns_fits :
    let s := cascade_ 2 true 0
    s.dev.memberFits 15 ⟨2, 15, false, BitVec.ofNat 48 s.dev.ident, s.dev.fwDigest, 20000, false, [], []⟩ = true := by
  simp [Dev.memberFits]
  decide
theorem meets_CascadeRuns_unfit :
    (cascade_ 2 true 0).dev.memberFits 15 ⟨2, 14, false, 0, [], 0, false, [], []⟩ = false := by
  simp [Dev.memberFits]
theorem meets_CascadeRuns_member :
    let s := cascade_ 2 false 0
    s.dev.isMember = true ∧ s.dev.ownId = 15 ∧ s.dev.cas.masterLost = false ∧ s.dev.casMode = 2 ∧ s.dev.plc.session = none
      ∧ s.dev.calm = true := by decide
/-- A flit for another device, or for the master. -/
def flit_ (dst : BitVec 4) : Flit := ⟨1, 1, dst, 15, 0, 0, 0, 0, [7]⟩

theorem meets_CascadeRuns_link (n : Nat) (h : n = 14 ∨ n = 15) :
    let s := cascade_ 1 true 3 fun d => d.modCasPort 1 fun k => { k with up := true, rewinds := n, replay := [flit_ 15] }
    s.dev.calm = true ∧ s.dev.cas.ports.length = 2 ∧ (s.dev.casPort 1).up = true ∧ (s.dev.casPort 1).replay ≠ []
      ∧ (s.dev.casPort 1).rewinds = n := by rcases h with rfl | rfl <;> decide
theorem meets_CascadeRuns_flits :
    let s := cascade_ 1 true 3 fun d => (d.modCasPort 0 fun k => { k with up := true }).modCasPort 1 fun k => { k with up := true, credit := [1, 0, 0] }
    let f := flitOf (flitBytes (flit_ 15))
    let p := 0
    s.dev.calm = true ∧ (s.dev.casPort p).up = true ∧ f.ftype = 1 ∧ f.seq.toNat = (s.dev.casPort p).rcvSeq
      ∧ f.dst.toNat ≠ s.dev.ownId ∧ f.vc ≠ 0 ∧ (s.dev.casPort (1 - p)).up = true ∧ (s.dev.casPort (1 - p)).outq = []
      ∧ (s.dev.casPort (1 - p)).replay.length < 256 ∧ (s.dev.casPort (1 - p)).credit.getD (f.vc.toNat - 1) 0 ≠ 0
      ∧ (flitOf (flitBytes (flit_ 0))).dst.toNat = s.dev.ownId := by decide
theorem meets_CascadeRuns_fcrc : fcrcGood (flitBytes (flit_ 15)) = true ∧ fcrcGood (flitBytes (flit_ 0)) = true ∧ fcrcGood [] = false :=
  ⟨fcrcGood_bytes _, fcrcGood_bytes _, rfl⟩
theorem test_flit_returns : flitOf (flitBytes (flit_ 15)) = flit_ 15 := by decide
theorem meets_CascadeRuns_beacons (m : PosMode) (h : m = .unset ∨ m = .locked) :
    let s := cascade_ 1 false 0 fun d => { d with pos := { d.pos with mode := m } }
    s.dev.calm = true ∧ s.dev.follows = true ∧ s.dev.cas.masterLost = false ∧ s.dev.cas.unsure = false ∧ s.dev.pos.mode = m := by
  rcases h with rfl | rfl <;> decide

/-! ## Well-formed commands -/

/-- A segment on a port with `n` SACK blocks. -/
def seg_ (port n : Nat) : Seg where
  port := port
  src := k0.host
  sport := 4000
  ver := 1
  typ := 1
  first := true
  last := true
  ackNow := false
  sack := List.replicate n (0, 0)
  dstConn := 0
  srcConn := 0
  epoch := 5
  seq := 0
  ack := 0
  credit := 0
  payLen := 0
  msgLen := 0
  msgOff := 0
  tsVal := 0
  tsEcho := 0
  payload := []

theorem test_wf_segments :
    (Instr.syn (seg_ 3 4)).wf = true ∧ (Instr.syn (seg_ 4 0)).wf = false ∧ (Instr.cmd (seg_ 0 5)).wf = false
      ∧ (Instr.ack (seg_ 4 0)).wf = false ∧ (Instr.fin (seg_ 4 0)).wf = false ∧ (Instr.rst (seg_ 4 0)).wf = false
      ∧ (Instr.mgmtReadRequest (seg_ 4 0)).wf = false ∧ (Instr.mgmtWriteRequest (seg_ 4 0)).wf = false := by decide
theorem test_wf_ports :
    ([.lastAckClose 64, .retransmissionTimeout 64, .delayedAck 64, .keepaliveTimeout 64, .creditProbe 64, .synAckTimeout 64,
      .neighborSolicitation 4 0 0 0 255, .neighborAdvertisement 4 0 0 255, .mldQuery 4 0, .echoRequest 4 0 0 [], .pauseFrame 4, .linkUp 4,
      .linkDown 4, .dadTimeout 4 false false, .receivedFrameDropped 4 .fcs, .pfcFrame 4 [], .pfcFrame 0 [(8, 1)], .pfcStorm 4 0,
      .pfcStorm 0 8, .pfcPauseEnd 4 0, .pfcPauseEnd 0 8].all fun (c : Instr) => !c.wf) = true
    ∧ ([.lastAckClose 63, .linkUp 3, .pfcFrame 3 [(7, 1)], .pfcStorm 3 7, .pfcPauseEnd 3 7].all Instr.wf) = true := by decide
theorem test_wf_data :
    ([.compressionJobStart 16, .clickCoded 16 .none, .decompressionJobStart 16, .clickDecoded 16 .none, .dataSetStart [256],
      .verifyWindow [⟨256, []⟩], .c1CodewordDecoded 256 0, .c1CodewordDecoded 0 8, .lateralSample 2 none, .hfmFrameSend 8 0 0,
      .ddrRetrain 4, .fifoPointerMismatch 0x280, .dmaGo 8, .dmaStop 8 0, .dmaClear 8].all fun (c : Instr) => !c.wf) = true
    ∧ ([.compressionJobStart 15, .dataSetStart [255], .verifyWindow [⟨255, []⟩], .c1CodewordDecoded 255 7, .lateralSample 1 none,
      .hfmFrameSend 7 0 0, .ddrRetrain 3, .fifoPointerMismatch 0x27F, .dmaGo 7].all Instr.wf) = true := by decide
theorem test_wf_transport :
    ([.traceArm (.register 4), .loopSample 8 false 0, .pwmPeriod 4, .reelCommutation 2, .alignEnd 2, .observerReacqAttempt 2 true,
      .quadratureEdge 2 true true, .quadratureIndex 2, .gateDriverFault 4, .gdEnReassert 4, .gdRestartCheck 4 true, .cascadeJoin 16,
      .cascadeLoss 16 false, .memberLeave 16, .cascadeLinkUp 2 1 ⟨0, 0, false, 0, [], 0, false, [], []⟩,
      .cascadeLinkUp 0 16 ⟨0, 0, false, 0, [], 0, false, [], []⟩, .flitReceived 2 [], .replayTimeout 2,
      .thermalSample [0] env0, .gpioInputChange 16 true, .pinFunctionChange 17 0 0, .pinWindowEnd 17].all fun (c : Instr) => !c.wf) = true
    ∧ ([.traceArm (.register 3), .loopSample 7 false 0, .pwmPeriod 3, .reelCommutation 1, .quadratureIndex 1, .gateDriverFault 3,
      .cascadeJoin 15, .replayTimeout 1, .gpioInputChange 15 true, .pinWindowEnd 16, .vaonRise].all Instr.wf) = true := by decide

/-! ## The block -/

theorem meets_StepRunsFront : (⟨[.vaonRise], Dev.reset⟩ : State) = { State.reset with pending := [.vaonRise] } := rfl
theorem meets_QueueStaysWellFormed :
    let s : State := { State.reset with pending := [.dmaGo 7, .dmaGo 6] }
    s.queueWf = true ∧ step s = exec (.dmaGo 7) { s with pending := [.dmaGo 6] } := ⟨by decide, rfl⟩
theorem meets_RunsOnAndServesInOrder :
    (at_ .idle).pending = [] ∧ (at_ .idle).dev.glb.dev ≠ .standby ∧ (at_ .idle).dev.inReset = false := by decide

/-! ## The spec's worked examples -/

/-- Chapter 04, "a word with a long run". -/
theorem test_modulation_word :
    let ds := (List.range 32).map fun i => (0x4D00000B : BitVec 32).getLsbD i
    let cs := modWord ds
    ((cs.zipIdx.map fun c => b2n c.1 * 2 ^ c.2).sum) = 0x1FE9B7C92 ∧ demodWord cs = some ds := by decide +kernel
/-- Chapter 05, "a test vector for the encoder". -/
theorem test_c1_parity :
    let p := c1Parity ((1 : Block) :: List.replicate 31 0)
    (p.map fun b => (List.range 256).filter fun r => b.getLsbD r)
      = [[0, 221, 241, 251], [0, 220, 240, 250, 255], [0, 220, 240, 250, 251, 255], [220, 221, 240, 250, 255]] := by decide +kernel
/-- Chapter 07, "a click cut by a flush": end list, body and header bits. -/
theorem test_flushed_click :
    endList [9, 13] = [0x02, 0x00, 0x09, 0x00, 0x0D, 0x00]
      ∧ zc1Decode [] [0x02, 0x61, 0x62, 0x63, 0x58, 0x02, 0x00, 0x64, 0x48, 0x03] 14
        = some [0x61, 0x62, 0x63, 0x61, 0x62, 0x63, 0x61, 0x62, 0x63, 0x64, 0x61, 0x62, 0x63, 0x64]
      ∧ (⟨0x21, 14, 16, false, true, true, true, true⟩ : ClickHead).bits = 0x780020000E ∧ ratioOk 14 16 = true ∧ ratioOk 65536 8 = false
      ∧ ratioOk 65536 2981 = true := by decide +kernel
/-- Chapter 02, "one payload byte on tape". -/
theorem test_payload_byte :
    logicalTrack 103603 186 = 122 ∧ 1001248 / 8192 = 122 ∧ inWelt 103603 15743 = false ∧ inWelt 103603 15744 = true
      ∧ inWelt 103603 15839 = true ∧ inWelt 103603 15840 = false ∧ slotStart false 103603 = 512 * 15540450 := by decide
/-- Chapter 13, "a small duty on one reel phase". -/
theorem test_small_duty :
    let p := placePulse (pwmPeriod 0) 200000 100000
    p 80000 = (0, 80000, true) ∧ p 160000 = (0, 160000, true) ∧ p 240000 = (240000, 0, false) := by decide
/-- Chapter 11, "copying one codeword column": pool, index and address of the handles. -/
theorem test_handles :
    let d := (at_ .idle trained).dev
    handlePool 0x600255A1 = 3 ∧ handleIndex 0x600255A1 = 37
      ∧ d.bufAddr 0x600255A1 + trackOffset 120 + 5 * 1024 = 0x34AF1400 ∧ d.bufAddr 0x80064013 = 0x10640000 := by decide
/-- R267: the header of a SYN byte by byte, and a SACK block after it. -/
theorem test_segment_bytes :
    segBytes { seg_ 0 0 with dstConn := 0xFFFF, srcConn := 0x1234, epoch := 0, seq := 0x010203040506, payLen := 1, payload := [0xAB], ackNow := true,
                             sack := [(0x11, 0x22)] }
      = [0x01, 0x01, 0x07, 0x01, 0xFF, 0xFF, 0x34, 0x12, 0, 0, 0, 0, 6, 5, 4, 3, 2, 1, 0, 0, 0, 0, 0, 0, 0, 0, 1, 0] ++ List.replicate 20 0
        ++ [0x11, 0, 0, 0, 0, 0, 0x22, 0, 0, 0, 0, 0, 0xAB] := by decide
/-- Chapter 17, "two snapshots across a wrap": the shadow number of CMP.CNT_IN_BYTES. -/
theorem test_shadow_number : shadowOf 0x060020 = some 800 := by decide

end Sys2Proof.Tests
end

section
/-!
SUPPORT. How the register file answers: what a masked write does to each bit of a word (R7, R9), what a read shows and clears
(R7, R8), and what REGISTER_WRITE and RC_FIELD_READ leave alone.
-/
namespace Sys2Proof.Machine

/-! ## Bits of a row's field -/

/-- A row's field covers the same bits as the place that it names at an address. -/
theorem FieldRow.mask_at (f : FieldRow) (a : Nat) : (f.at_ a).mask = f.mask := by
  have hp : 1 ≤ 2 ^ (f.hi - f.lo + 1) := Nat.one_le_two_pow
  have hone : (1#48 <<< (f.hi - f.lo + 1)) = BitVec.ofNat 48 (2 ^ (f.hi - f.lo + 1)) := by
    apply BitVec.eq_of_toNat_eq
    simp [Nat.shiftLeft_eq]
  rw [FieldRow.mask, hone, BitVec.ofNat_sub_ofNat_of_le _ _ (by decide) hp]
  apply BitVec.eq_of_toNat_eq
  simp [Fld.mask, FieldRow.at_, Nat.shiftLeft_eq]

/-- A field holds the bits from its lowest to its highest. -/
theorem FieldRow.getLsbD_mask_eq_true (f : FieldRow) {i : Nat} (hlo : f.lo ≤ i) (hhi : i ≤ f.hi) (h48 : i < 48) :
    f.mask.getLsbD i = true := by
  have hin : i < f.lo + (f.hi - f.lo + 1) := by omega
  rw [← f.mask_at 0, Fld.getLsbD_mask]
  simp [FieldRow.at_, h48, hlo, hin]

/-- A field that ends within a word fits in its register. -/
theorem FieldRow.at_fits (f : FieldRow) (a : Nat) (hlo : f.lo ≤ f.hi) (h48 : f.hi < 48) : (f.at_ a).fits = true := by
  have : f.lo + (f.hi - f.lo + 1) ≤ 48 := by omega
  rw [Fld.fits, decide_eq_true_eq]
  exact this

/-- Two fields, one of which ends below the other, share no bit. -/
theorem FieldRow.at_apart (f g : FieldRow) (a : Nat) (hf : f.lo ≤ f.hi) (hg : g.lo ≤ g.hi) (h : g.hi < f.lo ∨ f.hi < g.lo) :
    (g.at_ a).apart (f.at_ a) = true := by
  have : g.lo + (g.hi - g.lo + 1) ≤ f.lo ∨ f.lo + (f.hi - f.lo + 1) ≤ g.lo := by omega
  simp only [Fld.apart, Bool.or_eq_true, decide_eq_true_eq]
  exact this

/-- The fields of every register of the map share no bit. -/
theorem regMap_fields_disjoint : ∀ r ∈ regMap, r.fields.Pairwise fun f g => f.mask &&& g.mask = 0 := by decide +kernel

theorem rowOf_mem {a : Nat} {r : RegRow} (h : rowOf a = some r) : r ∈ regMap := List.mem_of_find?_eq_some h

/-! ## The word after a masked write -/

/-- The access codes of the fields that take the addressed bits of a write (R8), apart from CFG. -/
def Access.plain (c : Access) : Prop := c = .rw ∨ c = .mnt ∨ c = .lop

theorem FieldRow.getLsbD_write_outside (f : FieldRow) (w value mask : Word) {i : Nat} (h : f.mask.getLsbD i = false) :
    (f.write w value mask).getLsbD i = w.getLsbD i := by
  by_cases h48 : i < 48
  · rw [BitVec.getLsbD_eq_getElem h48] at h
    cases hacc : f.acc <;> simp [FieldRow.write, hacc, h, h48]
  · rw [BitVec.getLsbD_of_ge _ _ (by omega), BitVec.getLsbD_of_ge _ _ (by omega)]

theorem FieldRow.getLsbD_write_plain (f : FieldRow) (w value mask : Word) {i : Nat} (hacc : f.acc.plain)
    (h : f.mask.getLsbD i = true) :
    (f.write w value mask).getLsbD i = if mask.getLsbD i then value.getLsbD i else w.getLsbD i := by
  have h48 : i < 48 := BitVec.lt_of_getLsbD h
  have hw : f.write w value mask = (w &&& ~~~(f.mask &&& mask)) ||| (value &&& (f.mask &&& mask)) := by
    obtain e | e | e := hacc <;> simp [FieldRow.write, e]
  rw [BitVec.getLsbD_eq_getElem h48] at h ⊢
  cases hm : mask[i] <;> simp [hw, h, hm, h48]

/-- Fields that do not hold a bit leave it as it is. -/
theorem getLsbD_foldl_write_outside (fs : List FieldRow) (w value mask : Word) {i : Nat}
    (h : ∀ f ∈ fs, f.mask.getLsbD i = false) :
    (fs.foldl (fun w f => f.write w value mask) w).getLsbD i = w.getLsbD i :=
  List.foldlRecOn (motive := fun v : Word => v.getLsbD i = w.getLsbD i) fs _ rfl fun v hv f hf =>
    (f.getLsbD_write_outside v value mask (h f hf)).trans hv

/-- Of fields that share no bit, the plain one that holds a bit decides it. -/
theorem getLsbD_foldl_write_plain (fs : List FieldRow) (w value mask : Word) (f : FieldRow) {i : Nat}
    (hdis : fs.Pairwise fun f g => f.mask &&& g.mask = 0) (hf : f ∈ fs) (hacc : f.acc.plain) (h : f.mask.getLsbD i = true) :
    (fs.foldl (fun w f => f.write w value mask) w).getLsbD i = if mask.getLsbD i then value.getLsbD i else w.getLsbD i := by
  have apart : ∀ x y : FieldRow, x.mask &&& y.mask = 0 → x.mask.getLsbD i = true → y.mask.getLsbD i = false := by
    intro x y hxy hx
    have := congrArg (·.getLsbD i) hxy
    simpa [hx] using this
  induction fs generalizing w with
  | nil => cases hf
  | cons g fs ih =>
    obtain ⟨hg, hdis⟩ := List.pairwise_cons.mp hdis
    rw [List.foldl_cons]
    obtain rfl | hf := List.mem_cons.mp hf
    · rw [getLsbD_foldl_write_outside fs _ value mask fun x hx => apart f x (hg x hx) h,
        f.getLsbD_write_plain w value mask hacc h]
    · have hgi : g.mask.getLsbD i = false := apart f g (by rw [BitVec.and_comm]; exact hg f hf) h
      rw [ih _ hdis hf, g.getLsbD_write_outside w value mask hgi]

theorem RegRow.getLsbD_write_plain (r : RegRow) (w value mask : Word) (f : FieldRow) {i : Nat} (hr : r ∈ regMap)
    (hf : f ∈ r.fields) (hacc : f.acc.plain) (h : f.mask.getLsbD i = true) :
    (r.write w value mask).getLsbD i = if mask.getLsbD i then value.getLsbD i else w.getLsbD i :=
  getLsbD_foldl_write_plain r.fields w value mask f (regMap_fields_disjoint r hr) hf hacc h

/-- A row without ranges clamps nothing (R583). -/
theorem RegRow.clamp_of_no_range (r : RegRow) (a : Nat) (w : Word) (h : (r.fields.all fun g => g.range.isNone) = true) :
    r.clamp a w = w := by
  refine List.foldlRecOn (motive := (· = w)) r.fields _ rfl fun v hv g hg => ?_
  have hg : g.range = none := by simpa using List.all_eq_true.mp h g hg
  simp [hv, hg]

/-! ## What a read shows -/

/-- A read shows no bit that no field holds (R7). -/
theorem RegRow.getLsbD_shown_outside (r : RegRow) {i : Nat} (h : ∀ f ∈ r.fields, f.mask.getLsbD i = false) :
    r.shown.getLsbD i = false := by
  refine List.foldlRecOn (motive := fun m : Word => m.getLsbD i = false) r.fields _ (by simp) fun m hm f hf => ?_
  split
  · exact hm
  · rw [BitVec.getLsbD_or, hm, h f hf, Bool.or_self]

/-! ## What a read clears -/

/-- Fields of the register at an address take their reset values. -/
def Dev.resetFields (d : Dev) (a : Nat) (fs : List FieldRow) : Dev := fs.foldl (fun d f => d.set (f.at_ a) f.reset) d

/-- Outside the pools a read clears the RC fields of its register (R8). -/
theorem Dev.clearRead_eq_resetFields (d : Dev) {a : Nat} {r : RegRow} (hr : rowOf a = some r)
    (ha : ¬ (0x0A0008 ≤ a ∧ a < 0x0A000D)) : d.clearRead a = d.resetFields a (r.fields.filter fun f => f.acc == .rc) := by
  simp only [Dev.clearRead, hr, if_neg ha, Dev.resetFields]

theorem Dev.resetFields_onlyRegs (d : Dev) (a : Nat) (fs : List FieldRow) :
    d.resetFields a fs = { d with regs := (d.resetFields a fs).regs } := by
  induction fs generalizing d with
  | nil => rfl
  | cons f fs ih => exact ih (d.set (f.at_ a) f.reset)

theorem Dev.word_resetFields_other (d : Dev) {a b : Nat} (fs : List FieldRow) (h : b ≠ a) :
    (d.resetFields a fs).word b = d.word b :=
  List.foldlRecOn (motive := fun e : Dev => e.word b = d.word b) fs _ rfl fun e he f _ =>
    (e.word_set_other (f.at_ a) f.reset h).trans he

/-- A field stands at its reset value when only it and fields apart from it take theirs. -/
theorem Dev.get_resetFields_keeps (d : Dev) (a : Nat) (f : FieldRow) (fs : List FieldRow) (hfit : (f.at_ a).fits = true)
    (hfs : ∀ g ∈ fs, g = f ∨ (g.at_ a).apart (f.at_ a) = true)
    (h : d.get (f.at_ a) = f.reset % 2 ^ (f.at_ a).width) :
    (d.resetFields a fs).get (f.at_ a) = f.reset % 2 ^ (f.at_ a).width := by
  refine List.foldlRecOn (motive := fun e : Dev => e.get (f.at_ a) = f.reset % 2 ^ (f.at_ a).width) fs _ h fun e he g hg => ?_
  obtain rfl | hg := hfs g hg
  · exact e.get_set_same _ _ hfit
  · rw [e.get_set_apart (g.at_ a) (f.at_ a) g.reset rfl hg, he]

/-- A field is at its reset value after it and fields apart from it took theirs. -/
theorem Dev.get_resetFields_same (d : Dev) (a : Nat) (f : FieldRow) (fs : List FieldRow) (hfit : (f.at_ a).fits = true)
    (hfs : ∀ g ∈ fs, g = f ∨ (g.at_ a).apart (f.at_ a) = true) (hf : f ∈ fs) :
    (d.resetFields a fs).get (f.at_ a) = f.reset % 2 ^ (f.at_ a).width := by
  induction fs generalizing d with
  | nil => cases hf
  | cons g fs ih =>
    have htail := fun x hx => hfs x (List.mem_cons_of_mem g hx)
    obtain rfl | hf := List.mem_cons.mp hf
    · exact Dev.get_resetFields_keeps _ a f fs hfit htail (d.get_set_same _ _ hfit)
    · exact ih _ htail hf

/-! ## The commands -/

theorem exec_registerWrite (p : Path) (addr : BitVec 24) (value mask : Word) (s : State) :
    exec (.registerWrite p addr value mask) s
      = .next { s with dev := (s.dev.registerWrite p addr.toNat value mask).hostSettle } := rfl

theorem exec_rcFieldRead (p : Path) (addr : BitVec 24) (s : State) :
    exec (.rcFieldRead p addr) s = .next { s with dev := s.dev.rcRead p addr.toNat } := rfl

/-- A refused write changes nothing in the register file (R9). -/
theorem Dev.writeReg_refused (d : Dev) (p : Path) (a : Nat) (value mask : Word) (h : d.mayWrite p a value mask = false) :
    d.writeReg p a value mask = none := by
  simp [Dev.writeReg, h]

/-- An accepted write of any register but TCE.LOOP_CTRL stores its fields and acts. -/
theorem Dev.writeReg_accepted (d : Dev) (p : Path) {a : Nat} (value mask : Word) (h : d.mayWrite p a value mask = true)
    (ha : a ≠ 0x0E0001) :
    d.writeReg p a value mask = some ((d.store a value mask).writeActs a value mask (d.word a)) := by
  simp [Dev.writeReg, h, ha]

/-- Storing a register changes its word and nothing else. -/
theorem Dev.store_eq_putWord (d : Dev) (a : Nat) (value mask : Word) :
    d.store a value mask = d ∨ ∃ w, d.store a value mask = d.putWord a w := by
  unfold Dev.store
  split
  · exact .inl rfl
  · dsimp only
    split
    · exact .inl rfl
    · exact .inr ⟨_, rfl⟩

theorem Dev.calm_store (d : Dev) (a : Nat) (value mask : Word) : (d.store a value mask).calm = d.calm := by
  obtain e | ⟨w, e⟩ := d.store_eq_putWord a value mask <;> rw [e]
  simp [Dev.calm]

theorem Dev.word_store_other (d : Dev) {a b : Nat} (value mask : Word) (h : b ≠ a) :
    (d.store a value mask).word b = d.word b := by
  obtain e | ⟨w, e⟩ := d.store_eq_putWord a value mask <;> rw [e]
  exact d.word_putWord_other w h

/-- The stored word of a register without clamping and other than RCH.TARGET is the written one. -/
theorem Dev.word_store_unclamped (d : Dev) {a : Nat} {r : RegRow} (value mask : Word) (hr : rowOf a = some r)
    (hrange : (r.fields.all fun g => g.range.isNone) = true) (hcross : ∀ w, crossClamp a w = w) (ha : a ≠ 0x030001) :
    (d.store a value mask).word a = r.write (d.word a) value mask := by
  simp [Dev.store, hr, ha, hcross, r.clamp_of_no_range a _ hrange]

theorem Dev.hostOnly_glb {a b : Dev} (h : a.hostOnly b) : b.glb = a.glb := (congrArg Dev.glb h.1 :)

theorem Dev.hostOnly_word {a b : Dev} (h : a.hostOnly b) {x : Nat} (hx : x ≠ C.hptTxSeg) : b.word x = a.word x := h.2.2.1 x hx

/-- What settles on the host side touches no memory. -/
theorem State.memoriesStand_of_hostOnly {s t : State} (h : s.dev.hostOnly t.dev) : s.memoriesStand t := by
  have hddr : t.dev.ddr = s.dev.ddr := (congrArg Dev.ddr h.1 :)
  have hnor : t.dev.nor = s.dev.nor := (congrArg Dev.nor h.1 :)
  have hferam : t.dev.feram = s.dev.feram := (congrArg Dev.feram h.1 :)
  have hcob : t.dev.cobMem = s.dev.cobMem := (congrArg Dev.cobMem h.1 :)
  simp [State.memoriesStand, hddr, hnor, hferam, hcob]

theorem State.memoriesStand_store (s : State) (a : Nat) (value mask : Word) :
    s.memoriesStand { s with dev := s.dev.store a value mask } := by
  obtain e | ⟨w, e⟩ := s.dev.store_eq_putWord a value mask <;> simp [State.memoriesStand, e]

theorem State.memoriesStand_trans {s t u : State} (h : s.memoriesStand t) (k : t.memoriesStand u) : s.memoriesStand u := by
  obtain ⟨hddr, hnor, hferam, hcob⟩ := h
  obtain ⟨kddr, knor, kferam, kcob⟩ := k
  exact ⟨fun a => (kddr a).trans (hddr a), fun a => (knor a).trans (hnor a), fun a => (kferam a).trans (hferam a),
    fun a => (kcob a).trans (hcob a)⟩

/-- REGISTER_WRITE that is refused: only credit follows. -/
theorem runs_registerWrite_refused {s : State} {p : Path} {addr : BitVec 24} {value mask : Word} (hcalm : s.dev.calm = true)
    (hmay : s.dev.mayWrite p addr.toNat value mask = false) :
    Runs (.registerWrite p addr value mask) s fun t => s.dev.hostOnly t.dev := by
  refine ⟨_, exec_registerWrite p addr value mask s, ?_⟩
  have e : s.dev.registerWrite p addr.toNat value mask = s.dev := by
    simp [Dev.registerWrite, s.dev.writeReg_refused p _ value mask hmay]
  rw [e]
  exact s.dev.hostOnly_hostSettle hcalm

/-- REGISTER_WRITE that is accepted and has no further effect: the fields are stored, and only credit follows. -/
theorem runs_registerWrite_stored {s : State} {p : Path} {addr : BitVec 24} {value mask : Word}
    (hup : s.dev.pathUp p = true) (hcalm : s.dev.calm = true) (hmay : s.dev.mayWrite p addr.toNat value mask = true)
    (haddr : addr.toNat ≠ 0x0E0001)
    (hacts : (s.dev.store addr.toNat value mask).writeActs addr.toNat value mask (s.dev.word addr.toNat)
      = s.dev.store addr.toNat value mask) :
    Runs (.registerWrite p addr value mask) s fun t => (s.dev.store addr.toNat value mask).hostOnly t.dev := by
  refine ⟨_, exec_registerWrite p addr value mask s, ?_⟩
  have e : s.dev.registerWrite p addr.toNat value mask = s.dev.store addr.toNat value mask := by
    simp [Dev.registerWrite, hup, s.dev.writeReg_accepted p value mask hmay haddr, hacts]
  rw [e]
  exact Dev.hostOnly_hostSettle _ (by rw [Dev.calm_store, hcalm])

/-- The count of sent segments has no field that a write may set. -/
theorem rowOf_hptTxSeg_not_plain {r : RegRow} {f : FieldRow} (hr : rowOf C.hptTxSeg = some r) (hf : f ∈ r.fields) :
    ¬ f.acc.plain := by
  have hro : (rowOf C.hptTxSeg).all (fun r => r.fields.all fun f => f.acc == .ro) = true := by decide
  rw [hr] at hro
  have hacc : f.acc = .ro := by simpa using List.all_eq_true.mp hro f hf
  simp [Access.plain, hacc]

/-- RC_FIELD_READ that is served answers the value and clears what the read clears. -/
theorem Dev.rcRead_served (d : Dev) {p : Path} {a : Nat} (hup : d.pathUp p = true) (hmay : d.mayRead p a = true) :
    d.rcRead p a = (d.clearRead a).emit (.regRead p a (d.readReg a)) := by
  simp [Dev.rcRead, hup, Dev.readOn, hmay]

/-! ## The statements -/

/-- Settles O5: a read shows only bits of fields, a write folds over the fields alone, and an address without a row is refused. -/
theorem reservedReadsZero : Obligations.ReservedReadsZero := by
  intro d a
  refine ⟨fun hnone => ⟨?_, fun p v m => ?_⟩, fun r i hr hres => ⟨?_, fun w v m => ?_⟩⟩
  · simp [Dev.readReg, hnone]
  · exact d.writeReg_refused p a v m (by simp [Dev.mayWrite, hnone])
  · simp [Dev.readReg, hr, r.getLsbD_shown_outside hres]
  · exact getLsbD_foldl_write_outside r.fields w v m hres

/-- Settles O6: by the two outcomes of a write, refused or stored, after each of which only credit follows. -/
theorem registerWriteWholeOrNot : Obligations.RegisterWriteWholeOrNot := by
  intro s p addr value mask hup hcalm
  constructor
  · intro hmay
    obtain ⟨t, ht, hhost⟩ := runs_registerWrite_refused hcalm hmay
    exact ⟨t, ht, fun x hx => Dev.hostOnly_word hhost (by simpa using hx),
      State.memoriesStand_of_hostOnly hhost, Dev.hostOnly_glb hhost⟩
  · intro hmay haddr hacts
    simp only [List.mem_cons, List.not_mem_nil, or_false, not_or] at haddr
    obtain ⟨t, ht, hhost⟩ := runs_registerWrite_stored hup hcalm hmay haddr.1 hacts
    refine ⟨t, ht, Dev.hostOnly_word hhost haddr.2, fun x hx => ?_, ?_⟩
    · simp only [List.mem_cons, List.not_mem_nil, or_false, not_or] at hx
      rw [Dev.hostOnly_word hhost hx.2, s.dev.word_store_other value mask hx.1]
    · exact State.memoriesStand_trans (s.memoriesStand_store addr.toNat value mask)
        (State.memoriesStand_of_hostOnly hhost)

/-- Settles O7: the fields of a register share no bit, so that the field which holds a bit decides it. -/
theorem plainFieldTakesBits : Obligations.PlainFieldTakesBits := by
  intro s p addr value mask r f i hup hcalm hmay haddr hr hf hacc hrange hcross htarget hacts hlo hhi h48
  obtain ⟨t, ht, hhost⟩ := runs_registerWrite_stored hup hcalm hmay haddr (hacts _ _)
  have hseg : addr.toNat ≠ C.hptTxSeg := fun e => rowOf_hptTxSeg_not_plain (e ▸ hr) hf hacc
  refine ⟨t, ht, ?_⟩
  dsimp only
  rw [Dev.hostOnly_word hhost hseg, s.dev.word_store_unclamped value mask hr hrange hcross htarget]
  exact r.getLsbD_write_plain _ value mask f (rowOf_mem hr) hf hacc (f.getLsbD_mask_eq_true hlo hhi h48)

/-- Settles O8: a read resets the RC fields of its register one after another, and those share no bit. -/
theorem readClears : Obligations.ReadClears := by
  intro s p addr r f hup hmay hr hf hacc hpool hlohi h48 hapart
  have hclear := s.dev.clearRead_eq_resetFields hr hpool
  have hrest : ∀ g ∈ r.fields.filter (fun f => f.acc == .rc), g = f ∨ (g.at_ addr.toNat).apart (f.at_ addr.toNat) = true := by
    intro g hg
    obtain ⟨hg, hrc⟩ := List.mem_filter.mp hg
    have h := List.all_eq_true.mp hapart g hg
    simp only [Bool.or_eq_true, Bool.and_eq_true, decide_eq_true_eq, bne_iff_ne, beq_iff_eq.mp hrc, ne_eq, not_true,
      or_false] at h
    exact h.imp id fun ⟨hg, hends⟩ => f.at_apart g addr.toNat hlohi hg hends
  have hmem : f ∈ r.fields.filter (fun f => f.acc == .rc) := List.mem_filter.mpr ⟨hf, by simp [hacc]⟩
  refine ⟨_, exec_rcFieldRead p addr s, ?_⟩
  rw [s.dev.rcRead_served hup hmay, hclear]
  refine ⟨?_, fun x hx => ?_, ?_⟩
  · exact s.dev.get_resetFields_same addr.toNat f _ (f.at_fits _ hlohi h48) hrest hmem
  · exact s.dev.word_resetFields_other _ (by simpa using hx)
  · rw [s.dev.resetFields_onlyRegs]
    rfl

end Sys2Proof.Machine
end

section
/-!
SUPPORT. What a reset leaves (R26, R469, R561): the NOR but for the bytes of an operation cut short, FeRAM and the levels at the balls.
-/
namespace Sys2Proof.Machine

/-! ## A NOR operation cut short -/

/-- The addresses that a NOR operation in progress is writing (R469, R500). -/
def Dev.torn (d : Dev) (a : Nat) : Prop :=
  ∃ op, d.glb.norOp = some op ∧ op.addr ≤ a ∧ (op.op = 1 ∧ a < op.addr + 256 ∨ op.op = 2 ∧ a < op.addr + 65536)

@[simp] theorem Dev.tearNor_feram (d : Dev) : d.tearNor.feram = d.feram := by unfold Dev.tearNor; split <;> rfl
@[simp] theorem Dev.tearNor_regs (d : Dev) : d.tearNor.regs = d.regs := by unfold Dev.tearNor; split <;> rfl
@[simp] theorem Dev.tearNor_pin (d : Dev) : d.tearNor.pin = d.pin := by unfold Dev.tearNor; split <;> rfl

/-- Of block GLB only the operation itself goes. -/
@[simp] theorem Dev.tearNor_glb (d : Dev) : d.tearNor.glb = { d.glb with norOp := none } := by
  unfold Dev.tearNor
  split
  · rfl
  · next h => rw [← h]

@[simp] theorem Dev.get_tearNor (d : Dev) (f : Fld) : d.tearNor.get f = d.get f := by simp [Dev.get, Dev.word]

/-- A byte that the operation was not writing stands. -/
theorem Dev.tearNor_nor_byte (d : Dev) {a : Nat} (h : ¬ d.torn a) :
    d.tearNor.nor.byte erasedByte a = d.nor.byte erasedByte a := by
  unfold Dev.tearNor
  split
  next op addr page hop =>
    have hout : ¬ (addr ≤ a ∧ a < addr + if op = 1 then 256 else if op = 2 then 65536 else 0) := by
      rintro ⟨hlo, hhi⟩
      refine h ⟨_, hop, hlo, ?_⟩
      by_cases h1 : op = 1
      · exact .inl ⟨h1, by simpa [h1] using hhi⟩
      · by_cases h2 : op = 2
        · exact .inr ⟨h2, by simpa [h2] using hhi⟩
        · simp only [h1, h2, if_false] at hhi
          omega
    simp only [Dev.putNor, Memory.byte_storeAll, List.length_map, List.length_range, if_neg hout]
  next => rfl

/-! ## The resets -/

theorem Dev.get_lt (d : Dev) (f : Fld) : d.get f < 2 ^ f.width := Nat.mod_lt _ (Nat.two_pow_pos _)

/-- What stands after a reset of every unit, and what is gone (R26, R469, R561). -/
def Dev.resetKeeps (d e : Dev) : Prop :=
  (∀ a, ¬ d.torn a → e.nor.byte erasedByte a = d.nor.byte erasedByte a) ∧ e.feram = d.feram ∧ e.ddr = [] ∧ e.hpt.conns = []
    ∧ e.cqm.cmds = [] ∧ e.glb.dev = .startUp

/-- A device that holds the torn NOR, FeRAM and otherwise what VAON leaves, but for words, outputs and balls. -/
theorem Dev.resetKeeps_of_reset (d e : Dev) (hnor : e.nor = d.tearNor.nor) (hferam : e.feram = d.tearNor.feram)
    (hddr : e.ddr = []) (hhpt : e.hpt = Hpt.reset) (hcqm : e.cqm = Cqm.reset) (hdev : e.glb.dev = .startUp) :
    d.resetKeeps e :=
  ⟨fun a ha => by rw [hnor, d.tearNor_nor_byte ha], by rw [hferam, d.tearNor_feram], hddr, by rw [hhpt]; rfl, by rw [hcqm]; rfl, hdev⟩

theorem Dev.fullReset_eq (d : Dev) : ∃ pin regs out, d.fullReset
    = { Dev.reset with nor := d.nor, feram := d.feram, freeIx := d.freeIx, pin := pin, regs := regs, out := out } := by
  unfold Dev.fullReset
  dsimp only
  split <;> exact ⟨_, _, _, rfl⟩

/-- The levels at the balls stand through a full reset (R469). -/
theorem Dev.get_gpioIn_fullReset (d : Dev) : d.fullReset.get F.pinGpioInIn = d.get F.pinGpioInIn := by
  unfold Dev.fullReset
  dsimp only
  rw [apply_ite (Dev.get · F.pinGpioInIn), Dev.get_emit, ite_self, Dev.get_set_other _ _ _ _ (by decide),
    Dev.get_set_same _ _ _ (by decide), Nat.mod_eq_of_lt (d.get_lt _)]

/-- Words that a reset keeps are copied and nothing else. -/
theorem Dev.foldl_putWord_eq (d r : Dev) (as : List Nat) : ∃ regs, as.foldl (fun r a => r.putWord a (d.word a)) r = { r with regs := regs } := by
  induction as generalizing r with
  | nil => exact ⟨r.regs, rfl⟩
  | cons a as ih =>
    obtain ⟨regs, h⟩ := ih (r.putWord a (d.word a))
    exact ⟨regs, by rw [List.foldl_cons, h]; rfl⟩

/-- A reset of the units keeps the always-on domain and what is outside every unit. -/
theorem Dev.resetUnits_eq (d : Dev) (keep : List Nat) : ∃ regs, d.resetUnits keep
    = { Dev.reset with
        nor := d.tearNor.nor, feram := d.feram, freeIx := d.tearNor.freeIx, out := d.tearNor.out, pin := d.pin, regs := regs
        glb := { d.glb with maintConn := none, beforeMaint := .idle, standbyHeld := false, warnArmed := true, wasCrit := false,
                            wdogTimes := [], norOp := none } } := by
  unfold Dev.resetUnits
  dsimp only
  obtain ⟨regs, h⟩ := Dev.foldl_putWord_eq d.tearNor { Dev.reset with
    nor := d.tearNor.nor, feram := d.tearNor.feram, freeIx := d.tearNor.freeIx, out := d.tearNor.out, pin := d.tearNor.pin
    glb := { d.tearNor.glb with maintConn := none, beforeMaint := .idle, standbyHeld := false, warnArmed := true, wasCrit := false,
                                wdogTimes := [] } } (F.glbBootSlot.addr :: keep)
  rw [h]
  simp only [Dev.tearNor_feram, Dev.tearNor_pin, Dev.tearNor_glb]
  exact ⟨_, rfl⟩

/-- Settles O16: each reset tears the NOR operation in progress and builds the device anew from the memories that keep their bytes. -/
theorem resetsLeaveNonvolatile : Obligations.ResetsLeaveNonvolatile := by
  intro s
  refine ⟨⟨_, rfl, ?_⟩, ⟨_, rfl, ?_⟩, fun hstandby hporst hbrown => ⟨_, rfl, ?_⟩⟩
  · obtain ⟨pin, regs, out, h⟩ := s.dev.tearNor.fullReset_eq
    have hlevels : s.dev.porstAssert.get F.pinGpioInIn = s.dev.get F.pinGpioInIn := by
      rw [Dev.porstAssert, Dev.get_gpioIn_fullReset, Dev.get_tearNor]
    have h : s.dev.porstAssert = _ := h
    exact ⟨s.dev.resetKeeps_of_reset _ (by rw [h]) (by rw [h]) (by rw [h]; rfl) (by rw [h]; rfl) (by rw [h]; rfl) (by rw [h]; rfl),
      by rw [h]; rfl, hlevels⟩
  · exact ⟨s.dev.resetKeeps_of_reset _ rfl rfl rfl rfl rfl rfl, rfl, rfl⟩
  · obtain ⟨regs, h⟩ := s.dev.resetUnits_eq []
    have hbrownOut : s.dev.brownOut = { s.dev.unitReset with glb := { s.dev.unitReset.glb with brownOut := true } } := by
      simp [Dev.brownOut, hstandby, hporst, hbrown]
    rw [Dev.unitReset, h] at hbrownOut
    exact ⟨s.dev.resetKeeps_of_reset _ (by rw [hbrownOut]; rfl) (by rw [hbrownOut]; exact s.dev.tearNor_feram.symm) (by rw [hbrownOut]; rfl) (by rw [hbrownOut]; rfl)
      (by rw [hbrownOut]; rfl) (by rw [hbrownOut]; rfl), by rw [hbrownOut], by rw [hbrownOut]; rfl, by rw [hbrownOut]; rfl⟩

end Sys2Proof.Machine
end

section
/-!
SUPPORT. A command that is alone and completes with GOOD: what the host is told, and that only credit follows (R300, R305, R286).
-/
namespace Sys2Proof.Machine

variable {d : Dev} {c : Cmd} {k : Conn} {q : Queue}

theorem Dev.alone_calm (h : d.alone c k q) : d.calm = true := by
  obtain ⟨-, -, -, -, -, hconns, hst, -, hheld⟩ := h
  simp [Dev.calm, hconns, hst, hheld]

theorem Dev.calm_afterGood (h : d.alone c k q) (e : Dev) (he : e.glb = d.glb) (already : Bool) (detail : List Byte) :
    (e.afterGood c k already detail).calm = true := by
  obtain ⟨-, -, -, -, -, -, hst, -, hheld⟩ := h
  simp [Dev.calm, Dev.afterGood, hst, he, hheld]

/-- After the only command has completed with GOOD, only credit follows. -/
theorem Dev.hostOnly_finish_alone (h : d.alone c k q) (already : Bool) (detail : List Byte) :
    ((d.releaseAll c.data ownHostRx).afterGood c k already detail).hostOnly (d.finish c.h stGood detail already).hostSettle := by
  rw [d.finish_alone c k q already detail h]
  exact Dev.hostOnly_hostSettle _
    (Dev.calm_afterGood h _ (by rw [Dev.releaseAll_pools]) already detail)

theorem Dev.hostOnly_cqm {a b : Dev} (h : a.hostOnly b) : b.cqm = a.cqm := (congrArg Dev.cqm h.1 :)

theorem Dev.hostOnly_get {a b : Dev} (h : a.hostOnly b) {f : Fld} (hf : f.addr ≠ C.hptTxSeg) : b.get f = a.get f := by
  simp [Dev.get, Dev.hostOnly_word h hf]

/-- What stands of a connection through credit: its number and its messages. -/
theorem Dev.hostOnly_msgs {α : Type} {a b : Dev} (h : a.hostOnly b) (f : Nat → List Msg → α) :
    (b.hpt.conns.map fun k => f k.id k.msgs) = a.hpt.conns.map fun k => f k.id k.msgs := by
  have hcore := congrArg (List.map fun k : Conn => f k.id k.msgs) h.2.1
  simpa [List.map_map, Function.comp_def, Conn.core] using hcore

/-- The host is told GOOD where the completed command is followed by nothing but credit. -/
theorem State.toldGood_of_afterGood {e : Dev} {t : State} {d₀ : Dev} {already : Bool} {detail : List Byte}
    (hflag : e.flag F.plcStatusEwSeen = d₀.flag F.plcStatusEwSeen) (h : (e.afterGood c k already detail).hostOnly t.dev) :
    t.toldGood d₀ c k already detail := by
  refine ⟨by rw [Dev.hostOnly_cqm h]; rfl, ?_⟩
  rw [Dev.hostOnly_msgs h fun i ms => (i, ms.getLast?.map fun m => (m.typ, m.payload.head, m.status))]
  simp [Dev.afterGood, hflag, Payload.onDie]

theorem Dev.releaseAll_regs (d : Dev) (hs : List Nat) (o : Nat) : (d.releaseAll hs o).regs = d.regs := by
  rw [Dev.releaseAll_pools]

/-- A command that is alone and completes with GOOD tells so. -/
theorem State.toldGood_finish (h : d.alone c k q) (s : State) (d₀ : Dev) (hflag : d.flag F.plcStatusEwSeen = d₀.flag F.plcStatusEwSeen)
    (already : Bool) (detail : List Byte) :
    ({ s with dev := (d.finish c.h stGood detail already).hostSettle } : State).toldGood d₀ c k already detail := by
  refine State.toldGood_of_afterGood (e := d.releaseAll c.data ownHostRx) ?_ (Dev.hostOnly_finish_alone h already detail)
  rw [← hflag]
  simp [Dev.flag, Dev.get, Dev.word, Dev.releaseAll_regs]

/-- Completion with GOOD touches commands, the host side, the pools, outputs, and of the register file the count of segments. -/
def Dev.completed (d e : Dev) : Prop :=
  e = { d with cqm := e.cqm, hpt := e.hpt, pools := e.pools, regs := e.regs, out := e.out } ∧ ∀ x, x ≠ C.hptTxSeg → e.word x = d.word x

theorem Dev.completed_finish (h : d.alone c k q) (already : Bool) (detail : List Byte) :
    d.completed (d.finish c.h stGood detail already).hostSettle := by
  obtain hh := Dev.hostOnly_finish_alone h already detail
  rw [Dev.releaseAll_pools] at hh
  exact ⟨by rw [hh.1]; rfl, fun x hx => Dev.hostOnly_word hh hx⟩

/-- No byte of a memory changes when a lone command completes with GOOD. -/
theorem State.memoriesStand_finish (h : d.alone c k q) (s : State) (hs : s.memoriesStand { s with dev := d }) (already : Bool)
    (detail : List Byte) : s.memoriesStand { s with dev := (d.finish c.h stGood detail already).hostSettle } := by
  rw [(Dev.completed_finish h already detail).1]
  exact hs

end Sys2Proof.Machine
end

section
/-!
SUPPORT. The straps, and a cobbler whose firmware runs and that owes no log entry (R17, R520): what follows a command on the host side
leaves both as they are.
-/
namespace Sys2Proof.Machine

/-- The cobbler's firmware runs, and no log entry waits for it. -/
def Dev.cobblerUp (d : Dev) : Prop := d.get F.glbCobblerRestarting = 0 ∧ d.cqm.owed = []

/-- The straps stand, and a cobbler that is up stays so. -/
def Dev.staysUp (a b : Dev) : Prop := b.glb.straps = a.glb.straps ∧ (a.cobblerUp → b.cobblerUp)

theorem Dev.staysUp_refl (d : Dev) : d.staysUp d := ⟨rfl, id⟩

theorem Dev.staysUp_trans {a b c : Dev} (h : a.staysUp b) (k : b.staysUp c) : a.staysUp c := ⟨k.1.trans h.1, k.2 ∘ h.2⟩

theorem Dev.staysUp_foldl {α : Type} (f : Dev → α → Dev) (h : ∀ d x, Dev.staysUp d (f d x)) (l : List α) (d : Dev) :
    d.staysUp (l.foldl f d) :=
  List.foldlRecOn (motive := fun e => Dev.staysUp d e) l f d.staysUp_refl fun e he x _ => Dev.staysUp_trans he (h e x)

/-- A word of another register is written. -/
theorem Dev.staysUp_putWord (d : Dev) {a : Nat} (w : Word) (h : F.glbCobblerRestarting.addr ≠ a) : d.staysUp (d.putWord a w) :=
  ⟨rfl, fun ⟨hget, howed⟩ => ⟨by rw [Dev.get, d.word_putWord_other w h]; exact hget, howed⟩⟩

theorem Dev.staysUp_set (d : Dev) (f : Fld) (v : Nat) (h : F.glbCobblerRestarting.addr ≠ f.addr) : d.staysUp (d.set f v) :=
  d.staysUp_putWord _ h

theorem Dev.staysUp_bump (d : Dev) {a : Nat} (h : F.glbCobblerRestarting.addr ≠ a) : d.staysUp (d.bump a) := d.staysUp_putWord _ h

theorem Dev.staysUp_releaseAll (d : Dev) (hs : List Nat) (o : Nat) : d.staysUp (d.releaseAll hs o) := by
  rw [Dev.releaseAll_pools]
  exact ⟨rfl, id⟩

theorem Dev.staysUp_ite {d a b : Dev} {p : Prop} [Decidable p] (ha : d.staysUp a) (hb : d.staysUp b) : d.staysUp (if p then a else b) := by
  split
  · exact ha
  · exact hb

theorem Dev.staysUp_modConn (d : Dev) (c : Nat) (f : Conn → Conn) : d.staysUp (d.modConn c f) := ⟨rfl, id⟩
theorem Dev.staysUp_modQueue (d : Dev) (q : Nat) (f : Queue → Queue) : d.staysUp (d.modQueue q f) := ⟨rfl, id⟩
theorem Dev.staysUp_modCmd (d : Dev) (h : Nat) (f : Cmd → Cmd) : d.staysUp (d.modCmd h f) := ⟨rfl, id⟩
theorem Dev.staysUp_mapCmds (d : Dev) (f : Cmd → Cmd) : d.staysUp (d.mapCmds f) := ⟨rfl, id⟩
theorem Dev.staysUp_dropCmds (d : Dev) (p : Cmd → Bool) : d.staysUp (d.dropCmds p) := ⟨rfl, id⟩
theorem Dev.staysUp_sendMsg (d : Dev) (c typ cls : Nat) (p : Payload) (len : Nat) (status : Option Nat) (bufs : List Nat) :
    d.staysUp (d.sendMsg c typ cls p len status bufs) := ⟨rfl, id⟩

theorem Dev.staysUp_dropSideband (d : Dev) : d.staysUp d.dropSideband := ⟨rfl, id⟩

/-! ## The log -/

theorem Dev.staysUp_log (d : Dev) (e : LogEntry) : d.staysUp (d.log e) := by
  unfold Dev.log
  dsimp only
  split
  · exact Dev.staysUp_trans (b := { d with cqm := _ }) ⟨rfl, id⟩ (Dev.staysUp_bump _ (by decide))
  · exact ⟨rfl, id⟩

theorem Dev.staysUp_notice (d : Dev) (code : Nat) (es : List (List Byte)) : d.staysUp (d.notice code es) :=
  Dev.staysUp_foldl _ (fun e (k : Conn) => e.staysUp_sendMsg k.id typNotice 4 _ _ none []) _ _

theorem Dev.staysUp_event (d : Dev) (code : Nat) : d.staysUp (d.event code) :=
  Dev.staysUp_trans (d.staysUp_log _) (Dev.staysUp_notice _ _ _)

/-! ## Sending -/

theorem Dev.staysUp_of_hostOnly {a b : Dev} (h : a.hostOnly b) : a.staysUp b := by
  refine ⟨by rw [Dev.hostOnly_glb h], fun ⟨hget, howed⟩ => ⟨?_, by rw [Dev.hostOnly_cqm h, howed]⟩⟩
  rw [Dev.get, Dev.hostOnly_word h (by decide)]
  exact hget

theorem Dev.staysUp_sendCtrl (d : Dev) (s : Seg) (flow : Word) : d.staysUp (d.sendCtrl s flow) := by
  unfold Dev.sendCtrl
  split
  · exact Dev.staysUp_of_hostOnly (d.hostOnly_wire s flow 4)
  · exact Dev.staysUp_of_hostOnly (Dev.hostOnly_trans (d.hostOnly_ctrl _) (Dev.hostOnly_solicitIf ..))

theorem Dev.staysUp_sendDesc (d : Dev) (c i : Nat) : d.staysUp (d.sendDesc c i) := by
  unfold Dev.sendDesc
  split
  next => exact d.staysUp_refl
  split
  next => exact d.staysUp_refl
  dsimp only
  have hwire := fun k s cls => Dev.staysUp_of_hostOnly (d.hostOnly_wireOf k s cls)
  refine Dev.staysUp_trans ?_ (Dev.staysUp_modConn _ _ _)
  exact Dev.staysUp_ite (hwire _ _ _) (Dev.staysUp_trans (hwire _ _ _) (Dev.staysUp_bump _ (by decide)))

theorem Dev.staysUp_sendNext (d : Dev) (c : Nat) : d.staysUp (d.sendNext c) := by
  unfold Dev.sendNext
  refine Dev.staysUp_trans (d.staysUp_modConn c Conn.skipSacked) ?_
  dsimp only
  split
  next => exact Dev.staysUp_refl _
  split
  next => exact Dev.staysUp_refl _
  exact Dev.staysUp_ite (Dev.staysUp_trans (Dev.staysUp_sendDesc _ c _) (Dev.staysUp_modConn _ _ _)) (Dev.staysUp_refl _)

/-! ## Connections that close -/

theorem Dev.staysUp_closeHead (d : Dev) (s : Nat) : d.staysUp (d.closeHead s) := by
  unfold Dev.closeHead
  dsimp only
  split
  · exact d.staysUp_refl
  · exact Dev.staysUp_trans (b := { d with tce := _ }) ⟨rfl, id⟩ (Dev.staysUp_set _ _ _ (by decide))

theorem Dev.staysUp_goState (d : Dev) (st : DevState) : d.staysUp (d.goState st) := by
  unfold Dev.goState
  split
  · exact d.staysUp_refl
  · dsimp only
    split <;> exact ⟨rfl, id⟩

theorem Dev.staysUp_endMaint (d : Dev) : d.staysUp d.endMaint := by
  unfold Dev.endMaint
  split
  · refine Dev.staysUp_trans (b := { d with glb := { d.glb with maintConn := none } }) ⟨rfl, id⟩ ?_
    dsimp only
    split
    · exact Dev.staysUp_trans (Dev.staysUp_goState _ _) (Dev.staysUp_trans (Dev.staysUp_closeHead _ 1) (Dev.staysUp_closeHead _ 0))
    · exact Dev.staysUp_goState _ _
  · exact d.staysUp_refl

theorem Dev.staysUp_discardOrphan (d : Dev) (q : Queue) : d.staysUp (d.discardOrphan q) := by
  unfold Dev.discardOrphan
  extract_lets told gone freed logged dropped
  have htold : d.staysUp told :=
    Dev.staysUp_foldl _ (fun e m => Dev.staysUp_trans (e.staysUp_log _) (Dev.staysUp_releaseAll _ _ _)) q.kept d
  have hfreed : d.staysUp freed := Dev.staysUp_trans htold
    (Dev.staysUp_foldl _ (fun e c => Dev.staysUp_trans (e.staysUp_releaseAll _ _) (Dev.staysUp_bump _ (by decide))) _ _)
  have hdropped : d.staysUp dropped := Dev.staysUp_trans hfreed (Dev.staysUp_trans (Dev.staysUp_log _ _) (Dev.staysUp_dropCmds _ _))
  exact Dev.staysUp_trans hdropped ⟨rfl, id⟩

theorem Dev.staysUp_orphan (d : Dev) (q : Queue) (kept : List Msg) (status : Nat) : d.staysUp (d.orphan q kept status) := by
  unfold Dev.orphan
  extract_lets older held frozen logged now left
  have holder : d.staysUp older := Dev.staysUp_foldl _ Dev.staysUp_discardOrphan _ d
  have hheld : d.staysUp held := Dev.staysUp_trans holder (Dev.staysUp_trans (Dev.staysUp_modQueue _ _ _) (Dev.staysUp_mapCmds _ _))
  have hfrozen : d.staysUp frozen := Dev.staysUp_ite holder <|
    Dev.staysUp_trans hheld <| Dev.staysUp_trans (Dev.staysUp_log _ _) (Dev.staysUp_bump _ (by decide))
  have hleft : d.staysUp left := Dev.staysUp_trans hfrozen <|
    Dev.staysUp_trans (Dev.staysUp_trans (Dev.staysUp_log _ _) (Dev.staysUp_bump _ (by decide))) (Dev.staysUp_modQueue _ _ _)
  refine Dev.staysUp_ite ?_ hleft
  split
  · exact Dev.staysUp_trans hleft (Dev.staysUp_discardOrphan _ _)
  · exact hleft

theorem Dev.staysUp_closeConn (d : Dev) (c status : Nat) : d.staysUp (d.closeConn c status) := by
  unfold Dev.closeConn
  split
  next => exact d.staysUp_refl
  next k _ =>
    extract_lets freed other _ hpt gone ended released
    have hgone : d.staysUp gone := Dev.staysUp_trans (d.staysUp_releaseAll _ _) ⟨rfl, id⟩
    have hended : d.staysUp ended := Dev.staysUp_ite (Dev.staysUp_trans hgone gone.staysUp_endMaint) hgone
    split
    · exact hended
    · exact Dev.staysUp_ite (Dev.staysUp_trans hended (Dev.staysUp_orphan _ _ _ _))
        (Dev.staysUp_trans hended (Dev.staysUp_trans (b := released) (Dev.staysUp_releaseAll _ _ _) ⟨rfl, id⟩))

theorem Dev.staysUp_resetConn (d : Dev) (c reason : Nat) : d.staysUp (d.resetConn c reason) := by
  unfold Dev.resetConn
  split
  · exact d.staysUp_refl
  · exact Dev.staysUp_trans (d.staysUp_sendCtrl _ _) (Dev.staysUp_trans (Dev.staysUp_bump _ (by decide)) (Dev.staysUp_closeConn _ _ _))

/-! ## A transmit FIFO is sent -/

theorem Dev.staysUp_fault (d : Dev) (f : Fld) (h : F.glbCobblerRestarting.addr ≠ f.addr) : d.staysUp (d.fault f) := by
  unfold Dev.fault
  dsimp only
  split
  · exact Dev.staysUp_trans (d.staysUp_set f 1 h) ⟨rfl, id⟩
  · exact d.staysUp_set f 1 h

theorem Dev.staysUp_memoryError (d : Dev) (a : Nat) : d.staysUp (d.memoryError a) :=
  Dev.staysUp_trans (d.staysUp_bump (by decide)) <| Dev.staysUp_trans (Dev.staysUp_set _ _ _ (by decide)) <|
    Dev.staysUp_trans (Dev.staysUp_set _ _ _ (by decide)) <|
    Dev.staysUp_trans (Dev.staysUp_fault _ _ (by decide)) (Dev.staysUp_event _ _)

theorem Dev.staysUp_txFault (d : Dev) (c : Nat) : d.staysUp (d.txFault c) :=
  Dev.staysUp_trans (d.staysUp_event _) (Dev.staysUp_resetConn _ _ _)

theorem Dev.staysUp_txPoisoned (d : Dev) (k : Conn) (x : Desc) (a : Nat) : d.staysUp (d.txPoisoned k x a) := by
  unfold Dev.txPoisoned
  refine Dev.staysUp_trans (d.staysUp_memoryError a) ?_
  dsimp only
  split
  · exact Dev.staysUp_trans (Dev.staysUp_log _ _) <| Dev.staysUp_trans (Dev.staysUp_releaseAll _ _ _) <|
      Dev.staysUp_trans (Dev.staysUp_modConn _ _ _) (Dev.staysUp_txFault _ _)
  · exact Dev.staysUp_txFault _ _

theorem Dev.staysUp_sendFrom (d : Dev) (c : Nat) : d.staysUp (d.sendFrom c) := by
  unfold Dev.sendFrom
  split
  next => exact d.staysUp_refl
  split
  next => exact d.staysUp_sendNext c
  split
  next => exact d.staysUp_sendNext c
  split
  · exact d.staysUp_txPoisoned _ _ _
  · exact d.staysUp_sendNext c

theorem Dev.staysUp_resend (c n : Nat) : ∀ d : Dev, d.staysUp (d.resend c n) := by
  induction n with
  | zero => exact Dev.staysUp_refl
  | succ n ih => exact fun d => Dev.staysUp_trans (d.staysUp_sendFrom c) (ih _)

theorem Dev.staysUp_sendAll (d : Dev) (c : Nat) : d.staysUp (d.sendAll c) := by
  unfold Dev.sendAll
  refine Dev.staysUp_trans (b := d.fillTx c) ⟨rfl, id⟩ ?_
  dsimp only
  split
  · exact Dev.staysUp_resend _ _ _
  · exact Dev.staysUp_refl _

/-! ## Standby -/

/-- A word that a reset of the units does not keep is as at reset. -/
theorem Dev.word_resetUnits (d : Dev) {keep : List Nat} {x : Nat} (hkeep : x ∉ F.glbBootSlot.addr :: keep)
    (hset : x ∉ [F.pinGpioInIn.addr, F.casStatusFcIn.addr, F.glbThermalTripSeen.addr]) : (d.resetUnits keep).word x = resetWord x := by
  simp only [List.mem_cons, List.not_mem_nil, or_false, not_or] at hset
  unfold Dev.resetUnits
  dsimp only
  rw [Dev.word_set_other _ _ _ hset.2.2, Dev.word_set_other _ _ _ hset.2.1, Dev.word_set_other _ _ _ hset.1]
  refine List.foldlRecOn (motive := fun r : Dev => r.word x = resetWord x) _ _ rfl fun r hr a ha => ?_
  rw [Dev.word_putWord_other _ _ (by rintro rfl; exact hkeep ha), hr]

theorem Dev.cobblerUp_resetUnits (d : Dev) {keep : List Nat} (h : F.glbCobblerRestarting.addr ∉ F.glbBootSlot.addr :: keep) :
    (d.resetUnits keep).cobblerUp := by
  obtain ⟨regs, e⟩ := d.resetUnits_eq keep
  refine ⟨?_, by rw [e]; rfl⟩
  rw [Dev.get, d.word_resetUnits h (by decide)]
  decide +kernel

theorem Dev.staysUp_resetAllConns (d : Dev) : d.staysUp d.resetAllConns :=
  Dev.staysUp_foldl _ (fun e _ => Dev.staysUp_trans (e.staysUp_sendCtrl _ _) (Dev.staysUp_bump _ (by decide))) _ _

/-- Frames to the modules change what block HFM has sent and the outputs (R133, R134). -/
def Dev.hfmOnly (d e : Dev) : Prop := e = { d with chan := e.chan, out := e.out }

theorem Dev.hfmOnly_trans {a b c : Dev} (h : a.hfmOnly b) (k : b.hfmOnly c) : a.hfmOnly c := by rw [Dev.hfmOnly, k, h]

theorem Dev.hfmOnly_hfmWrite (d : Dev) (m addr data : Nat) : d.hfmOnly (d.hfmWrite m addr data) := rfl

theorem Dev.hfmOnly_disableChannels (d : Dev) : d.hfmOnly d.disableChannels := by
  unfold Dev.disableChannels
  extract_lets sent
  have hsent : d.hfmOnly sent := by
    refine List.foldlRecOn (motive := fun e : Dev => d.hfmOnly e) _ _ ?_ fun e he m _ => ?_
    · rfl
    · exact Dev.hfmOnly_trans he (Dev.hfmOnly_trans (e.hfmOnly_hfmWrite m 4 0) (Dev.hfmOnly_hfmWrite _ m 5 0))
  exact Dev.hfmOnly_trans hsent rfl

theorem Dev.staysUp_of_hfmOnly {d e : Dev} (h : d.hfmOnly e) : d.staysUp e := by
  rw [h]
  exact ⟨rfl, id⟩

theorem Dev.resetUnits_straps (d : Dev) (keep : List Nat) : (d.resetUnits keep).glb.straps = d.glb.straps := by
  obtain ⟨regs, e⟩ := d.resetUnits_eq keep
  rw [e]

theorem Dev.staysUp_resetUnits (d : Dev) {keep : List Nat} (h : F.glbCobblerRestarting.addr ∉ F.glbBootSlot.addr :: keep) :
    d.staysUp (d.resetUnits keep) :=
  ⟨d.resetUnits_straps keep, fun _ => d.cobblerUp_resetUnits h⟩

theorem Dev.staysUp_enterStandby (d : Dev) : d.staysUp d.enterStandby := by
  unfold Dev.enterStandby
  extract_lets gone wake _ off down
  have hgone : d.staysUp gone := Dev.staysUp_trans d.staysUp_resetAllConns (Dev.staysUp_of_hfmOnly (Dev.hfmOnly_disableChannels _))
  have hoff : d.staysUp off := by
    clear_value gone
    exact Dev.staysUp_trans hgone ⟨rfl, id⟩
  have hdown : d.staysUp down := by
    clear_value off
    exact Dev.staysUp_trans hoff (Dev.staysUp_trans (off.staysUp_resetUnits (by decide)) (Dev.staysUp_dropSideband _))
  exact Dev.staysUp_trans hdown (down.staysUp_goState _)

theorem Dev.staysUp_settleStandby (d : Dev) : d.staysUp d.settleStandby := by
  unfold Dev.settleStandby
  split
  · exact d.staysUp_enterStandby
  · exact d.staysUp_refl

theorem Dev.staysUp_hostSettle (d : Dev) : d.staysUp d.hostSettle :=
  Dev.staysUp_trans (Dev.staysUp_foldl _ (fun e (k : Conn) => e.staysUp_resetConn k.id rsnFrozenClose) _ d)
    (Dev.staysUp_trans (Dev.staysUp_of_hostOnly (Dev.hostOnly_refreshCredit _)) (Dev.staysUp_settleStandby _))

/-! ## Completion -/

/-- A freeze adds no owed entry while the firmware runs (R322). -/
theorem Dev.staysUp_freeze (d : Dev) (c : Cmd) : d.staysUp (d.freeze c) := by
  unfold Dev.freeze
  split
  · exact d.staysUp_refl
  · dsimp only
    split
    next hrestarts =>
      refine ⟨rfl, fun hup => ?_⟩
      have hflag : d.flag F.glbCobblerRestarting = true := hrestarts
      simp [Dev.flag, hup.1] at hflag
    next => exact Dev.staysUp_trans (d.staysUp_modQueue _ _) <| Dev.staysUp_trans (Dev.staysUp_mapCmds _ _) (Dev.staysUp_trans (Dev.staysUp_log _ _) (Dev.staysUp_bump _ (by decide)))

theorem Dev.staysUp_sendFor (d : Dev) (c : Cmd) (typ : Nat) (p : Payload) (len : Nat) (status : Option Nat) (bufs : List Nat) :
    d.staysUp (d.sendFor c typ p len status bufs) := by
  unfold Dev.sendFor
  split
  · split
    · exact d.staysUp_log _
    · exact d.staysUp_releaseAll _ _
  · split
    · exact d.staysUp_sendMsg _ _ _ _ _ _ _
    · exact Dev.staysUp_trans (d.staysUp_modQueue _ _) ⟨rfl, id⟩

theorem Dev.staysUp_completeNow (d : Dev) (c : Cmd) (status : Nat) (detail : List Byte) (already : Bool) (retry : Nat) :
    d.staysUp (d.completeNow c status detail already retry) := by
  unfold Dev.completeNow
  extract_lets err refusal froze logged seq told bs freed _ charged busy done sent
  have hlogged : d.staysUp logged := Dev.staysUp_ite (d.staysUp_log _) d.staysUp_refl
  have htold : d.staysUp told := Dev.staysUp_ite (Dev.staysUp_trans hlogged (Dev.staysUp_freeze _ c)) hlogged
  have hfreed : d.staysUp freed := Dev.staysUp_trans htold (Dev.staysUp_releaseAll _ _ _)
  have hcharged : d.staysUp charged := Dev.staysUp_ite (Dev.staysUp_trans hfreed ⟨rfl, id⟩) hfreed
  have hbusy : d.staysUp busy := Dev.staysUp_ite (Dev.staysUp_trans hcharged (Dev.staysUp_bump _ (by decide))) hcharged
  have hsent : d.staysUp sent := Dev.staysUp_trans (Dev.staysUp_trans hbusy (Dev.staysUp_modCmd _ _ _)) (Dev.staysUp_sendFor _ _ _ _ _ _ _)
  exact Dev.staysUp_ite hsent (Dev.staysUp_trans hsent (Dev.staysUp_dropCmds _ _))

theorem Dev.staysUp_settle (n : Nat) : ∀ d : Dev, d.staysUp (d.settle n) := by
  induction n with
  | zero => exact Dev.staysUp_refl
  | succ n ih =>
    intro d
    unfold Dev.settle
    split
    · exact d.staysUp_refl
    · split
      · exact Dev.staysUp_trans (Dev.staysUp_completeNow _ _ _ _ _ _) (ih _)
      · exact d.staysUp_refl

theorem Dev.staysUp_finish (d : Dev) (h status : Nat) (detail : List Byte) (already : Bool) :
    d.staysUp (d.finish h status detail already) :=
  Dev.staysUp_trans (d.staysUp_modCmd h _) (Dev.staysUp_settle _ _)

end Sys2Proof.Machine
end

section
/-!
SUPPORT. An attempt of the start-up sequence without connections ends in idle or in recovery (R471 to R474, R522).
-/
namespace Sys2Proof.Machine

/-! ## Without connections -/

/-- No connection arises, no standby request is taken or dropped, and the device state and the straps stand. -/
structure Dev.staysEmpty (a b : Dev) : Prop where
  conns : a.hpt.conns = [] → b.hpt.conns = []
  held : b.glb.standbyHeld = a.glb.standbyHeld
  dev : b.glb.dev = a.glb.dev
  straps : b.glb.straps = a.glb.straps

theorem Dev.staysEmpty_of_eq {a b : Dev} (hhpt : b.hpt = a.hpt) (hglb : b.glb = a.glb) : a.staysEmpty b :=
  ⟨fun h => by rw [hhpt, h], by rw [hglb], by rw [hglb], by rw [hglb]⟩

theorem Dev.staysEmpty_refl (d : Dev) : d.staysEmpty d := Dev.staysEmpty_of_eq rfl rfl

theorem Dev.staysEmpty_trans {a b c : Dev} (h : a.staysEmpty b) (k : b.staysEmpty c) : a.staysEmpty c :=
  ⟨k.conns ∘ h.conns, k.held.trans h.held, k.dev.trans h.dev, k.straps.trans h.straps⟩

theorem Dev.staysEmpty_ite {d a b : Dev} {p : Prop} [Decidable p] (ha : d.staysEmpty a) (hb : d.staysEmpty b) :
    d.staysEmpty (if p then a else b) := by
  split
  · exact ha
  · exact hb

theorem Dev.staysEmpty_foldl {α : Type} (f : Dev → α → Dev) (h : ∀ d x, Dev.staysEmpty d (f d x)) (l : List α) (d : Dev) :
    d.staysEmpty (l.foldl f d) :=
  List.foldlRecOn (motive := fun e => Dev.staysEmpty d e) l f d.staysEmpty_refl fun e he x _ => Dev.staysEmpty_trans he (h e x)

theorem Dev.staysEmpty_set (d : Dev) (f : Fld) (v : Nat) : d.staysEmpty (d.set f v) := Dev.staysEmpty_of_eq rfl rfl

theorem Dev.staysEmpty_strm (d : Dev) (strm : Strm) : d.staysEmpty { d with strm := strm } := Dev.staysEmpty_of_eq rfl rfl

theorem Dev.staysEmpty_log (d : Dev) (e : LogEntry) : d.staysEmpty (d.log e) := by
  unfold Dev.log
  dsimp only
  exact Dev.staysEmpty_ite (Dev.staysEmpty_of_eq rfl rfl) (Dev.staysEmpty_of_eq rfl rfl)

theorem Dev.staysEmpty_sendMsg (d : Dev) (c typ cls : Nat) (p : Payload) (len : Nat) (status : Option Nat) (bufs : List Nat) :
    d.staysEmpty (d.sendMsg c typ cls p len status bufs) :=
  ⟨fun h => by simp [Dev.sendMsg, h], rfl, rfl, rfl⟩

theorem Dev.staysEmpty_event (d : Dev) (code : Nat) : d.staysEmpty (d.event code) :=
  Dev.staysEmpty_trans (d.staysEmpty_log _) (Dev.staysEmpty_foldl _ (fun e (k : Conn) => e.staysEmpty_sendMsg k.id typNotice 4 _ _ none []) _ _)

theorem Dev.staysEmpty_fault (d : Dev) (f : Fld) : d.staysEmpty (d.fault f) := by
  unfold Dev.fault
  dsimp only
  exact Dev.staysEmpty_ite (Dev.staysEmpty_of_eq rfl rfl) (Dev.staysEmpty_of_eq rfl rfl)

/-- A device without connections and without a standby request settles to itself but for nothing that matters here. -/
theorem Dev.hostSettle_unattended (d : Dev) (hconns : d.hpt.conns = []) (hheld : d.glb.standbyHeld = false) :
    d.hostSettle = d := by
  have hcredit : d.refreshCredit = d := by
    simp only [Dev.refreshCredit, hconns, List.map_nil, List.foldl_nil]
    rw [← hconns]
  simp [Dev.hostSettle, hconns, hcredit, Dev.settleStandby, hheld]

/-! ## The steps of an attempt -/

/-- An allocation changes the pools and words of the register file. -/
theorem Dev.allocate_snd_eq (d : Dev) (p owner port : Nat) :
    (d.allocate p owner port).2 = { d with pools := (d.allocate p owner port).2.pools, regs := (d.allocate p owner port).2.regs } := by
  unfold Dev.allocate
  split
  next => rfl
  split
  next => rfl
  dsimp only
  split <;> rfl

theorem Dev.staysEmpty_allocate (d : Dev) (p owner port : Nat) : d.staysEmpty (d.allocate p owner port).2 := by
  rw [Dev.allocate_snd_eq]
  exact Dev.staysEmpty_of_eq rfl rfl

theorem Dev.staysEmpty_store (d : Dev) (a : Nat) (value mask : Word) : d.staysEmpty (d.store a value mask) := by
  obtain e | ⟨w, e⟩ := d.store_eq_putWord a value mask <;> rw [e]
  · exact d.staysEmpty_refl
  · exact Dev.staysEmpty_of_eq rfl rfl

theorem Dev.staysEmpty_takeTables (d : Dev) : d.staysEmpty d.takeTables := by
  unfold Dev.takeTables
  extract_lets n _ tables
  have htables : d.staysEmpty tables := by
    refine Dev.staysEmpty_trans (Dev.staysEmpty_strm d _) (Dev.staysEmpty_foldl _ (fun e _ => ?_) _ _)
    have halloc := e.staysEmpty_allocate 4 ownDma ownDma
    split
    next heq => rw [heq] at halloc; exact Dev.staysEmpty_trans halloc (Dev.staysEmpty_strm _ _)
    next heq => rw [heq] at halloc; exact halloc
  clear_value tables
  exact Dev.staysEmpty_trans htables (Dev.staysEmpty_foldl _ (fun e _ => e.staysEmpty_allocate 4 ownDma ownDma) _ _)

theorem Dev.staysEmpty_layPools (d : Dev) : d.staysEmpty d.layPools := by
  unfold Dev.layPools
  extract_lets up c b4 b3 b2 b1 b0 based
  have hbased : d.staysEmpty based := by
    refine Dev.staysEmpty_foldl _ (fun e x => ?_) _ _
    exact e.staysEmpty_set _ _
  clear_value based
  exact Dev.staysEmpty_trans hbased (Dev.staysEmpty_of_eq rfl rfl)

theorem Dev.staysEmpty_applyConfig (d : Dev) (b : Bool) : d.staysEmpty (d.applyConfig b) :=
  Dev.staysEmpty_foldl _ (fun e (c : CfgRecord) => e.staysEmpty_store c.addr c.value c.mask) _ _

theorem Dev.staysEmpty_tryImage (d : Dev) (b : Bool) (env : StartEnv) : d.staysEmpty (d.tryImage b env).2 := by
  unfold Dev.tryImage
  extract_lets cleared code configured
  have hcleared : d.staysEmpty cleared := d.staysEmpty_set _ 0
  have hconfigured : d.staysEmpty configured := Dev.staysEmpty_trans hcleared (cleared.staysEmpty_applyConfig b)
  clear_value configured cleared
  split
  next => exact hcleared
  split
  next => exact hconfigured
  next gib _ =>
    extract_lets sized half ready
    have hsized : d.staysEmpty sized := Dev.staysEmpty_trans hconfigured (configured.staysEmpty_set _ _)
    have hhalf : d.staysEmpty half := Dev.staysEmpty_trans hsized (sized.staysEmpty_set _ _)
    have hready : d.staysEmpty ready := Dev.staysEmpty_trans hhalf (half.staysEmpty_set _ _)
    clear_value ready half sized
    split
    next => exact hsized
    split
    next => exact hhalf
    split
    next => exact hready
    split <;> dsimp only
    · exact Dev.staysEmpty_trans hready (Dev.staysEmpty_trans ready.staysEmpty_layPools (Dev.staysEmpty_takeTables _))
    · exact Dev.staysEmpty_trans hready ready.staysEmpty_layPools

/-! ## How an attempt ends -/

/-- Idle or recovery, without a connection and without a standby request. -/
def Dev.startEnded (d : Dev) : Prop :=
  (d.glb.dev = .idle ∨ d.glb.dev = .recovery) ∧ d.hpt.conns = [] ∧ d.glb.standbyHeld = false

theorem Dev.startEnded_of_staysEmpty {a b : Dev} (h : a.staysEmpty b) (ha : a.startEnded) : b.startEnded :=
  ⟨by rw [h.dev]; exact ha.1, h.conns ha.2.1, by rw [h.held]; exact ha.2.2⟩

theorem Dev.goState_dev (d : Dev) (st : DevState) : (d.goState st).glb.dev = st := by
  unfold Dev.goState
  split
  next h => exact h.symm
  dsimp only
  split <;> rfl

theorem Dev.goState_hpt (d : Dev) (st : DevState) : (d.goState st).hpt = d.hpt := by
  unfold Dev.goState
  split
  next => rfl
  dsimp only
  split <;> rfl

theorem Dev.goState_standbyHeld (d : Dev) (st : DevState) : (d.goState st).glb.standbyHeld = d.glb.standbyHeld := by
  unfold Dev.goState
  split
  next => rfl
  dsimp only
  split <;> rfl

theorem Dev.resetUnits_unattended (d : Dev) (keep : List Nat) :
    (d.resetUnits keep).hpt.conns = [] ∧ (d.resetUnits keep).glb.standbyHeld = false := by
  obtain ⟨regs, e⟩ := d.resetUnits_eq keep
  rw [e]
  exact ⟨rfl, rfl⟩

/-- A failed attempt ends in recovery (R472, R474). -/
theorem Dev.startEnded_failAttempt (d : Dev) (k : Nat) : (d.failAttempt k).startEnded := by
  obtain ⟨hconns, hheld⟩ := d.resetUnits_unattended bootKept
  refine Dev.startEnded_of_staysEmpty (Dev.staysEmpty_set _ _ _) ⟨.inr (Dev.goState_dev _ _), ?_, ?_⟩
  · rw [Dev.goState_hpt, hconns]
  · rw [Dev.goState_standbyHeld, hheld]

theorem Dev.staysEmpty_judgeStraps (d : Dev) : d.staysEmpty d.judgeStraps := by
  unfold Dev.judgeStraps
  dsimp only
  have hcas : ∀ cas, d.staysEmpty { d with cas := cas } := fun _ => Dev.staysEmpty_of_eq rfl rfl
  exact Dev.staysEmpty_ite (Dev.staysEmpty_trans (hcas _) (Dev.staysEmpty_event _ _)) (hcas _)

theorem Dev.staysEmpty_loadStartValues (d : Dev) : d.staysEmpty d.loadStartValues := by
  unfold Dev.loadStartValues
  extract_lets ok cs w _ servo sense
  have hservo : d.staysEmpty servo := Dev.staysEmpty_of_eq rfl rfl
  clear_value servo
  have hsense : d.staysEmpty sense := by
    refine Dev.staysEmpty_trans hservo (Dev.staysEmpty_foldl _ (fun e i => ?_) _ _)
    exact Dev.staysEmpty_trans (e.staysEmpty_set _ _) (Dev.staysEmpty_trans (Dev.staysEmpty_set _ _ _) (Dev.staysEmpty_set _ _ _))
  clear_value sense
  exact Dev.staysEmpty_trans hsense (Dev.staysEmpty_trans (sense.staysEmpty_set _ _) (Dev.staysEmpty_set _ _ _))

theorem Dev.staysEmpty_sendServoGain (d : Dev) : d.staysEmpty d.sendServoGain := Dev.staysEmpty_of_eq rfl rfl
theorem Dev.staysEmpty_recordBoot (d : Dev) : d.staysEmpty d.recordBoot :=
  Dev.staysEmpty_of_eq (by simp [Dev.recordBoot, Dev.logRecord]) (by simp [Dev.recordBoot, Dev.logRecord])
theorem Dev.staysEmpty_countBoot (d : Dev) : d.staysEmpty d.countBoot := by
  constructor <;> simp [Dev.countBoot]
theorem Dev.staysEmpty_syncCal (d : Dev) : d.staysEmpty d.syncCal :=
  Dev.staysEmpty_of_eq (by simp [Dev.syncCal]) (by simp [Dev.syncCal])

/-- Steps 8 to 10 of R471 end in idle or, where the record cannot be made, in recovery. -/
theorem Dev.startEnded_finishStart (d : Dev) (b : Bool) (env : StartEnv) (k : Nat) (hconns : d.hpt.conns = [])
    (hheld : d.glb.standbyHeld = false) : (d.finishStart b env k).startEnded := by
  unfold Dev.finishStart
  extract_lets loaded lost told fallback shown idle _ locked judged back
  have hloaded : d.staysEmpty loaded := Dev.staysEmpty_trans d.staysEmpty_loadStartValues (Dev.staysEmpty_sendServoGain _)
  have htold : d.staysEmpty told := Dev.staysEmpty_ite (Dev.staysEmpty_trans hloaded (Dev.staysEmpty_trans (Dev.staysEmpty_set _ _ _)
    (Dev.staysEmpty_trans (Dev.staysEmpty_fault _ _) (Dev.staysEmpty_event _ _)))) hloaded
  clear_value told
  split
  · exact told.startEnded_failAttempt k
  have hshown : d.staysEmpty shown := Dev.staysEmpty_trans htold <| Dev.staysEmpty_trans (told.staysEmpty_set _ _) <|
    Dev.staysEmpty_trans (Dev.staysEmpty_set _ _ _) <| Dev.staysEmpty_trans (Dev.staysEmpty_set _ _ _) (Dev.staysEmpty_set _ _ _)
  have hrecord : d.staysEmpty shown.recordBoot := Dev.staysEmpty_trans hshown shown.staysEmpty_recordBoot
  have hidle : idle.startEnded :=
    ⟨.inl (Dev.goState_dev _ _), (Dev.goState_hpt shown.recordBoot .idle) ▸ hrecord.conns hconns,
      (Dev.goState_standbyHeld _ _).trans (hrecord.held.trans hheld)⟩
  clear_value idle
  have hlocked : locked.startEnded := hidle
  clear_value locked
  have hback : locked.staysEmpty back := Dev.staysEmpty_ite (Dev.staysEmpty_trans locked.staysEmpty_judgeStraps (Dev.staysEmpty_event _ _))
    locked.staysEmpty_judgeStraps
  exact Dev.startEnded_of_staysEmpty (Dev.staysEmpty_ite (Dev.staysEmpty_trans hback (Dev.staysEmpty_event _ _)) hback) hlocked

theorem Dev.startEnded_runSlots (d : Dev) (env : StartEnv) (k : Nat) (first : Bool) (hconns : d.hpt.conns = [])
    (hheld : d.glb.standbyHeld = false) : (d.runSlots env k first).startEnded := by
  have htry := d.staysEmpty_tryImage first env
  unfold Dev.runSlots
  split
  next e heq =>
    rw [heq] at htry
    exact e.startEnded_finishStart first env k (htry.conns hconns) (htry.held.trans hheld)
  next => exact Dev.startEnded_failAttempt _ k
  next c e heq =>
    obtain ⟨hconns', hheld'⟩ := (e.set (failField first) c).resetUnits_unattended bootKept
    have hother := ((e.set (failField first) c).resetUnits bootKept).staysEmpty_tryImage (!first) env
    dsimp only
    split
    next f heq' =>
      rw [heq'] at hother
      exact f.startEnded_finishStart (!first) env k (hother.conns hconns') (hother.held.trans hheld')
    next => exact Dev.startEnded_failAttempt _ k
    next => exact Dev.startEnded_failAttempt _ k

/-- An attempt outside the factory test modes ends in idle or recovery (R471 to R474, R550). -/
theorem Dev.startEnded_attempt (d : Dev) (env : StartEnv) (cause k : Nat) (first : Bool) (hconns : d.hpt.conns = [])
    (hheld : d.glb.standbyHeld = false) (htest : d.glb.straps.testMode = 0) : (d.attempt env cause k first).startEnded := by
  unfold Dev.attempt
  extract_lets _ begun numbered shown counted
  have hbegun : begun.hpt.conns = [] ∧ begun.glb.standbyHeld = false ∧ begun.glb.straps.testMode = 0 := ⟨hconns, hheld, htest⟩
  clear_value begun
  have hnumbered : begun.staysEmpty numbered := Dev.staysEmpty_trans (begun.staysEmpty_set _ _) <|
    Dev.staysEmpty_trans (Dev.staysEmpty_set _ _ _) <| Dev.staysEmpty_trans (Dev.staysEmpty_set _ _ _) (Dev.staysEmpty_set _ _ _)
  clear_value numbered
  have hshown : begun.staysEmpty shown := Dev.staysEmpty_trans hnumbered <| Dev.staysEmpty_trans (numbered.staysEmpty_set _ _) <|
    Dev.staysEmpty_trans (Dev.staysEmpty_set _ _ _) <| Dev.staysEmpty_trans (Dev.staysEmpty_set _ _ _) (Dev.staysEmpty_set _ _ _)
  clear_value shown
  have hcounted : begun.staysEmpty counted :=
    Dev.staysEmpty_trans hshown (Dev.staysEmpty_trans shown.staysEmpty_countBoot (Dev.staysEmpty_syncCal _))
  clear_value counted
  obtain ⟨hconns, hheld, htest⟩ := hbegun
  have htest' : (shown.glb.straps.testMode != 0) = false := by
    rw [hshown.straps, htest]
    rfl
  rw [htest', if_neg Bool.false_ne_true]
  split
  next => exact shown.startEnded_failAttempt k
  split
  next => exact counted.startEnded_failAttempt k
  have hmode := fun v => Dev.staysEmpty_trans hcounted (counted.staysEmpty_set F.glbBootNorMode v)
  exact Dev.startEnded_runSlots _ env k first ((hmode _).conns hconns) ((hmode _).held.trans hheld)

/-- The first attempt, too, ends so: without connections nothing follows on the host side. -/
theorem Dev.startEnded_firstAttempt (d : Dev) (env : StartEnv) (cause : Nat) (hconns : d.hpt.conns = [])
    (hheld : d.glb.standbyHeld = false) (htest : d.glb.straps.testMode = 0) : (d.firstAttempt env cause).startEnded := by
  have hend := d.startEnded_attempt env cause 1 d.prefSlot hconns hheld htest
  rw [Dev.firstAttempt, Dev.hostSettle_unattended _ hend.2.1 hend.2.2]
  exact hend

end Sys2Proof.Machine
end

section
/-!
SUPPORT. MAINT_RESTART (R523, R524): the end of maintenance, the cobbler's restart and the device's.
-/
namespace Sys2Proof.Machine

/-! ## The commands -/

theorem exec_maintEnd (h : Nat) (s : State) : exec (.maintEnd h) s = .next { s with dev := (s.dev.maintEnds h).hostSettle } := rfl
theorem exec_cobblerRestartCmd (h : Nat) (s : State) :
    exec (.cobblerRestartCmd h) s = .next { s with dev := (s.dev.maintRestart h).hostSettle } := rfl
theorem exec_deviceRestartCmd (h : Nat) (env : StartEnv) (s : State) :
    exec (.deviceRestartCmd h env) s = .next { s with dev := (s.dev.maintDevice h env).hostSettle } := rfl
theorem exec_cobblerRestartDone (s : State) : exec .cobblerRestartDone s = .next { s with dev := s.dev.cobblerRuns.hostSettle } := rfl

/-- A maintenance command that is alone and accepted has its effect. -/
theorem State.maintains_maint {s : State} {c : Cmd} {k : Conn} {q : Queue} {op sub : Nat} (h : s.maintains c k q op sub)
    (f : Cmd → Dev) : s.dev.maint c.h op sub f = f c := by
  obtain ⟨⟨hcmds, -⟩, hphase, hheld, hop, hsub, hdev, hruns⟩ := h
  simp [Dev.maint, Dev.accepted?, Dev.cmd?, hcmds, hphase, hheld, hop, hsub, hdev, hruns]

/-! ## OP 0 -/

theorem Dev.goState_cart (d : Dev) (st : DevState) : (d.goState st).cart = d.cart := by
  unfold Dev.goState
  split
  next => rfl
  dsimp only
  split <;> rfl

/-- Without a cartridge maintenance ends by the change of state alone (R22, R524). -/
theorem Dev.endMaint_eq (d : Dev) (hdev : d.glb.dev = .maintenance) (hcart : d.cart.loaded = false) :
    d.endMaint = ({ d with glb := { d.glb with maintConn := none } }).goState d.glb.beforeMaint := by
  have hcart' : ¬ (({ d with glb := { d.glb with maintConn := none } } : Dev).goState d.glb.beforeMaint).cart.loaded = true := by
    rw [Dev.goState_cart, hcart]
    exact Bool.false_ne_true
  unfold Dev.endMaint
  rw [if_pos hdev]
  exact if_neg hcart'

/-- A change to another state. -/
theorem Dev.goState_eq (d : Dev) {st : DevState} (h : st ≠ d.glb.dev) : ∃ out, d.goState st
    = { d with glb := { d.glb with prev := d.glb.dev, dev := st, changes := min (d.glb.changes + 1) 0xFFFFFFFF }, out := out } := by
  unfold Dev.goState
  rw [if_neg h]
  dsimp only
  split
  · exact ⟨_, rfl⟩
  · exact ⟨_, rfl⟩

theorem runs_maintEnd {s : State} {c : Cmd} {k : Conn} {q : Queue} (h : s.maintains c k q opRestart 0)
    (hback : s.dev.glb.beforeMaint = .idle ∨ s.dev.glb.beforeMaint = .loaded) (hcart : s.dev.cart.loaded = false) :
    Runs (.maintEnd c.h) s fun t => t.dev.glb.dev = s.dev.glb.beforeMaint ∧ t.dev.glb.prev = .maintenance
      ∧ t.dev.glb.maintConn = none ∧ t.toldGood s.dev c k (!c.inMaint) (leBytes 1 s.dev.glb.beforeMaint.code) := by
  have hdev : s.dev.glb.dev = .maintenance := h.2.2.2.2.2.1
  have hne : s.dev.glb.beforeMaint ≠ s.dev.glb.dev := by
    obtain e | e := hback <;> rw [e, hdev] <;> decide
  obtain ⟨out, hend⟩ := Dev.goState_eq { s.dev with glb := { s.dev.glb with maintConn := none } } hne
  rw [← s.dev.endMaint_eq hdev hcart] at hend
  have halone : s.dev.endMaint.alone c k q := by
    rw [hend]
    exact h.1
  have hmaint : s.dev.maintEnds c.h = s.dev.endMaint.finish c.h stGood (leBytes 1 s.dev.glb.beforeMaint.code) (!c.inMaint) :=
    State.maintains_maint h _
  have hglb : (s.dev.maintEnds c.h).hostSettle.glb = s.dev.endMaint.glb := by
    rw [hmaint, (Dev.completed_finish halone _ _).1]
  refine ⟨_, exec_maintEnd c.h s, ?_, ?_, ?_, ?_⟩
  · rw [hglb, hend]
  · rw [hglb, hend]
    exact hdev
  · rw [hglb, hend]
  · rw [hmaint]
    exact State.toldGood_finish halone s s.dev (by rw [hend]; rfl) _ _

/-! ## OP 1 -/

theorem runs_cobblerRestartCmd {s : State} {c : Cmd} {k : Conn} {q : Queue} (h : s.maintains c k q opRestart 1) :
    Runs (.cobblerRestartCmd c.h) s fun t => t.dev.get F.glbCobblerRestarting = 1 ∧ t.dev.cobMem = []
      ∧ t.dev.glb = s.dev.glb ∧ t.dev.cqm.cmds = [{ c with phase := .started }] := by
  have hcalm := Dev.alone_calm h.1
  have hrestart : s.dev.maintRestart c.h = (s.dev.modCmd c.h fun c => { c with phase := .started }).restartCobbler :=
    State.maintains_maint h _
  have hhost : (s.dev.maintRestart c.h).hostOnly (s.dev.maintRestart c.h).hostSettle :=
    Dev.hostOnly_hostSettle _ (by rw [hrestart]; exact hcalm)
  rw [hrestart] at hhost
  refine ⟨_, exec_cobblerRestartCmd c.h s, ?_, ?_, ?_, ?_⟩
  · rw [hrestart, Dev.hostOnly_get hhost (by decide)]
    exact Dev.get_set_same _ _ _ (by decide)
  · rw [hrestart, hhost.1]
    rfl
  · rw [hrestart, Dev.hostOnly_glb hhost]
    rfl
  · rw [hrestart, Dev.hostOnly_cqm hhost]
    simp [Dev.restartCobbler, Dev.modCmd, h.1.1]

/-! ## The cobbler's firmware runs again -/

/-- The cobbler after its restart: the log entries that waited are written, and nothing is owed any more (R17, R520). -/
def Dev.payOwed (d : Dev) : Dev :=
  d.cqm.owed.foldl (fun (d : Dev) e => d.log e)
    { d.set F.glbCobblerRestarting 0 with cqm := { d.cqm with owed := [] } }

theorem Dev.cobblerRuns_eq (d : Dev) (h : d.flag F.glbCobblerRestarting = true) :
    d.cobblerRuns = (d.payOwed.cqm.cmds.filter fun c => c.opcode == opRestart && c.phase == .started).foldl
      (fun d c => d.finish c.h stGood []) d.payOwed := by
  simp only [Dev.cobblerRuns, h, if_true]
  rfl

theorem Dev.cobblerUp_payOwed (d : Dev) : d.payOwed.cobblerUp :=
  (Dev.staysUp_foldl _ Dev.staysUp_log _ _).2 ⟨Dev.get_set_same _ _ _ (by decide), rfl⟩

/-- Whatever completes and follows, the restart is over and nothing is owed. -/
theorem Dev.cobblerUp_cobblerRuns (d : Dev) (h : d.flag F.glbCobblerRestarting = true) : d.cobblerRuns.hostSettle.cobblerUp := by
  rw [d.cobblerRuns_eq h]
  exact (Dev.staysUp_hostSettle _).2
    ((Dev.staysUp_foldl _ (fun e (c : Cmd) => e.staysUp_finish c.h stGood [] false) _ _).2 d.cobblerUp_payOwed)

/-- Writing a log entry changes the log and, where the oldest is lost, its count. -/
def Dev.logOnly (d e : Dev) : Prop :=
  e = { d with cqm := { d.cqm with log := e.cqm.log, logSeq := e.cqm.logSeq }, regs := e.regs }
    ∧ ∀ x, x ≠ C.cqmLogLost → e.word x = d.word x

theorem Dev.logOnly_trans {a b c : Dev} (h : a.logOnly b) (k : b.logOnly c) : a.logOnly c :=
  ⟨by rw [k.1, h.1], fun x hx => (k.2 x hx).trans (h.2 x hx)⟩

theorem Dev.logOnly_log (d : Dev) (e : LogEntry) : d.logOnly (d.log e) := by
  unfold Dev.log
  dsimp only
  split
  · exact ⟨rfl, fun x hx => Dev.word_bumpBy_other _ _ 1 hx⟩
  · exact ⟨rfl, fun _ _ => rfl⟩

theorem Dev.logOnly_logs (es : List LogEntry) (d : Dev) : d.logOnly (es.foldl (fun d e => d.log e) d) := by
  refine List.foldlRecOn (motive := fun e => d.logOnly e) es _ ?_ fun e he x _ => Dev.logOnly_trans he (e.logOnly_log x)
  exact ⟨rfl, fun _ _ => rfl⟩

theorem Dev.payOwed_spec (d : Dev) :
    d.payOwed = { d with cqm := { d.cqm with log := d.payOwed.cqm.log, logSeq := d.payOwed.cqm.logSeq, owed := [] }, regs := d.payOwed.regs }
      ∧ ∀ x, x ≠ C.cqmLogLost → x ≠ F.glbCobblerRestarting.addr → d.payOwed.word x = d.word x := by
  have h := Dev.logOnly_logs d.cqm.owed { d.set F.glbCobblerRestarting 0 with cqm := { d.cqm with owed := [] } }
  exact ⟨h.1, fun x hx hx' => (h.2 x hx).trans (d.word_set_other _ _ hx')⟩

theorem runs_cobblerRestartDone {s : State} {c : Cmd} {k : Conn} {q : Queue} (halone : s.dev.alone c k q)
    (hop : c.opcode = opRestart) (hphase : c.phase = .started) (hrestarts : s.dev.flag F.glbCobblerRestarting = true) :
    Runs .cobblerRestartDone s fun t => t.dev.get F.glbCobblerRestarting = 0 ∧ t.toldGood s.dev c k false [] ∧ s.memoriesStand t := by
  obtain ⟨hpaid, hwords⟩ := s.dev.payOwed_spec
  have halone' : s.dev.payOwed.alone c k q := by
    rw [hpaid]
    exact halone
  have hruns : s.dev.cobblerRuns = s.dev.payOwed.finish c.h stGood [] := by
    rw [s.dev.cobblerRuns_eq hrestarts, halone'.1]
    simp [hop, hphase]
  have hflag : s.dev.payOwed.flag F.plcStatusEwSeen = s.dev.flag F.plcStatusEwSeen := by
    simp [Dev.flag, Dev.get, hwords F.plcStatusEwSeen.addr (by decide) (by decide)]
  refine ⟨_, exec_cobblerRestartDone s, (s.dev.cobblerUp_cobblerRuns hrestarts).1, ?_, ?_⟩
  · rw [hruns]
    exact State.toldGood_finish halone' s s.dev hflag false []
  · rw [hruns]
    refine State.memoriesStand_finish halone' s ?_ false []
    rw [hpaid]
    exact ⟨fun _ => rfl, fun _ => rfl, fun _ => rfl, fun _ => rfl⟩

/-! ## OP 2 -/

theorem Dev.loadNorBuf_glb (d : Dev) (page : List Byte) : (d.loadNorBuf page).glb = d.glb :=
  List.foldlRecOn (motive := fun e : Dev => e.glb = d.glb) _ _ rfl fun _ he _ _ => he

theorem Dev.norEnds_straps (d : Dev) (failed : Bool) : (d.norEnds failed).glb.straps = d.glb.straps := rfl

/-- The end of a NOR operation leaves the straps (R476). -/
theorem Dev.settleNor_straps (d : Dev) : d.settleNor.glb.straps = d.glb.straps := by
  unfold Dev.settleNor Dev.norDone
  split
  next => rfl
  rw [if_neg Bool.false_ne_true]
  split
  next => rw [Dev.norEnds_straps, Dev.putNor_glb]
  split
  next => rw [Dev.norEnds_straps, Dev.putNor_glb]
  split <;> rw [Dev.norEnds_straps, Dev.loadNorBuf_glb]

theorem Dev.enterStartUp_straps (d : Dev) : d.enterStartUp.glb.straps = d.glb.straps := rfl
theorem Dev.enterStartUp_hpt (d : Dev) : d.enterStartUp.hpt = d.hpt := rfl
theorem Dev.enterStartUp_held (d : Dev) : d.enterStartUp.glb.standbyHeld = d.glb.standbyHeld := rfl

/-- A device restart under straps of no factory test mode ends in idle or recovery (R522, R550). -/
theorem Dev.startEnded_deviceRestart (d : Dev) (env : StartEnv) (htest : d.glb.straps.testMode = 0) :
    (d.deviceRestart env).startEnded := by
  have hreset := d.settleNor.resetAllConns.resetUnits_unattended []
  have hstraps : (d.settleNor.resetAllConns.resetUnits []).enterStartUp.glb.straps.testMode = 0 := by
    rw [Dev.enterStartUp_straps, Dev.resetUnits_straps, (Dev.staysUp_resetAllConns _).1, Dev.settleNor_straps, htest]
  exact Dev.startEnded_firstAttempt _ env 4 (by rw [Dev.enterStartUp_hpt, hreset.1]) (by rw [Dev.enterStartUp_held, hreset.2]) hstraps

theorem runs_deviceRestartCmd {s : State} {c : Cmd} {k : Conn} {q : Queue} {env : StartEnv} (h : s.maintains c k q opRestart 2)
    (hconfirm : c.par 17 1 = 0xA5) (htest : s.dev.glb.straps.testMode = 0) :
    Runs (.deviceRestartCmd c.h env) s fun t => (t.dev.glb.dev = .idle ∨ t.dev.glb.dev = .recovery) ∧ t.dev.hpt.conns = [] := by
  have hended : (s.dev.maintDevice c.h env).startEnded := by
    unfold Dev.maintDevice
    rw [State.maintains_maint h, hconfirm, if_neg (by decide)]
    extract_lets conn told
    have htold : told.glb.straps = s.dev.glb.straps := (s.dev.staysUp_finish c.h stGood [] false).1
    clear_value told conn
    cases conn with
    | none => exact told.startEnded_deviceRestart env (by rw [htold, htest])
    | some k => exact (told.sendAll k).startEnded_deviceRestart env (by rw [(told.staysUp_sendAll k).1, htold, htest])
  obtain ⟨hdev, hconns, hheld⟩ := hended
  refine ⟨_, exec_deviceRestartCmd c.h env s, ?_⟩
  rw [Dev.hostSettle_unattended _ hconns hheld]
  exact ⟨hdev, hconns⟩

/-- Settles O31: by the operation of MAINT_RESTART and, for the restart of the cobbler, its end. -/
theorem maintenanceEnds : Obligations.MaintenanceEnds :=
  fun s _ _ _ _ => ⟨fun h hback hcart => runs_maintEnd h hback hcart, fun h => runs_cobblerRestartCmd h,
    fun halone hop hphase hrestarts => runs_cobblerRestartDone halone hop hphase hrestarts,
    fun hrestarts => ⟨_, exec_cobblerRestartDone s, s.dev.cobblerUp_cobblerRuns hrestarts⟩, fun h hconfirm htest _ => runs_deviceRestartCmd h hconfirm htest⟩

end Sys2Proof.Machine
end

section
/-!
SUPPORT. The write path's shared operations (R79, R104, R176, R251, R353): TPOS that moves on, the write gate, the write-encode FIFOs and
what follows from their fill, and the early warning. Each leaves all but its own part of the device alone.
-/
namespace Sys2Proof.Machine

/-! ## Registers and outputs -/

/-- `e` is `d` but for words of the registers `ws` and outputs added. -/
def Dev.regsOut (ws : List Nat) (d e : Dev) : Prop :=
  e = { d with regs := e.regs, out := e.out } ∧ (∀ x, x ∉ ws → e.word x = d.word x) ∧ ∃ os, e.out = os ++ d.out

variable {ws : List Nat} {a b c : Dev}

theorem Dev.regsOut_refl (d : Dev) : d.regsOut ws d := ⟨rfl, fun _ _ => rfl, [], rfl⟩

theorem Dev.regsOut_trans (h : Dev.regsOut ws a b) (k : Dev.regsOut ws b c) : Dev.regsOut ws a c := by
  obtain ⟨he, hw, os, ho⟩ := h
  obtain ⟨ke, kw, os', ko⟩ := k
  exact ⟨by rw [ke, he], fun x hx => (kw x hx).trans (hw x hx), os' ++ os, by rw [ko, ho, List.append_assoc]⟩

theorem Dev.regsOut_mono {vs : List Nat} (h : Dev.regsOut vs a b) (hsub : vs ⊆ ws) : Dev.regsOut ws a b :=
  ⟨h.1, fun x hx => h.2.1 x fun hv => hx (hsub hv), h.2.2⟩

theorem Dev.regsOut_putWord (d : Dev) {x : Nat} (w : Word) (h : x ∈ ws) : d.regsOut ws (d.putWord x w) :=
  ⟨rfl, fun y hy => d.word_putWord_other w (by rintro rfl; exact hy h), [], rfl⟩

theorem Dev.regsOut_set (d : Dev) (f : Fld) (v : Nat) (h : f.addr ∈ ws) : d.regsOut ws (d.set f v) := d.regsOut_putWord _ h

theorem Dev.regsOut_emit (d : Dev) (o : Out) : d.regsOut ws (d.emit o) := ⟨rfl, fun _ _ => rfl, [o], rfl⟩

/-! ## TPOS and the write gate -/

/-- The register that shows the write gate (R104). -/
def gateWords : List Nat := [F.posStatusWriteGate.addr]

/-- The registers that a motion of TPOS writes (R30, R104). -/
def reachWords : List Nat := F.posTposTpos.addr :: gateWords

theorem Dev.regsOut_openGate (d : Dev) : d.regsOut gateWords d.openGate := by
  unfold Dev.openGate
  split
  · exact d.regsOut_refl
  · exact Dev.regsOut_trans (d.regsOut_set _ _ (by decide)) (Dev.regsOut_emit _ _)

theorem Dev.regsOut_closeGate (d : Dev) : d.regsOut gateWords d.closeGate := by
  unfold Dev.closeGate
  split
  · exact Dev.regsOut_trans (d.regsOut_set _ _ (by decide)) (Dev.regsOut_emit _ _)
  · exact d.regsOut_refl

theorem Dev.regsOut_setTpos (d : Dev) (p : Int) : d.regsOut reachWords (d.setTpos p) := d.regsOut_set _ _ (by decide)

theorem Dev.regsOut_reach (d : Dev) (p : Int) : d.regsOut reachWords (d.reach p) := by
  unfold Dev.reach
  extract_lets rev g at_ past
  split
  · exact Dev.regsOut_trans (Dev.regsOut_trans (d.regsOut_setTpos at_) (Dev.regsOut_mono (Dev.regsOut_closeGate _) (by decide))) (Dev.regsOut_setTpos _ p)
  · exact d.regsOut_setTpos p

theorem Dev.regsOut_reachAhead (d : Dev) (p : Int) : d.regsOut reachWords (d.reachAhead p) := by
  rw [Dev.reachAhead]
  generalize (if d.reverse then decide (p < d.tpos) else decide (d.tpos < p)) = ahead
  cases ahead
  · exact d.regsOut_refl
  · exact d.regsOut_reach p

/-- TPOS shows the place it was set to (R4). -/
theorem Dev.tpos_setTpos (d e : Dev) (p : Int) : (d.setTpos p).tpos = (e.setTpos p).tpos := by
  simp only [Dev.tpos, Dev.setTpos, Dev.get_set_same _ F.posTposTpos _ (by decide)]

theorem Dev.tpos_reach (d : Dev) (p : Int) : (d.reach p).tpos = (d.setTpos p).tpos := Dev.tpos_setTpos _ _ _

theorem Dev.tpos_eq (h : b.word F.posTposTpos.addr = a.word F.posTposTpos.addr) : b.tpos = a.tpos := by
  rw [Dev.tpos, Dev.tpos, Dev.get, Dev.get, h]

/-! ## Links to the members -/

/-- Sending on the links changes the cascade ports and adds outputs. -/
def Dev.linkOnly (d e : Dev) : Prop := e = { d with cas := e.cas, out := e.out } ∧ ∃ os, e.out = os ++ d.out

theorem Dev.linkOnly_refl (d : Dev) : d.linkOnly d := ⟨rfl, [], rfl⟩

theorem Dev.linkOnly_trans (h : Dev.linkOnly a b) (k : Dev.linkOnly b c) : Dev.linkOnly a c := by
  obtain ⟨he, os, ho⟩ := h
  obtain ⟨ke, os', ko⟩ := k
  exact ⟨by rw [ke, he], os' ++ os, by rw [ko, ho, List.append_assoc]⟩

theorem Dev.linkOnly_cas (d : Dev) (cas : Cas) : d.linkOnly { d with cas := cas } := ⟨rfl, [], rfl⟩
theorem Dev.linkOnly_emit (d : Dev) (o : Out) : d.linkOnly (d.emit o) := ⟨rfl, [o], rfl⟩

theorem Dev.linkOnly_modCasPort (d : Dev) (p : Nat) (f : CPort → CPort) : d.linkOnly (d.modCasPort p f) := d.linkOnly_cas _

theorem Dev.linkOnly_pump (p : Nat) : ∀ (n : Nat) (d : Dev), d.linkOnly (d.pump p n)
  | 0, d => d.linkOnly_refl
  | n + 1, d => by
    unfold Dev.pump
    dsimp only
    split
    · exact d.linkOnly_refl
    · exact Dev.linkOnly_trans (d.linkOnly_modCasPort _ _) (Dev.linkOnly_trans (Dev.linkOnly_emit _ _) (Dev.linkOnly_pump p n _))

theorem Dev.linkOnly_sendLink (d : Dev) (dst vc : Nat) (m : LinkMsg) : d.linkOnly (d.sendLink dst vc m) :=
  Dev.linkOnly_trans (d.linkOnly_modCasPort _ _) (Dev.linkOnly_pump _ _ _)

theorem Dev.linkOnly_sendPayload (d : Dev) (mem slot : Nat) (m : LinkMsg) : d.linkOnly (d.sendPayload mem slot m) := by
  unfold Dev.sendPayload
  extract_lets next near
  split
  · exact d.linkOnly_cas _
  · exact d.linkOnly_sendLink _ _ _

theorem Dev.linkOnly_foldl {α : Type} (f : Dev → α → Dev) (h : ∀ d x, Dev.linkOnly d (f d x)) (l : List α) (d : Dev) :
    d.linkOnly (l.foldl f d) :=
  List.foldlRecOn (motive := fun e => Dev.linkOnly d e) l f d.linkOnly_refl fun e he x _ => Dev.linkOnly_trans he (h e x)

theorem Dev.linkOnly_sendWaiting (d : Dev) : d.linkOnly d.sendWaiting :=
  Dev.linkOnly_trans (d.linkOnly_cas _) (Dev.linkOnly_foldl _ (fun e (w : Nat × Nat × LinkMsg) => e.linkOnly_sendPayload w.1 w.2.1 w.2.2) _ _)

/-! ## The watermarks of the FIFOs -/

/-- What follows from the fill of the FIFOs: the watermarks, the flow control of a set and the count of its pauses (R353, R357, R455). -/
def Dev.fifoSide (d e : Dev) : Prop :=
  e = { d with chan := { d.chan with high := e.chan.high, low := e.chan.low }, cas := e.cas, regs := e.regs, out := e.out }
    ∧ (∀ x, x ≠ C.casFcPause → e.word x = d.word x) ∧ ∃ os, e.out = os ++ d.out

theorem Dev.fifoSide_refl (d : Dev) : d.fifoSide d := ⟨rfl, fun _ _ => rfl, [], rfl⟩

theorem Dev.fifoSide_trans (h : Dev.fifoSide a b) (k : Dev.fifoSide b c) : Dev.fifoSide a c := by
  obtain ⟨he, hw, os, ho⟩ := h
  obtain ⟨ke, kw, os', ko⟩ := k
  exact ⟨by rw [ke, he], fun x hx => (kw x hx).trans (hw x hx), os' ++ os, by rw [ko, ho, List.append_assoc]⟩

theorem Dev.fifoSide_of_linkOnly (h : Dev.linkOnly a b) : Dev.fifoSide a b := by
  obtain ⟨he, ho⟩ := h
  exact ⟨by rw [he], fun x _ => by rw [he]; rfl, ho⟩

theorem Dev.fifoSide_pause (d : Dev) : d.fifoSide (d.bump C.casFcPause) :=
  ⟨rfl, fun _ hx => d.word_putWord_other _ hx, [], rfl⟩

theorem Dev.fifoSide_flowControl (d : Dev) : d.fifoSide d.flowControl := by
  unfold Dev.flowControl
  split
  · exact d.fifoSide_refl
  extract_lets fc low level _ told pause was _ paused
  have htold : d.fifoSide told := by
    refine Dev.fifoSide_of_linkOnly ?_
    unfold told
    split
    · exact d.linkOnly_refl
    · exact Dev.linkOnly_trans (d.linkOnly_cas _) (Dev.linkOnly_emit _ _)
  have hpaused : d.fifoSide paused := Dev.fifoSide_trans htold (Dev.fifoSide_of_linkOnly (Dev.linkOnly_cas _ _))
  clear_value paused
  split
  · exact Dev.fifoSide_trans hpaused (Dev.fifoSide_pause _)
  split
  · exact Dev.fifoSide_trans hpaused (Dev.fifoSide_of_linkOnly paused.linkOnly_sendWaiting)
  · exact hpaused

theorem Dev.fifoSide_settleFifos (d : Dev) : d.fifoSide d.settleFifos :=
  Dev.fifoSide_trans (b := d.watermarks) ⟨rfl, fun _ _ => rfl, [], rfl⟩ (Dev.fifoSide_flowControl _)

/-! ## The enabled channels -/

/-- Which channels are enabled rests on their enable words, the faults known and the groups that are on (R93). -/
theorem Dev.channelsOn_congr (hword : ∀ i < 8, b.word (F.wchChEnEn.ix i).addr = a.word (F.wchChEnEn.ix i).addr) (hecc : b.ecc = a.ecc)
    (hon : b.chan.groupsOn = a.chan.groupsOn) : b.channelsOn = a.channelsOn := by
  refine List.filter_congr fun n hn => ?_
  have hn : n / 32 < 8 := by
    have := List.mem_range.mp hn
    omega
  have hget : b.get (F.wchChEnEn.ix (n / 32)) = a.get (F.wchChEnEn.ix (n / 32)) := by rw [Dev.get, Dev.get, hword _ hn]
  rw [Dev.channelOn, Dev.channelOn, Dev.channelFit, Dev.channelFit, hget, hecc, hon]

theorem Dev.channelsOn_nodup (d : Dev) : d.channelsOn.Nodup := List.Nodup.filter _ List.nodup_range

/-! ## The FIFOs of the enabled channels -/

/-- `f` changes the FIFO that it is given as `g` says and nothing else. -/
def Dev.mapsFifo (g : Fifo → Fifo) (f : Dev → Nat → Dev) : Prop :=
  ∀ d n, f d n = { d with fifos := (f d n).fifos } ∧ ∀ m, (f d n).fifo m = if m = n then g (d.fifo n) else d.fifo m

theorem Dev.fifo_putFifo (d : Dev) (n m : Nat) (f : Fifo) : (d.putFifo n f).fifo m = if m = n then f else d.fifo m :=
  sparseGet_put _ _ _ _ _

theorem Dev.mapsFifo_putFifo (g : Fifo → Fifo) : Dev.mapsFifo g fun d n => d.putFifo n (g (d.fifo n)) :=
  fun d n => ⟨rfl, fun m => d.fifo_putFifo n m _⟩

theorem Dev.foldl_mapsFifo {g : Fifo → Fifo} {f : Dev → Nat → Dev} (hf : Dev.mapsFifo g f) {l : List Nat} (hl : l.Nodup) (d : Dev) :
    l.foldl f d = { d with fifos := (l.foldl f d).fifos }
      ∧ ∀ m, (l.foldl f d).fifo m = if m ∈ l then g (d.fifo m) else d.fifo m := by
  induction l generalizing d with
  | nil => exact ⟨rfl, fun _ => rfl⟩
  | cons n l ih =>
    obtain ⟨hn, hl⟩ := List.nodup_cons.mp hl
    obtain ⟨heq, hfifo⟩ := hf d n
    obtain ⟨iheq, ihfifo⟩ := ih hl (f d n)
    refine ⟨by rw [List.foldl_cons, iheq, heq], fun m => ?_⟩
    rw [List.foldl_cons, ihfifo m, hfifo m]
    by_cases hm : m = n
    · subst hm
      simp [hn]
    · simp [hm]

/-! ## Event entries -/

/-- The device with an entry armed (R79). -/
def Dev.withEntry (d : Dev) (e : Entry) : Dev := { d with pos := { d.pos with entries := d.pos.entries ++ [e] } }

/-- An entry is armed or refused (R79). -/
theorem Dev.arm_cases (d : Dev) (e : Entry) : d.arm e = none ∨ d.arm e = some (d.withEntry e) := by
  unfold Dev.arm
  extract_lets ahead
  split
  · exact .inl rfl
  · exact .inr rfl

/-! ## The early warning -/

/-- What the write path touches beside its data sets, its session and POS: words of the registers `ws`, what the channels have written and
take next, the FIFOs, the cascade, the log and notices, the speed matching's count, the early warning's mark and outputs. -/
def Dev.slotOnly (ws : List Nat) (d e : Dev) : Prop :=
  e = { d with regs := e.regs, cas := e.cas, fifos := e.fifos, cqm := e.cqm, hpt := e.hpt, out := e.out
               chan := { d.chan with high := e.chan.high, low := e.chan.low, taking := e.chan.taking, levels := e.chan.levels, edges := e.chan.edges }
               plc := { d.plc with sinceSpeed := e.plc.sinceSpeed, warned := e.plc.warned } }
    ∧ (∀ x, x ∉ ws → e.word x = d.word x) ∧ ∃ os, e.out = os ++ d.out

theorem Dev.slotOnly_refl (d : Dev) : d.slotOnly ws d := ⟨rfl, fun _ _ => rfl, [], rfl⟩

theorem Dev.slotOnly_trans (h : Dev.slotOnly ws a b) (k : Dev.slotOnly ws b c) : Dev.slotOnly ws a c := by
  obtain ⟨he, hw, os, ho⟩ := h
  obtain ⟨ke, kw, os', ko⟩ := k
  exact ⟨by rw [ke, he], fun x hx => (kw x hx).trans (hw x hx), os' ++ os, by rw [ko, ho, List.append_assoc]⟩

theorem Dev.slotOnly_mono {vs : List Nat} (h : Dev.slotOnly vs a b) (hsub : vs ⊆ ws) : Dev.slotOnly ws a b :=
  ⟨h.1, fun x hx => h.2.1 x fun hv => hx (hsub hv), h.2.2⟩

/-! What such operations leave alone. -/

theorem Dev.slotOnly_pos (h : Dev.slotOnly ws a b) : b.pos = a.pos := (congrArg Dev.pos h.1 :)
theorem Dev.slotOnly_dsets (h : Dev.slotOnly ws a b) : b.plc.dsets = a.plc.dsets := (congrArg (fun d : Dev => d.plc.dsets) h.1 :)

/-- The memories stand. -/
def Dev.sameMemories (d e : Dev) : Prop := e.ddr = d.ddr ∧ e.nor = d.nor ∧ e.feram = d.feram ∧ e.cobMem = d.cobMem

theorem Dev.slotOnly_memories (h : Dev.slotOnly ws a b) : a.sameMemories b :=
  ⟨(congrArg Dev.ddr h.1 :), (congrArg Dev.nor h.1 :), (congrArg Dev.feram h.1 :), (congrArg Dev.cobMem h.1 :)⟩

theorem Dev.sameMemories_trans (h : Dev.sameMemories a b) (k : Dev.sameMemories b c) : Dev.sameMemories a c :=
  ⟨k.1.trans h.1, k.2.1.trans h.2.1, k.2.2.1.trans h.2.2.1, k.2.2.2.trans h.2.2.2⟩

theorem State.memoriesStand_of_same {s t : State} (h : s.dev.sameMemories t.dev) : s.memoriesStand t := by
  obtain ⟨hddr, hnor, hferam, hcob⟩ := h
  exact ⟨fun _ => by rw [hddr], fun _ => by rw [hnor], fun _ => by rw [hferam], fun _ => by rw [hcob]⟩

theorem Dev.slotOnly_of_regsOut (h : Dev.regsOut ws a b) : Dev.slotOnly ws a b := by
  obtain ⟨he, hrest⟩ := h
  exact ⟨by rw [he], hrest⟩

theorem Dev.slotOnly_of_fifoSide (h : Dev.fifoSide a b) (hmem : C.casFcPause ∈ ws) : Dev.slotOnly ws a b := by
  obtain ⟨he, hw, ho⟩ := h
  exact ⟨by rw [he], fun x hx => hw x (by rintro rfl; exact hx hmem), ho⟩

theorem Dev.sendMsg_eq (d : Dev) (c typ cls : Nat) (p : Payload) (len : Nat) (st : Option Nat) (bufs : List Nat) :
    d.sendMsg c typ cls p len st bufs = { d with hpt := (d.sendMsg c typ cls p len st bufs).hpt } := rfl

theorem Dev.notice_eq (d : Dev) (code : Nat) (es : List (List Byte)) : ∃ hpt, d.notice code es = { d with hpt := hpt } := by
  unfold Dev.notice
  refine List.foldlRecOn (motive := fun f : Dev => ∃ hpt, f = { d with hpt := hpt }) _ _ ⟨_, rfl⟩ ?_
  rintro f ⟨hpt, hf⟩ k -
  exact ⟨_, by rw [Dev.sendMsg_eq, hf]⟩

theorem Dev.slotOnly_log (d : Dev) (e : LogEntry) (h : C.cqmLogLost ∈ ws) : d.slotOnly ws (d.log e) := by
  obtain ⟨heq, hword⟩ := d.logOnly_log e
  exact ⟨by rw [heq], fun x hx => hword x (by rintro rfl; exact hx h), [], by rw [heq]; rfl⟩

theorem Dev.slotOnly_notice (d : Dev) (code : Nat) (es : List (List Byte)) : d.slotOnly ws (d.notice code es) := by
  obtain ⟨hpt, h⟩ := d.notice_eq code es
  rw [h]
  exact ⟨rfl, fun _ _ => rfl, [], rfl⟩

/-- An event logs an entry and tells the hosts (R302, R326). -/
theorem Dev.slotOnly_event (d : Dev) (code : Nat) (h : C.cqmLogLost ∈ ws) : d.slotOnly ws (d.event code) :=
  Dev.slotOnly_trans (d.slotOnly_log _ h) (Dev.slotOnly_notice _ _ _)

theorem Dev.slotOnly_warned (d : Dev) (w : Bool) : d.slotOnly ws (d.modPlc fun p => { p with warned := w }) := ⟨rfl, fun _ _ => rfl, [], rfl⟩

/-- The registers that the early warning writes (R252, R326). -/
def capacityWords : List Nat := [F.plcStatusEwSeen.addr, C.cqmLogLost]

theorem Dev.slotOnly_checkCapacity (d : Dev) : d.slotOnly capacityWords d.checkCapacity := by
  unfold Dev.checkCapacity
  extract_lets low
  split
  · have hset : d.slotOnly capacityWords (d.set F.plcStatusEwSeen 1) := Dev.slotOnly_of_regsOut (d.regsOut_set _ _ (by decide))
    exact Dev.slotOnly_trans hset (Dev.slotOnly_trans (Dev.slotOnly_warned _ true) (Dev.slotOnly_event _ _ (by decide)))
  split
  · exact d.slotOnly_refl
  · exact d.slotOnly_warned false

/-! ## What a slot's content takes from the FIFOs -/

theorem Dev.slotOnly_fifos (d : Dev) (fifos : List (Nat × Fifo)) : d.slotOnly ws { d with fifos := fifos } := ⟨rfl, fun _ _ => rfl, [], rfl⟩
theorem Dev.slotOnly_taking (d : Dev) (x : Option (Nat × Nat)) : d.slotOnly ws { d with chan := { d.chan with taking := x } } :=
  ⟨rfl, fun _ _ => rfl, [], rfl⟩

theorem Dev.slotOnly_foldl_mapsFifo {g : Fifo → Fifo} {f : Dev → Nat → Dev} (hf : Dev.mapsFifo g f) (d : Dev) :
    d.slotOnly ws (d.channelsOn.foldl f d) := by
  rw [(Dev.foldl_mapsFifo hf d.channelsOn_nodup d).1]
  exact d.slotOnly_fifos _

theorem Dev.slotOnly_settleFifos (d : Dev) (h : C.casFcPause ∈ ws) : d.slotOnly ws d.settleFifos :=
  Dev.slotOnly_of_fifoSide d.fifoSide_settleFifos h

theorem Dev.slotOnly_endTaking (d : Dev) (h : C.casFcPause ∈ ws) : d.slotOnly ws d.endTaking := by
  unfold Dev.endTaking
  split
  · exact d.slotOnly_refl
  next n _ =>
    have htook := Dev.slotOnly_foldl_mapsFifo (ws := ws) (Dev.mapsFifo_putFifo fun f => { f with rd := (f.rd + (segmentWords - n)) % 8192 }) d
    exact Dev.slotOnly_trans htook (Dev.slotOnly_trans (Dev.slotOnly_taking _ _) (Dev.slotOnly_settleFifos _ h))

/-- The marks are released, and the slot's content is taken from then on (R176, R354). -/
theorem Dev.releaseMarks_spec (d : Dev) (g : Nat) (h : C.casFcPause ∈ ws) :
    d.slotOnly ws (d.releaseMarks g) ∧ (d.releaseMarks g).chan.taking = some (g, 0)
      ∧ ∀ n ∈ d.channelsOn, ((d.releaseMarks g).fifo n).mark = none := by
  have hmaps := Dev.mapsFifo_putFifo fun f => { f with mark := none }
  obtain ⟨heq, hfifo⟩ := Dev.foldl_mapsFifo hmaps d.channelsOn_nodup d
  have hfreed := Dev.slotOnly_foldl_mapsFifo (ws := ws) hmaps d
  have hsettled : ∀ e : Dev, d.slotOnly ws e → e.chan.taking = some (g, 0) → (∀ n ∈ d.channelsOn, (e.fifo n).mark = none) →
      d.slotOnly ws e.settleFifos ∧ e.settleFifos.chan.taking = some (g, 0) ∧ ∀ n ∈ d.channelsOn, (e.settleFifos.fifo n).mark = none := by
    intro e he htaking hmarks
    have hside := e.fifoSide_settleFifos.1
    refine ⟨Dev.slotOnly_trans he (e.slotOnly_settleFifos h), by rw [hside, htaking], fun n hn => ?_⟩
    rw [hside]
    exact hmarks n hn
  exact hsettled _ (Dev.slotOnly_trans hfreed (Dev.slotOnly_taking _ _)) rfl fun n hn => by
    refine Eq.trans (congrArg Fifo.mark (hfifo n)) ?_
    rw [if_pos hn]

/-! ## A slot is written -/

/-- The registers that the writing of a slot touches: the gate, the pauses of flow control, the early warning and the log. -/
def slotWords : List Nat := C.casFcPause :: gateWords ++ capacityWords

/-- A slot goes out with its tracks and their transitions (R103, R104, R106). -/
theorem Dev.putSlot_spec (d : Dev) (g : Nat) (tracks : List (Nat × List Bool)) :
    d.slotOnly slotWords (d.putSlot g tracks) ∧ Out.slot g tracks ∈ (d.putSlot g tracks).out ∧ ∃ ed, Out.edges g ed ∈ (d.putSlot g tracks).out := by
  unfold Dev.putSlot
  extract_lets taken opened start levels follows last edges ends out _ shown
  have htaken : d.slotOnly slotWords taken := d.slotOnly_endTaking (by decide)
  have hout : taken.slotOnly slotWords out := by
    have hgate : taken.slotOnly slotWords taken.openGate :=
      Dev.slotOnly_mono (Dev.slotOnly_of_regsOut taken.regsOut_openGate) (by decide)
    exact Dev.slotOnly_trans hgate (Dev.slotOnly_of_regsOut (Dev.regsOut_trans (Dev.regsOut_emit _ _) (Dev.regsOut_emit _ _)))
  have hslot : Out.slot g tracks ∈ out.out := by simp [out, Dev.emit]
  have hedges : Out.edges g edges ∈ out.out := by simp [out, Dev.emit]
  clear_value out edges taken
  have hend : out.slotOnly slotWords ((shown.modPlc fun p => { p with sinceSpeed := p.sinceSpeed + 1 }).checkCapacity) :=
    Dev.slotOnly_trans (b := shown) ⟨rfl, fun _ _ => rfl, [], rfl⟩ (Dev.slotOnly_trans (b := shown.modPlc _) ⟨rfl, fun _ _ => rfl, [], rfl⟩
      (Dev.slotOnly_mono (Dev.slotOnly_checkCapacity _) (by decide : capacityWords ⊆ slotWords)))
  refine ⟨Dev.slotOnly_trans htaken (Dev.slotOnly_trans hout hend), ?_⟩
  obtain ⟨os, ho⟩ := hend.2.2
  rw [ho]
  exact ⟨List.mem_append_right _ hslot, edges, List.mem_append_right _ hedges⟩

end Sys2Proof.Machine
end

section
/-!
SUPPORT. DATA_SET_START (R78, R83, R84, R100 to R104): the next armed start fires, and its slot is written or the start is aborted.
-/
namespace Sys2Proof.Machine

theorem exec_dataSetStart (under : List Nat) (s : State) :
    exec (.dataSetStart under) s = .next { s with dev := s.dev.dataSetStart under } := rfl

/-! ## What rests on words that a slot does not write -/

variable {d e : Dev}

theorem handlePool_lt (h : Nat) : handlePool h < 8 := Nat.mod_lt _ (by decide)

theorem Dev.self_congr (hword : e.word F.casCfgMode.addr = d.word F.casCfgMode.addr) (hcas : e.cas.barred = d.cas.barred)
    (hstraps : e.glb = d.glb) : e.self = d.self := by
  have hmode : e.casMode = d.casMode := by rw [Dev.casMode, Dev.casMode, Dev.get, Dev.get, hword, hcas]
  rw [Dev.self, Dev.self, Dev.follows, Dev.follows, hmode, hstraps]

/-- Where a buffer lies rests on the base of its pool (R340). -/
theorem Dev.bufAddr_congr (hword : ∀ i < 8, e.word (F.bpmPoolBaseBase.ix i).addr = d.word (F.bpmPoolBaseBase.ix i).addr) (h : Nat) :
    e.bufAddr h = d.bufAddr h := by
  rw [Dev.bufAddr, Dev.bufAddr, Dev.get, Dev.get, hword _ (handlePool_lt h)]

/-! ## The next start fires -/

/-- The device as its next start fires: TPOS has come to its target, and its entry is gone. -/
def Dev.started (d : Dev) (y : Entry) : Dev :=
  let e := (d.reach y.target).dropEntries fun x => x == y
  { e with pos := { e.pos with regapFrom := none } }

variable {z : Session} {y : Entry} {ys : List Entry} {g : Nat}

/-- With position locked the slot gets the data set meant for it, or a gap (R84, R102). -/
theorem Dev.dataSetStart_locked (hz : d.plc.session = some z) (hregap : d.pos.regapFrom = none)
    (hnext : d.nextEntries Entry.isStart = y :: ys) (howner : y.owner = .dsStart g) (hmode : d.pos.mode = .locked) :
    d.dataSetStart [] = match ((d.reach y.target).occupant g).bind fun x => x.last?.map fun k => (x, k) with
      | none => (d.started y).putGap z g
      | some (x, k) => ((d.started y).putData z x k []).armWindow z g x.id := by
  have hpos : (d.reach y.target).pos = d.pos := by rw [(d.regsOut_reach y.target).1]
  simp only [Dev.dataSetStart, hz, hregap, hnext, howner, hpos, hmode, Option.isSome_none, Bool.false_and, Bool.false_eq_true, if_false,
    reduceCtorEq, bne_self_eq_false, beq_iff_eq]
  rfl

/-- With position not locked the start is aborted (R83). -/
theorem Dev.dataSetStart_aborted (hz : d.plc.session = some z) (hregap : d.pos.regapFrom = none)
    (hnext : d.nextEntries Entry.isStart = y :: ys) (howner : y.owner = .dsStart g)
    (hmode : d.pos.mode = .count ∨ d.pos.mode = .acquire ∨ d.pos.mode = .uncertain) :
    d.dataSetStart [] = (d.reach y.target).abortStart z y g := by
  have hpos : (d.reach y.target).pos = d.pos := by rw [(d.regsOut_reach y.target).1]
  simp only [Dev.dataSetStart, hz, hregap, hnext, howner, hpos, Option.isSome_none, Bool.false_and, Bool.false_eq_true, if_false]
  obtain hm | hm | hm := hmode <;> rw [hm] <;> rfl

/-- What stands as the start fires: all but TPOS, the gate, its entry and the mark of an abort. -/
theorem Dev.started_spec (d : Dev) (y : Entry) :
    Dev.regsOut reachWords { d with pos := { d.pos with entries := d.pos.entries.filter fun x => !(x == y), regapFrom := none } } (d.started y) := by
  obtain ⟨he, hw, ho⟩ := d.regsOut_reach y.target
  unfold Dev.started
  generalize d.reach y.target = e at *
  exact ⟨by rw [he]; rfl, hw, ho⟩

theorem Dev.occupant_reach (d : Dev) (p : Int) (g : Nat) : (d.reach p).occupant g = d.occupant g := by
  obtain ⟨he, hw, -⟩ := d.regsOut_reach p
  generalize d.reach p = e at *
  have hself : e.self = d.self := Dev.self_congr (hw _ (by decide)) (by rw [he]) (by rw [he])
  have harmed : e.startArmed g = d.startArmed g := by rw [Dev.startArmed, he, Dev.startArmed]
  rw [Dev.occupant, Dev.occupant, hself, harmed, he]

/-! ## A gap, and a data set from its marked words -/

/-- The registers that the writing of a gap touches (R251). -/
def gapWords : List Nat := C.plcReserve :: slotWords

theorem Dev.reserve_spec (h : d.slotOnly slotWords e) :
    d.slotOnly gapWords (e.bumpBy C.plcReserve 15) ∧ (e.bumpBy C.plcReserve 15).word C.plcReserve = d.word C.plcReserve + 15 := by
  refine ⟨Dev.slotOnly_trans (Dev.slotOnly_mono h (by decide)) (Dev.slotOnly_of_regsOut (e.regsOut_putWord _ (by decide))), ?_⟩
  rw [Dev.bumpBy, Dev.word_putWord_same, h.2.1 _ (by decide)]
  rfl

/-- A gap goes out in its slot, and the reserve counts 15 (R102, R251). -/
theorem Dev.putGap_spec (d : Dev) (z : Session) (g : Nat) :
    d.slotOnly gapWords (d.putGap z g) ∧ (d.putGap z g).word C.plcReserve = d.word C.plcReserve + 15
      ∧ Out.slot g (d.slotTracks z g fun n => segmentContent (z.gapHeader d.self g) n []) ∈ (d.putGap z g).out := by
  obtain ⟨honly, hslot, -⟩ := d.putSlot_spec g (d.slotTracks z g fun n => segmentContent (z.gapHeader d.self g) n [])
  have heq : d.putGap z g = (d.putSlot g (d.slotTracks z g fun n => segmentContent (z.gapHeader d.self g) n [])).bumpBy C.plcReserve 15 := by
    unfold Dev.putGap
    exact Eq.refl _
  obtain ⟨hgap, hreserve⟩ := Dev.reserve_spec honly
  rw [heq]
  exact ⟨hgap, hreserve, by rw [Dev.bumpBy_out]; exact hslot⟩

/-- The registers that the writing of a copy touches (R101, R251). -/
def dataWords : List Nat := C.wchUnderrun :: C.posProvisional :: gapWords

/-- The words of the enabled channels are being taken: the marks are released, and the slot's content is next. -/
def Dev.takes (d e : Dev) (g : Nat) : Prop :=
  d.slotOnly dataWords e ∧ e.chan.taking = some (g, 0) ∧ ∀ n ∈ d.channelsOn, (e.fifo n).mark = none

theorem Dev.takes_bumpBy {x : Nat} (h : d.takes e g) (hx : x ∈ dataWords) (n : Nat) : d.takes (e.bumpBy x n) g :=
  ⟨Dev.slotOnly_trans h.1 (Dev.slotOnly_of_regsOut (e.regsOut_putWord _ hx)), h.2⟩

theorem Dev.takes_ite {p : Prop} [Decidable p] {f : Dev} (he : d.takes e g) (hf : d.takes f g) : d.takes (if p then e else f) g := by
  split
  · exact he
  · exact hf

theorem Dev.channelsOn_slotOnly {ws : List Nat} (h : d.slotOnly ws e) (hapart : ∀ i < 8, (F.wchChEnEn.ix i).addr ∉ ws) :
    e.channelsOn = d.channelsOn :=
  Dev.channelsOn_congr (fun i hi => h.2.1 _ (hapart i hi)) (by rw [h.1]) (by rw [h.1])

theorem Dev.takes_releaseMarks (d : Dev) (g : Nat) : d.takes ((d.bumpBy C.wchUnderrun 0).releaseMarks g) g := by
  obtain ⟨hrel, htaking, hmarks⟩ := (d.bumpBy C.wchUnderrun 0).releaseMarks_spec (ws := dataWords) g (by decide)
  have hbump : d.slotOnly dataWords (d.bumpBy C.wchUnderrun 0) := Dev.slotOnly_of_regsOut (d.regsOut_putWord _ (by decide))
  rw [Dev.channelsOn_slotOnly hbump (by decide)] at hmarks
  exact ⟨Dev.slotOnly_trans hbump hrel, htaking, hmarks⟩

theorem Dev.mem_out_slotOnly {ws : List Nat} (h : d.slotOnly ws e) {o : Out} (ho : o ∈ d.out) : o ∈ e.out := by
  obtain ⟨os, hos⟩ := h.2.2
  rw [hos]
  exact List.mem_append_right _ ho

/-- What a slot that has gone out keeps while the words of its content are taken. -/
theorem Dev.takes_of_slotOnly {f : Dev} (h : d.slotOnly slotWords e) (k : e.takes f g) : d.takes f g := by
  obtain ⟨hrel, htaking, hmarks⟩ := k
  rw [Dev.channelsOn_slotOnly h (by decide)] at hmarks
  exact ⟨Dev.slotOnly_trans (Dev.slotOnly_mono h (by decide)) hrel, htaking, hmarks⟩

/-! ## The copies of a data set -/

theorem getLast?_modAt {α : Type} (f : α → α) (l : List α) : (modAt f l (l.length - 1)).getLast? = l.getLast?.map f := by
  induction l with
  | nil => rfl
  | cons x l ih =>
    cases l with
    | nil => rfl
    | cons y l =>
      have : modAt f (y :: l) l.length ≠ [] := by cases l <;> simp [modAt]
      simp only [List.length_cons, Nat.add_sub_cancel] at ih ⊢
      rw [modAt, List.getLast?_cons, List.getLast?_cons_cons, ← ih, List.getLast?_eq_some_getLast this]
      rfl

theorem DSet.last?_modLast (x : DSet) (f : Copy → Copy) : (x.modLast f).last? = x.last?.map f := getLast?_modAt f x.copies

/-- The latest copy of every data set of that number is written. -/
def Dev.lastWritten (d : Dev) (id : Nat) : Prop := ∀ w ∈ d.plc.dsets, w.id = id → (w.last?.all fun k => k.step == .written) = true

theorem Dev.lastWritten_modDset (d : Dev) (id : Nat) (f : Copy → Copy) (h : d.lastWritten id ∨ ∀ k, (f k).step = .written)
    (hf : ∀ k, k.step = .written → (f k).step = .written) : (d.modDset id fun x => x.modLast f).lastWritten id := by
  intro w hw hid
  obtain ⟨x, hx, rfl⟩ := List.mem_map.mp hw
  by_cases hxid : x.id = id
  · have hold : x.last?.all (fun k => (f k).step == .written) = true := by
      obtain h | h := h
      · have := h x hx hxid
        cases hlast : x.last? with
        | none => rfl
        | some k => simpa [hf] using hf k (by simpa [hlast] using this)
      · cases x.last? <;> simp [h]
    simp only [hxid, beq_self_eq_true, if_true, DSet.last?_modLast, Option.all_map]
    exact hold
  · simp [hxid] at hid

/-! ## A data set from its marked words -/

/-- A copy whose words are marked goes out in its slot: its content is taken from the marks on, and it is written (R100, R176). -/
structure Dev.wroteCopy (d : Dev) (z : Session) (x : DSet) (k : Copy) (e : Dev) : Prop where
  memories : d.sameMemories e
  pos : e.pos = d.pos
  tpos : e.tpos = d.tpos
  taking : e.chan.taking = some (k.slot, 0)
  marks : ∀ n ∈ d.channelsOn, (e.fifo n).mark = none
  slot : Out.slot k.slot (d.slotTracks z k.slot fun n => segmentContent (x.header k) n
    (d.ddrBytes (d.bufAddr x.handle + trackOffset (logicalTrack k.slot n)) 8192)) ∈ e.out
  edges : ∃ ed, Out.edges k.slot ed ∈ e.out
  written : e.lastWritten x.id

/-- The session notes the slot, and the copy is written. -/
def Dev.noteWritten (d : Dev) (g id : Nat) (f : Copy → Copy) : Dev :=
  (d.modSession fun s => { s with lastUsed := some g }).modDset id fun x => x.modLast f

theorem Dev.wroteCopy_noteWritten {x : DSet} {k : Copy} {out : Dev} {f : Copy → Copy} (hout : d.slotOnly slotWords out)
    (hslot : Out.slot k.slot (d.slotTracks z k.slot fun n => segmentContent (x.header k) n
      (d.ddrBytes (d.bufAddr x.handle + trackOffset (logicalTrack k.slot n)) 8192)) ∈ out.out)
    (hedges : ∃ ed, Out.edges k.slot ed ∈ out.out) (htook : out.takes e k.slot) (hf : ∀ k, (f k).step = .written) :
    d.wroteCopy z x k (e.noteWritten k.slot x.id f) := by
  obtain ⟨honly, htaking, hmarks⟩ := Dev.takes_of_slotOnly hout htook
  obtain ⟨ed, hed⟩ := hedges
  exact {
    memories := (Dev.slotOnly_memories honly :)
    pos := (Dev.slotOnly_pos honly :)
    tpos := Dev.tpos_eq (b := e.noteWritten k.slot x.id f) (honly.2.1 _ (by decide))
    taking := htaking
    marks := hmarks
    slot := Dev.mem_out_slotOnly htook.1 hslot
    edges := ⟨ed, Dev.mem_out_slotOnly htook.1 hed⟩
    written := Dev.lastWritten_modDset _ x.id f (.inr hf) fun k _ => hf k }

theorem Dev.wroteCopy_putData (d : Dev) (z : Session) (x : DSet) (k : Copy) (hpoison : d.poison = []) (hmarked : k.step = .marked) :
    d.wroteCopy z x k (d.putData z x k []) := by
  have hbad : ((List.range 256).filter fun n => d.poisoned (d.bufAddr x.handle + trackOffset (logicalTrack k.slot n)) 8192) = [] := by
    simp [Dev.poisoned, hpoison]
  obtain ⟨honly, hslot, hedges⟩ := d.putSlot_spec k.slot (d.slotTracks z k.slot fun n => segmentContent (x.header k) n
    (d.ddrBytes (d.bufAddr x.handle + trackOffset (logicalTrack k.slot n)) 8192))
  unfold Dev.putData
  simp only [hbad, List.append_nil, List.dedup_nil, List.isEmpty_nil, if_true, hmarked, beq_self_eq_true, Bool.not_true, Bool.false_eq_true,
    if_false, List.contains_nil, List.filter_nil, List.length_nil]
  generalize d.putSlot k.slot _ = out at *
  have htook := out.takes_releaseMarks k.slot
  generalize (out.bumpBy C.wchUnderrun 0).releaseMarks k.slot = took at *
  have hreserve : out.takes (took.bumpBy C.plcReserve 15) k.slot := Dev.takes_bumpBy htook (by decide) 15
  have hcounted := Dev.takes_ite (p := 0 < k.copy) hreserve (Dev.takes_ite (p := x.typ = 3) hreserve htook)
  generalize ite (0 < k.copy) (took.bumpBy C.plcReserve 15) _ = counted at *
  have hbumped : out.takes (counted.bump C.posProvisional) k.slot := Dev.takes_bumpBy hcounted (by decide) 1
  have hprov := Dev.takes_ite (p := decide (counted.pos.sinceFly ≤ 6) = true) hbumped hcounted
  generalize ite (decide (counted.pos.sinceFly ≤ 6) = true) (counted.bump C.posProvisional) counted = last at *
  exact Dev.wroteCopy_noteWritten honly hslot hedges hprov (fun _ => rfl)

/-- The verify window is armed, or the copy has none (R61, R79). -/
theorem Dev.armWindow_cases (d : Dev) (z : Session) (g id : Nat) :
    (∃ t rev, d.armWindow z g id = d.withEntry ⟨t, rev, .window g⟩)
      ∨ d.armWindow z g id = (d.bump C.posLate).modDset id fun x => x.modLast fun k => { k with noWindow := true } := by
  unfold Dev.armWindow
  extract_lets rev t
  obtain h | h := d.arm_cases ⟨t, rev, .window g⟩ <;> rw [h]
  · exact .inr rfl
  · exact .inl ⟨t, rev, rfl⟩

/-! ## The outcomes -/

/-- A slot's tracks rest on the enabled channels, the device's place in the set and the contents (R100, R101). -/
theorem Dev.slotTracks_congr (z : Session) (g : Nat) {content content' : Nat → List Bool} (hon : e.channelsOn = d.channelsOn)
    (hself : e.self = d.self) (hcontent : content' = content) : e.slotTracks z g content' = d.slotTracks z g content := by
  rw [Dev.slotTracks, Dev.slotTracks, hon, hself, hcontent]

/-- What stands as a start fires: what is enabled, the device's place in the set, where buffers lie, memories and data sets. -/
theorem Dev.started_stands (d : Dev) (y : Entry) :
    (d.started y).channelsOn = d.channelsOn ∧ (d.started y).self = d.self ∧ (∀ h, (d.started y).bufAddr h = d.bufAddr h)
      ∧ d.sameMemories (d.started y) ∧ (d.started y).plc = d.plc ∧ (d.started y).pos.entries = d.pos.entries.filter fun x => !(x == y) := by
  obtain ⟨he, hw, -⟩ := d.started_spec y
  refine ⟨Dev.channelsOn_congr (fun i hi => hw _ ?_) (by rw [he]) (by rw [he]), Dev.self_congr (hw _ (by decide)) (by rw [he]) (by rw [he]),
    Dev.bufAddr_congr fun i hi => hw _ ?_, ⟨by rw [he], by rw [he], by rw [he], by rw [he]⟩, by rw [he], by rw [he]⟩
  · exact (by decide : ∀ i < 8, (F.wchChEnEn.ix i).addr ∉ reachWords) i hi
  · exact (by decide : ∀ i < 8, (F.bpmPoolBaseBase.ix i).addr ∉ reachWords) i hi

theorem Dev.word_started (d : Dev) (y : Entry) {x : Nat} (h : x ∉ reachWords) : (d.started y).word x = d.word x :=
  (d.started_spec y).2.1 x h

theorem Dev.poison_started (d : Dev) (y : Entry) : (d.started y).poison = d.poison := by
  rw [(d.started_spec y).1]

/-- TPOS stands at the target as the start fires. -/
theorem Dev.tpos_started (d : Dev) (y : Entry) : (d.started y).tpos = (d.setTpos y.target).tpos := d.tpos_reach y.target

/-- With no data set meant for it the slot gets a gap (R102, R251). -/
theorem runs_dataSetStart_gap {s : State} (hz : s.dev.plc.session = some z) (hregap : s.dev.pos.regapFrom = none)
    (hnext : s.dev.nextEntries Entry.isStart = y :: ys) (howner : y.owner = .dsStart g) (hmode : s.dev.pos.mode = .locked)
    (hnone : s.dev.occupant g = none) :
    Runs (.dataSetStart []) s fun t =>
      Out.slot g (s.dev.slotTracks z g fun n => segmentContent (z.gapHeader s.dev.self g) n []) ∈ t.dev.out
      ∧ t.dev.plc.dsets = s.dev.plc.dsets ∧ y ∉ t.dev.pos.entries ∧ s.memoriesStand t
      ∧ t.dev.word C.plcReserve = s.dev.word C.plcReserve + 15 := by
  refine ⟨_, exec_dataSetStart [] s, ?_⟩
  have heq := Dev.dataSetStart_locked hz hregap hnext howner hmode
  rw [Dev.occupant_reach, hnone, Option.bind_none] at heq
  dsimp only at heq
  rw [heq]
  obtain ⟨hon, hself, -, hmem, hplc, hentries⟩ := s.dev.started_stands y
  have hword := s.dev.word_started y (x := C.plcReserve) (by decide)
  generalize s.dev.started y = d at *
  obtain ⟨hgap, hreserve, hslot⟩ := d.putGap_spec z g
  have htracks : (d.slotTracks z g fun n => segmentContent (z.gapHeader d.self g) n [])
      = s.dev.slotTracks z g fun n => segmentContent (z.gapHeader s.dev.self g) n [] :=
    Dev.slotTracks_congr z g hon hself (by rw [hself])
  rw [htracks] at hslot
  generalize d.putGap z g = e at *
  refine ⟨hslot, by rw [Dev.slotOnly_dsets hgap, hplc], ?_,
    State.memoriesStand_of_same (Dev.sameMemories_trans hmem (Dev.slotOnly_memories hgap)), by rw [hreserve, hword]⟩
  rw [Dev.slotOnly_pos hgap, hentries]
  simp

/-- The data set that a slot is to receive has its latest copy meant for that slot. -/
theorem Dev.occupant_slot {x : DSet} {k : Copy} (h : d.occupant g = some x) (hk : x.last? = some k) : k.slot = g := by
  unfold Dev.occupant at h
  split at h
  · exact absurd h (by simp)
  · have := List.find?_some h
    simp only [hk, Bool.and_eq_true, beq_iff_eq] at this
    exact this.2.1

/-- What a window's arming leaves alone. -/
theorem Dev.armWindow_stands (d : Dev) (z : Session) (g id : Nat) :
    d.sameMemories (d.armWindow z g id) ∧ (d.armWindow z g id).out = d.out ∧ (d.armWindow z g id).chan = d.chan
      ∧ (d.armWindow z g id).fifos = d.fifos ∧ (d.armWindow z g id).tpos = d.tpos := by
  obtain ⟨t, rev, h⟩ | h := d.armWindow_cases z g id <;> rw [h]
  · exact ⟨⟨rfl, rfl, rfl, rfl⟩, rfl, rfl, rfl, rfl⟩
  · exact ⟨⟨rfl, rfl, rfl, rfl⟩, rfl, rfl, rfl, Dev.tpos_eq (d.word_bumpBy_other _ 1 (by decide))⟩

/-- The start's own entry does not come back with the window's. -/
theorem Dev.not_mem_armWindow (howner : y.owner = .dsStart g) (h : y ∉ d.pos.entries) (id : Nat) : y ∉ (d.armWindow z g id).pos.entries := by
  obtain ⟨t, rev, heq⟩ | heq := d.armWindow_cases z g id <;> rw [heq]
  · simp only [Dev.withEntry, List.mem_append, List.mem_singleton, not_or]
    refine ⟨h, ?_⟩
    rintro rfl
    cases howner
  · exact h

theorem Dev.lastWritten_armWindow {id : Nat} (h : d.lastWritten id) : (d.armWindow z g id).lastWritten id := by
  obtain ⟨t, rev, heq⟩ | heq := d.armWindow_cases z g id <;> rw [heq]
  · exact h
  · exact Dev.lastWritten_modDset (d.bump C.posLate) id _ (.inl h) fun _ h => h

/-- The marked data set meant for the slot is written in it (R100, R176). -/
theorem runs_dataSetStart_data {s : State} {x : DSet} {k : Copy} (hz : s.dev.plc.session = some z) (hregap : s.dev.pos.regapFrom = none)
    (hnext : s.dev.nextEntries Entry.isStart = y :: ys) (howner : y.owner = .dsStart g) (hmode : s.dev.pos.mode = .locked)
    (hocc : s.dev.occupant g = some x) (hk : x.last? = some k) (hmarked : k.step = .marked) (hpoison : s.dev.poison = []) :
    Runs (.dataSetStart []) s fun t =>
      Out.slot g (s.dev.slotTracks z g fun n => segmentContent (x.header k) n
          (s.dev.ddrBytes (s.dev.bufAddr x.handle + trackOffset (logicalTrack g n)) 8192)) ∈ t.dev.out
      ∧ t.dev.lastWritten x.id ∧ (∀ n ∈ s.dev.channelsOn, (t.dev.fifo n).mark = none) ∧ t.dev.chan.taking = some (g, 0)
      ∧ (∃ ed, Out.edges g ed ∈ t.dev.out) ∧ y ∉ t.dev.pos.entries ∧ t.dev.tpos = (s.dev.setTpos y.target).tpos ∧ s.memoriesStand t := by
  refine ⟨_, exec_dataSetStart [] s, ?_⟩
  have heq := Dev.dataSetStart_locked hz hregap hnext howner hmode
  rw [Dev.occupant_reach, hocc, Option.bind_some, hk, Option.map_some] at heq
  dsimp only at heq
  rw [heq]
  obtain rfl := Dev.occupant_slot hocc hk
  obtain ⟨hon, hself, haddr, hmem, -, hentries⟩ := s.dev.started_stands y
  have hp := s.dev.poison_started y
  have htpos := s.dev.tpos_started y
  generalize s.dev.started y = d at *
  have hwrote := d.wroteCopy_putData z x k (by rw [hp, hpoison]) hmarked
  generalize d.putData z x k [] = e at *
  obtain ⟨harmMem, harmOut, harmChan, harmFifo, harmTpos⟩ := e.armWindow_stands z k.slot x.id
  have hentry : y ∉ (e.armWindow z k.slot x.id).pos.entries :=
    Dev.not_mem_armWindow howner (by rw [hwrote.pos, hentries]; simp) x.id
  have hwritten := Dev.lastWritten_armWindow (z := z) (g := k.slot) hwrote.written
  generalize e.armWindow z k.slot x.id = t at *
  have hcontent : (fun n => segmentContent (x.header k) n (d.ddrBytes (d.bufAddr x.handle + trackOffset (logicalTrack k.slot n)) 8192))
      = fun n => segmentContent (x.header k) n
        (s.dev.ddrBytes (s.dev.bufAddr x.handle + trackOffset (logicalTrack k.slot n)) 8192) := by
    funext n
    rw [haddr, Dev.ddrBytes, Dev.ddrBytes, hmem.1]
  have hslot := hwrote.slot
  rw [Dev.slotTracks_congr z k.slot hon hself hcontent, ← harmOut] at hslot
  obtain ⟨ed, hed⟩ := hwrote.edges
  refine ⟨hslot, hwritten, fun n hn => ?_, by rw [harmChan]; exact hwrote.taking, ⟨ed, by rw [harmOut]; exact hed⟩, hentry,
    by rw [harmTpos, hwrote.tpos, htpos],
    State.memoriesStand_of_same (Dev.sameMemories_trans hmem (Dev.sameMemories_trans hwrote.memories harmMem))⟩
  rw [Dev.fifo, harmFifo]
  exact hwrote.marks n (by rw [hon]; exact hn)

/-! ## An aborted start -/

/-- The starts are cancelled: their entries go, and the session's data sets wait to be placed again (R84). -/
theorem Dev.cancelStarts_eq (d : Dev) :
    ∃ plc, d.cancelStarts = { d with plc := plc, pos := { d.pos with entries := d.pos.entries.filter fun e => !e.isStart } } := by
  unfold Dev.cancelStarts
  split
  · exact ⟨d.plc, rfl⟩
  · exact ⟨_, rfl⟩

theorem Dev.rewindFifos_eq (d : Dev) : ∃ fifos, d.rewindFifos = { d with fifos := fifos } := by
  unfold Dev.rewindFifos
  refine List.foldlRecOn (motive := fun e : Dev => ∃ fifos, e = { d with fifos := fifos }) _ _ ⟨d.fifos, rfl⟩ ?_
  rintro e ⟨fifos, rfl⟩ n -
  dsimp only
  split
  · exact ⟨_, rfl⟩
  · exact ⟨_, rfl⟩

/-- No start is armed, the abort is counted and the memories stand (R83). -/
def Dev.abortedFrom (d e : Dev) : Prop :=
  e.word C.posAbort = d.word C.posAbort + 1 ∧ (e.pos.entries.any Entry.isStart) = false ∧ d.sameMemories e

theorem Dev.cancelStarts_stands (d : Dev) :
    d.cancelStarts.rewindFifos.regs = d.regs ∧ (d.cancelStarts.rewindFifos.pos.entries.any Entry.isStart) = false
      ∧ d.sameMemories d.cancelStarts.rewindFifos := by
  obtain ⟨plc, hcancel⟩ := d.cancelStarts_eq
  obtain ⟨fifos, hrewind⟩ := d.cancelStarts.rewindFifos_eq
  rw [hrewind, hcancel]
  exact ⟨rfl, by simp, rfl, rfl, rfl, rfl⟩

theorem Dev.abortedFrom_bump (h : e.regs = d.regs ∧ (e.pos.entries.any Entry.isStart) = false ∧ d.sameMemories e) :
    d.abortedFrom (e.bump C.posAbort) := by
  obtain ⟨hregs, hentries, hmem⟩ := h
  refine ⟨?_, by rw [Dev.bump_pos, hentries], ?_⟩
  · rw [Dev.word_bump_same, Dev.word, hregs, Dev.word]
  · rw [Dev.sameMemories, Dev.bump_ddr, Dev.bump_nor, Dev.bump_feram, Dev.bump_cobMem]
    exact hmem

theorem Dev.abortedFrom_slotOnly {ws : List Nat} {f : Dev} (h : d.abortedFrom e) (k : e.slotOnly ws f) (hws : C.posAbort ∉ ws) :
    d.abortedFrom f := by
  obtain ⟨hcount, hentries, hmem⟩ := h
  exact ⟨by rw [k.2.1 _ hws, hcount], by rw [Dev.slotOnly_pos k, hentries], Dev.sameMemories_trans hmem (Dev.slotOnly_memories k)⟩

theorem Dev.abortedFrom_modSession (h : d.abortedFrom e) (f : Session → Session) : d.abortedFrom (e.modSession f) := h

theorem Dev.abortedFrom_abortStart (d : Dev) (z : Session) (y : Entry) (g : Nat) : d.abortedFrom (d.abortStart z y g) := by
  unfold Dev.abortStart
  extract_lets here counted _ gapless dropped
  have hcounted : d.abortedFrom counted := Dev.abortedFrom_bump d.cancelStarts_stands
  have hdropped : d.abortedFrom dropped := by
    clear_value counted
    obtain ⟨hcount, hentries, hmem⟩ := hcounted
    refine ⟨hcount, ?_, hmem⟩
    change ((counted.pos.entries.filter fun x => !(x == y)).any Entry.isStart) = false
    rw [List.any_eq_false] at hentries ⊢
    exact fun x hx => hentries x (List.mem_filter.mp hx).1
  clear_value dropped
  split
  · exact Dev.abortedFrom_modSession (Dev.abortedFrom_slotOnly hdropped (dropped.putGap_spec z g).1 (by decide)) _
  · exact Dev.abortedFrom_modSession hdropped _

/-- With position not locked the start is aborted (R83). -/
theorem runs_dataSetStart_aborted {s : State} (hz : s.dev.plc.session = some z) (hregap : s.dev.pos.regapFrom = none)
    (hnext : s.dev.nextEntries Entry.isStart = y :: ys) (howner : y.owner = .dsStart g)
    (hmode : s.dev.pos.mode = .count ∨ s.dev.pos.mode = .acquire ∨ s.dev.pos.mode = .uncertain) :
    Runs (.dataSetStart []) s fun t => t.dev.word C.posAbort = s.dev.word C.posAbort + 1
      ∧ (t.dev.pos.entries.any Entry.isStart) = false ∧ s.memoriesStand t := by
  refine ⟨_, exec_dataSetStart [] s, ?_⟩
  rw [Dev.dataSetStart_aborted hz hregap hnext howner hmode]
  have hreach := s.dev.regsOut_reach y.target
  generalize s.dev.reach y.target = d at *
  obtain ⟨hcount, hentries, hmem⟩ := d.abortedFrom_abortStart z y g
  have hword := hreach.2.1 C.posAbort (by decide)
  have hreachMem := Dev.slotOnly_memories (Dev.slotOnly_of_regsOut hreach)
  exact ⟨by rw [hcount, hword], hentries, State.memoriesStand_of_same (Dev.sameMemories_trans hreachMem hmem)⟩

end Sys2Proof.Machine
end

section
/-!
SUPPORT. Shares and releases of a buffer (R342, R344, R345): what its owner set is after them, and what they leave alone.
-/
namespace Sys2Proof.Machine

variable {d : Dev} {h : Nat} {b : Buf}

/-- The pool of a handle holds the buffer with this owner set and GEN. -/
def Dev.holds (d : Dev) (h : Nat) (b : Buf) : Prop :=
  ∃ q, d.pool? (handlePool h) = some q ∧ handleIndex h < q.count ∧ q.buf (handleIndex h) = b

theorem Dev.query_of_holds (hb : d.holds h b) : d.query h = some b := by
  obtain ⟨q, hq, -, rfl⟩ := hb
  rw [Dev.query, hq, Option.map_some]

theorem Dev.holds_congr {e : Dev} (hpools : e.pools = d.pools) (hb : d.holds h b) : e.holds h b := by
  unfold Dev.holds Dev.pool? at *
  rw [hpools]
  exact hb

theorem Dev.holds_putPool {q p : Pool} (hq : d.pool? (handlePool h) = some q) (hcount : handleIndex h < p.count)
    (hbuf : p.buf (handleIndex h) = b) : (d.putPool (handlePool h) p).holds h b := by
  have hlen : handlePool h < d.pools.length := (List.getElem?_eq_some_iff.mp hq).1
  refine ⟨p.evaluate (d.get (F.bpmPoolCfgEw1.ix (handlePool h))) (d.get (F.bpmPoolCfgEw2.ix (handlePool h)))
    (d.get (F.bpmPoolCfgEw3.ix (handlePool h))) (d.get (F.bpmPoolCfgHyst.ix (handlePool h))), ?_, hcount, hbuf⟩
  simp [Dev.pool?, Dev.putPool, getElem?_setAt, hlen]

/-- A share adds the owner where the device runs (R342, R345). -/
theorem Dev.holds_share (hb : d.holds h b) (hrun : d.glb.dev.running = true) (o : Nat) :
    (d.share h o).2.holds h { b with owners := b.owners ||| 2 ^ o } := by
  obtain ⟨q, hq, hcount, rfl⟩ := hb
  unfold Dev.share
  simp only [hq, hrun, Bool.not_true, Bool.and_false, Bool.false_eq_true, if_false, if_neg (Nat.not_le.mpr hcount)]
  exact Dev.holds_putPool hq hcount (Pool.buf_setBuf_same _ _ _)

theorem Pool.count_giveBack (q : Pool) (i : Nat) : (q.giveBack i).count = q.count := by
  unfold Pool.giveBack
  split <;> rfl

/-- A release takes an owner out of the set (R342). -/
theorem Dev.holds_release (hb : d.holds h b) {o : Nat} (hbit : bitAt b.owners o = true) :
    (d.release h o).holds h { b with owners := b.owners - 2 ^ o } := by
  obtain ⟨q, hq, hcount, rfl⟩ := hb
  unfold Dev.release
  simp only [hq, hbit, Bool.not_true, Bool.false_or, decide_eq_true_eq, if_neg (Nat.not_le.mpr hcount)]
  split
  · exact Dev.holds_putPool hq (by rw [Pool.count_giveBack]; exact hcount) (by rw [Pool.buf_giveBack, Pool.buf_setBuf_same])
  · exact Dev.holds_putPool hq hcount (Pool.buf_setBuf_same _ _ _)

/-- An owner's bit stays while others are added. -/
theorem bitAt_or_left {v i : Nat} (w : Nat) (hbit : bitAt v i = true) : bitAt (v ||| w) i = true := by
  have hb : ∀ u, bitAt u i = u.testBit i := fun u => by rw [bitAt, Nat.testBit_eq_decide_div_mod_eq, Bool.beq_eq_decide_eq]
  rw [hb] at hbit ⊢
  rw [Nat.testBit_or, hbit, Bool.true_or]

/-! ## What they leave alone -/

/-- Pools, and the count of refused shares. -/
def Dev.poolSide (d e : Dev) : Prop :=
  e = { d with pools := e.pools, regs := e.regs } ∧ ∀ x, x ≠ C.bpmShareRefused → e.word x = d.word x

theorem Dev.poolSide_refl (d : Dev) : d.poolSide d := ⟨rfl, fun _ _ => rfl⟩

theorem Dev.poolSide_trans {e f : Dev} (h : d.poolSide e) (k : e.poolSide f) : d.poolSide f :=
  ⟨by rw [k.1, h.1], fun x hx => (k.2 x hx).trans (h.2 x hx)⟩

theorem Dev.poolSide_pools (d : Dev) (ps : List Pool) : d.poolSide { d with pools := ps } := ⟨rfl, fun _ _ => rfl⟩

theorem Dev.poolSide_share (d : Dev) (h o : Nat) : d.poolSide (d.share h o).2 := by
  have hrefused : d.poolSide (d.bump C.bpmShareRefused) := ⟨rfl, fun x hx => d.word_bumpBy_other _ 1 hx⟩
  unfold Dev.share
  split
  · exact hrefused
  dsimp only
  split
  · exact hrefused
  split
  · exact d.poolSide_refl
  · exact d.poolSide_pools _

theorem Dev.release_pools (d : Dev) (h o : Nat) : d.release h o = { d with pools := (d.release h o).pools } :=
  Dev.releaseAll_pools [h] o d

theorem Dev.poolSide_release (d : Dev) (h o : Nat) : d.poolSide (d.release h o) := by
  rw [Dev.release_pools]
  exact d.poolSide_pools _

theorem Dev.poolSide_ite {e f : Dev} {p : Prop} [Decidable p] (he : d.poolSide e) (hf : d.poolSide f) : d.poolSide (if p then e else f) := by
  split
  · exact he
  · exact hf

end Sys2Proof.Machine
end

section
/-!
SUPPORT. FIFO_MARK (R15, R176, R177, R182, R346, R354): the write-encode FIFOs rewind to the mark that they have, and are marked at the
first word of the next data set and filled.
-/
namespace Sys2Proof.Machine

theorem exec_fifoMark (s : State) : exec .fifoMark s = .next { s with dev := s.dev.fifoMark.hostSettle } := rfl

variable {a b c : Dev}

/-! ## The FIFOs and what follows from their fill -/

/-- The FIFOs' contents, and what follows from their fill. -/
def Dev.fifosOnly (d e : Dev) : Prop :=
  e = { d with fifos := e.fifos, chan := { d.chan with high := e.chan.high, low := e.chan.low }, cas := e.cas, regs := e.regs, out := e.out }
    ∧ ∀ x, x ≠ C.casFcPause → e.word x = d.word x

theorem Dev.fifosOnly_trans (h : Dev.fifosOnly a b) (k : Dev.fifosOnly b c) : Dev.fifosOnly a c :=
  ⟨by rw [k.1, h.1], fun x hx => (k.2 x hx).trans (h.2 x hx)⟩

theorem Dev.fifosOnly_plc (h : Dev.fifosOnly a b) : b.plc = a.plc := (congrArg Dev.plc h.1 :)
theorem Dev.fifosOnly_pools (h : Dev.fifosOnly a b) : b.pools = a.pools := (congrArg Dev.pools h.1 :)
theorem Dev.fifosOnly_glb (h : Dev.fifosOnly a b) : b.glb = a.glb := (congrArg Dev.glb h.1 :)
theorem Dev.fifosOnly_hpt (h : Dev.fifosOnly a b) : b.hpt = a.hpt := (congrArg Dev.hpt h.1 :)
theorem Dev.fifosOnly_ecc (h : Dev.fifosOnly a b) : b.ecc = a.ecc := (congrArg Dev.ecc h.1 :)
theorem Dev.fifosOnly_pos (h : Dev.fifosOnly a b) : b.pos = a.pos := (congrArg Dev.pos h.1 :)
theorem Dev.fifosOnly_poison (h : Dev.fifosOnly a b) : b.poison = a.poison := (congrArg Dev.poison h.1 :)
theorem Dev.fifosOnly_memories (h : Dev.fifosOnly a b) : a.sameMemories b :=
  ⟨(congrArg Dev.ddr h.1 :), (congrArg Dev.nor h.1 :), (congrArg Dev.feram h.1 :), (congrArg Dev.cobMem h.1 :)⟩

theorem Dev.fifosOnly_channelsOn (h : Dev.fifosOnly a b) : b.channelsOn = a.channelsOn :=
  Dev.channelsOn_congr (fun i hi => h.2 _ ((by decide : ∀ i < 8, (F.wchChEnEn.ix i).addr ≠ C.casFcPause) i hi)) (Dev.fifosOnly_ecc h)
    (congrArg (fun d : Dev => d.chan.groupsOn) h.1 :)

/-- The FIFOs of the enabled channels change as `g` says, and their watermarks are judged again. -/
theorem Dev.fifosOnly_foldl {g : Fifo → Fifo} {f : Dev → Nat → Dev} (hf : Dev.mapsFifo g f) (d : Dev) :
    d.fifosOnly (d.channelsOn.foldl f d).settleFifos
      ∧ ∀ n, (d.channelsOn.foldl f d).settleFifos.fifo n = if n ∈ d.channelsOn then g (d.fifo n) else d.fifo n := by
  obtain ⟨heq, hfifo⟩ := Dev.foldl_mapsFifo hf d.channelsOn_nodup d
  generalize d.channelsOn.foldl f d = e at *
  obtain ⟨hside, hword, -⟩ := e.fifoSide_settleFifos
  generalize e.settleFifos = t at *
  have hfifos : t.fifos = e.fifos := (congrArg Dev.fifos hside :)
  refine ⟨⟨by rw [hside, heq], fun x hx => by rw [hword x hx, heq]; rfl⟩, fun n => ?_⟩
  rw [← hfifo n, Dev.fifo, Dev.fifo, hfifos]

/-! ## Rewinding and marking -/

/-- A FIFO rewound to its mark, which is gone (R177). -/
def Fifo.rewound (f : Fifo) : Fifo := match f.mark with | some m => { f with wr := m, mark := none } | none => f

/-- A FIFO marked at its next word and filled with a segment (R176, R354). -/
def Fifo.markedFull (f : Fifo) : Fifo := { f with mark := some f.wr, wr := (f.wr + segmentWords) % 8192 }

theorem Fifo.markedFull_rewound (f : Fifo) :
    f.rewound.markedFull = { f with mark := some (f.mark.getD f.wr), wr := (f.mark.getD f.wr + segmentWords) % 8192 } := by
  obtain ⟨wr, rd, mark⟩ := f
  cases mark <;> rfl

theorem Dev.mapsFifo_rewound : Dev.mapsFifo Fifo.rewound fun d n =>
    match (d.fifo n).mark with | some m => d.putFifo n { d.fifo n with wr := m, mark := none } | none => d := by
  intro d n
  dsimp only
  split
  next p hmark => exact ⟨rfl, fun m => by rw [Fifo.rewound, hmark]; exact d.fifo_putFifo n m _⟩
  next hmark =>
    refine ⟨rfl, fun m => ?_⟩
    split
    · next h => rw [h, Fifo.rewound, hmark]
    · rfl

/-- The data sets of this device that are marked are to be marked again (R177). -/
def Dev.markedAgain (d : Dev) : List DSet :=
  d.plc.dsets.map fun x => if x.member == d.self then
    { x with copies := x.copies.map fun k => if k.step == .marked then { k with step := .folded } else k } else x

theorem Dev.unmark_spec (d : Dev) :
    Dev.fifosOnly { d with plc := { d.plc with dsets := d.markedAgain } } d.unmark
      ∧ ∀ n, d.unmark.fifo n = if n ∈ d.channelsOn then (d.fifo n).rewound else d.fifo n :=
  Dev.fifosOnly_foldl Dev.mapsFifo_rewound { d with plc := { d.plc with dsets := d.markedAgain } }

theorem Dev.unmark_dsets (d : Dev) : d.unmark.plc.dsets = d.markedAgain := by
  rw [Dev.fifosOnly_plc d.unmark_spec.1]

/-! ## The mark of the next data set -/

/-- The FIFOs are marked at the first word of the next data set and filled (R176). -/
def Dev.markAll (d : Dev) : Dev :=
  (d.channelsOn.foldl (fun d n => d.putFifo n (d.fifo n).markedFull) d).settleFifos

/-- The write channel and verify take a buffer at the first copy, and the Last releases it (R182, R346). -/
def Dev.handOver (d : Dev) (x : DSet) : Dev :=
  if x.copies.length = 1 then (((d.share x.handle ownWrite).2.share x.handle ownVerify).2).release x.handle ownLast else d

theorem Dev.poolSide_handOver (d : Dev) (x : DSet) : d.poolSide (d.handOver x) :=
  Dev.poolSide_ite (Dev.poolSide_trans (d.poolSide_share _ _) (Dev.poolSide_trans (Dev.poolSide_share _ _ _) (Dev.poolSide_release _ _ _)))
    d.poolSide_refl

theorem Dev.holds_handOver {d : Dev} {x : DSet} {b : Buf} (hone : x.copies.length = 1) (hrun : d.glb.dev.running = true)
    (hb : d.holds x.handle b) (hlast : bitAt b.owners ownLast = true) :
    (d.handOver x).holds x.handle ⟨b.gen, (b.owners ||| 2 ^ ownWrite ||| 2 ^ ownVerify) - 2 ^ ownLast⟩ := by
  have hwrite := Dev.holds_share hb hrun ownWrite
  have hglb : (d.share x.handle ownWrite).2.glb = d.glb := (congrArg Dev.glb (d.poolSide_share x.handle ownWrite).1 :)
  have hverify := Dev.holds_share hwrite (by rw [hglb]; exact hrun) ownVerify
  rw [Dev.handOver, if_pos hone]
  exact Dev.holds_release hverify (bitAt_or_left _ (bitAt_or_left _ hlast))

/-- FIFO_MARK of a data set whose words are all readable, where no other event falls before its place (R15, R339). -/
theorem Dev.fifoMark_eq {d : Dev} {g : Nat} {x : DSet} (hnext : d.markNext = some (g, x)) (hpoison : d.poison = [])
    (hclear : d.clearTo (placeBefore d.reverse g 150) = true) :
    d.fifoMark = (((d.reachAhead (placeBefore d.reverse g 150)).unmark.markAll).handOver x).modDset x.id
      fun x => x.modLast fun k => { k with step := .marked } := by
  have hreached : (d.reachAhead (placeBefore d.reverse g 150)).unmark.poison = [] := by
    rw [Dev.fifosOnly_poison (Dev.unmark_spec _).1, ← hpoison, (d.regsOut_reachAhead _).1]
  unfold Dev.fifoMark
  simp only [hnext, hclear, Bool.not_true, Bool.false_eq_true, if_false, Dev.poisonIn, hreached, List.find?_nil]
  unfold Dev.handOver
  split <;> rfl

theorem Dev.markAll_spec (d : Dev) :
    d.fifosOnly d.markAll ∧ ∀ n, d.markAll.fifo n = if n ∈ d.channelsOn then (d.fifo n).markedFull else d.fifo n :=
  Dev.fifosOnly_foldl (Dev.mapsFifo_putFifo Fifo.markedFull) d

/-- Every enabled channel's FIFO ends marked where it was marked, or at its next word, and full of one segment. -/
theorem Dev.fifo_remarked (d : Dev) (n : Nat) : d.unmark.markAll.fifo n = if n ∈ d.channelsOn then
    { d.fifo n with mark := some ((d.fifo n).mark.getD (d.fifo n).wr)
                    wr := ((d.fifo n).mark.getD (d.fifo n).wr + segmentWords) % 8192 } else d.fifo n := by
  have hon : d.unmark.channelsOn = d.channelsOn :=
    (Dev.fifosOnly_channelsOn d.unmark_spec.1).trans (Dev.channelsOn_congr (fun _ _ => rfl) rfl rfl)
  rw [d.unmark.markAll_spec.2 n, d.unmark_spec.2 n, hon]
  split
  · exact Fifo.markedFull_rewound _
  · rfl

/-- What a remark leaves as it was, the data sets' copies apart. -/
structure Dev.remarkKeeps (d e : Dev) : Prop where
  plc : e.plc = { d.plc with dsets := d.markedAgain }
  memories : d.sameMemories e
  ecc : e.ecc = d.ecc
  pos : e.pos = d.pos
  pools : e.pools = d.pools
  glb : e.glb = d.glb
  hpt : e.hpt = d.hpt
  word : ∀ x, x ≠ C.casFcPause → e.word x = d.word x

theorem Dev.remarkKeeps_remark (d : Dev) : d.remarkKeeps d.unmark.markAll := by
  have h := Dev.fifosOnly_trans d.unmark_spec.1 d.unmark.markAll_spec.1
  generalize d.unmark.markAll = e at *
  exact {
    plc := Dev.fifosOnly_plc h
    memories := (Dev.fifosOnly_memories h :)
    ecc := (Dev.fifosOnly_ecc h :)
    pos := (Dev.fifosOnly_pos h :)
    pools := (Dev.fifosOnly_pools h :)
    glb := (Dev.fifosOnly_glb h :)
    hpt := (Dev.fifosOnly_hpt h :)
    word := h.2 }

theorem Dev.regsOut_fields {ws : List Nat} (h : Dev.regsOut ws a b) :
    a.sameMemories b ∧ b.fifos = a.fifos ∧ b.plc = a.plc ∧ b.ecc = a.ecc ∧ b.pos = a.pos ∧ b.pools = a.pools ∧ b.glb = a.glb ∧ b.hpt = a.hpt :=
  ⟨⟨(congrArg Dev.ddr h.1 :), (congrArg Dev.nor h.1 :), (congrArg Dev.feram h.1 :), (congrArg Dev.cobMem h.1 :)⟩, (congrArg Dev.fifos h.1 :),
    (congrArg Dev.plc h.1 :), (congrArg Dev.ecc h.1 :), (congrArg Dev.pos h.1 :), (congrArg Dev.pools h.1 :), (congrArg Dev.glb h.1 :),
    (congrArg Dev.hpt h.1 :)⟩

theorem Dev.regsOut_congr {ws : List Nat} (h : Dev.regsOut ws a b) (hws : ∀ i < 8, (F.wchChEnEn.ix i).addr ∉ ws) (hmode : F.casCfgMode.addr ∉ ws) :
    b.channelsOn = a.channelsOn ∧ b.self = a.self :=
  ⟨Dev.channelsOn_congr (fun i hi => h.2.1 _ (hws i hi)) (congrArg Dev.ecc h.1 :) (congrArg (fun d : Dev => d.chan.groupsOn) h.1 :),
    Dev.self_congr (h.2.1 _ hmode) (congrArg (fun d : Dev => d.cas.barred) h.1 :) (congrArg Dev.glb h.1 :)⟩

/-- The FIFOs marked afresh, the buffer handed over and the copy marked: the marking itself, once TPOS is there. -/
def Dev.remark (d : Dev) (x : DSet) : Dev := (d.unmark.markAll.handOver x).modDset x.id fun x => x.modLast fun k => { k with step := .marked }

theorem Dev.calm_congr (hglb : b.glb = a.glb) (hhpt : b.hpt = a.hpt) : b.calm = a.calm := by
  rw [Dev.calm, Dev.calm, hglb, hhpt]

/-- What holds once the marking is done and the host side has settled. -/
structure Dev.remarked (d : Dev) (x : DSet) (e : Dev) : Prop where
  fifo : ∀ n, e.fifo n = if n ∈ d.channelsOn then
    { d.fifo n with mark := some ((d.fifo n).mark.getD (d.fifo n).wr), wr := ((d.fifo n).mark.getD (d.fifo n).wr + segmentWords) % 8192 }
    else d.fifo n
  plc : e.plc = { d.plc with dsets := d.markedAgain.map fun y => if y.id == x.id then y.modLast fun k => { k with step := .marked } else y }
  memories : d.sameMemories e
  ecc : e.ecc = d.ecc
  pos : e.pos = d.pos
  tpos : e.tpos = d.tpos
  holds : ∀ b, x.copies.length = 1 → d.glb.dev.running = true → d.holds x.handle b → bitAt b.owners ownLast = true →
    e.holds x.handle ⟨b.gen, (b.owners ||| 2 ^ ownWrite ||| 2 ^ ownVerify) - 2 ^ ownLast⟩

theorem Dev.hostOnly_fields (h : Dev.hostOnly a b) :
    a.sameMemories b ∧ b.fifos = a.fifos ∧ b.plc = a.plc ∧ b.ecc = a.ecc ∧ b.pos = a.pos ∧ b.pools = a.pools :=
  ⟨⟨(congrArg Dev.ddr h.1 :), (congrArg Dev.nor h.1 :), (congrArg Dev.feram h.1 :), (congrArg Dev.cobMem h.1 :)⟩, (congrArg Dev.fifos h.1 :),
    (congrArg Dev.plc h.1 :), (congrArg Dev.ecc h.1 :), (congrArg Dev.pos h.1 :), (congrArg Dev.pools h.1 :)⟩

theorem Dev.remarked_remark (d : Dev) (x : DSet) (hcalm : d.calm = true) : d.remarked x (d.remark x).hostSettle := by
  have hfifo := d.fifo_remarked
  have hkeep := d.remarkKeeps_remark
  have hover := d.unmark.markAll.poolSide_handOver x
  have hholds := fun b => Dev.holds_handOver (d := d.unmark.markAll) (x := x) (b := b)
  unfold Dev.remark
  generalize d.unmark.markAll = m at *
  have hplc : (m.handOver x).plc = m.plc := (congrArg Dev.plc hover.1 :)
  have hecc : (m.handOver x).ecc = m.ecc := (congrArg Dev.ecc hover.1 :)
  have hpos : (m.handOver x).pos = m.pos := (congrArg Dev.pos hover.1 :)
  have hglb : (m.handOver x).glb = m.glb := (congrArg Dev.glb hover.1 :)
  have hhpt : (m.handOver x).hpt = m.hpt := (congrArg Dev.hpt hover.1 :)
  have hfifos : (m.handOver x).fifos = m.fifos := (congrArg Dev.fifos hover.1 :)
  have hmem : m.sameMemories (m.handOver x) :=
    ⟨(congrArg Dev.ddr hover.1 :), (congrArg Dev.nor hover.1 :), (congrArg Dev.feram hover.1 :), (congrArg Dev.cobMem hover.1 :)⟩
  have htpos : (m.handOver x).word F.posTposTpos.addr = m.word F.posTposTpos.addr := hover.2 _ (by decide)
  generalize m.handOver x = e at *
  have hset : (e.modDset x.id fun x => x.modLast fun k => { k with step := .marked }).hostOnly
      (e.modDset x.id fun x => x.modLast fun k => { k with step := .marked }).hostSettle :=
    Dev.hostOnly_hostSettle _ (by
      refine Eq.trans (b := e.calm) (Dev.calm_congr rfl rfl) ?_
      rw [Dev.calm_congr (hglb.trans hkeep.glb) (hhpt.trans hkeep.hpt), hcalm])
  have htword := Dev.hostOnly_word hset (x := F.posTposTpos.addr) (by decide)
  obtain ⟨tmem, tfifos, tplc, tecc, tpos, tpools⟩ := Dev.hostOnly_fields hset
  generalize (e.modDset x.id fun x => x.modLast fun k => { k with step := .marked }).hostSettle = t at *
  exact {
    fifo := fun n => by
      rw [← hfifo n, Dev.fifo, Dev.fifo, tfifos]
      exact congrArg (fun fs => sparseGet (fun _ => Fifo.zero) fs n) hfifos
    plc := by
      rw [tplc, Dev.modDset, hplc, hkeep.plc]
    memories := Dev.sameMemories_trans hkeep.memories (Dev.sameMemories_trans hmem tmem)
    ecc := tecc.trans (hecc.trans hkeep.ecc)
    pos := tpos.trans (hpos.trans hkeep.pos)
    tpos := Dev.tpos_eq (htword.trans (htpos.trans (hkeep.word _ (by decide))))
    holds := fun b hone hrun hb hlast => Dev.holds_congr tpools (hholds b hone (by rw [hkeep.glb, hrun]) (Dev.holds_congr hkeep.pools hb) hlast) }

/-- The next data set is marked. -/
theorem runs_fifoMark {s : State} {g : Nat} {x : DSet} (hcalm : s.dev.calm = true) (hnext : s.dev.markNext = some (g, x))
    (hpoison : s.dev.poison = []) (hclear : s.dev.clearTo (placeBefore s.dev.reverse g 150) = true) :
    Runs .fifoMark s fun t =>
      (∀ n, let f := s.dev.fifo n; let at_ := f.mark.getD f.wr
        t.dev.fifo n = if n ∈ s.dev.channelsOn then { f with mark := some at_, wr := (at_ + segmentWords) % 8192 } else f)
      ∧ t.dev.plc = { s.dev.plc with dsets := s.dev.unmark.plc.dsets.map fun y =>
          if y.id == x.id then y.modLast fun k => { k with step := .marked } else y }
      ∧ (x.copies.length = 1 → s.dev.glb.dev.running = true → ∀ q, s.dev.pool? (handlePool x.handle) = some q →
        handleIndex x.handle < q.count →
        let b := q.buf (handleIndex x.handle)
        bitAt b.owners ownLast = true →
          t.dev.query x.handle = some ⟨b.gen, (b.owners ||| 2 ^ ownWrite ||| 2 ^ ownVerify) - 2 ^ ownLast⟩)
      ∧ t.dev.tpos = (s.dev.reachAhead (placeBefore s.dev.reverse g 150)).tpos
      ∧ s.memoriesStand t ∧ t.dev.ecc = s.dev.ecc ∧ t.dev.pos = s.dev.pos := by
  refine ⟨_, exec_fifoMark s, ?_⟩
  rw [Dev.fifoMark_eq hnext hpoison hclear]
  have hreach := s.dev.regsOut_reachAhead (placeBefore s.dev.reverse g 150)
  generalize s.dev.reachAhead (placeBefore s.dev.reverse g 150) = r at *
  obtain ⟨hon, hself⟩ := Dev.regsOut_congr hreach (by decide) (by decide)
  obtain ⟨rmem, rfifos, rplc, recc, rpos, rpools, rglb, rhpt⟩ := Dev.regsOut_fields hreach
  have hagain : r.markedAgain = s.dev.unmark.plc.dsets := by rw [Dev.unmark_dsets, Dev.markedAgain, Dev.markedAgain, hself, rplc]
  have hfifo : ∀ n, r.fifo n = s.dev.fifo n := fun n => by rw [Dev.fifo, rfifos, Dev.fifo]
  have hmarked := r.remarked_remark x (by rw [Dev.calm_congr rglb rhpt, hcalm])
  unfold Dev.remark at hmarked
  generalize Dev.hostSettle _ = t at *
  refine ⟨fun n => ?_, ?_, fun hone hrun q hq hcount hlast => ?_, hmarked.tpos, State.memoriesStand_of_same (Dev.sameMemories_trans rmem hmarked.memories),
    hmarked.ecc.trans recc, hmarked.pos.trans rpos⟩
  · have h := hmarked.fifo n
    rw [hon, hfifo n] at h
    exact h
  · rw [hmarked.plc, hagain, rplc]
  · exact Dev.query_of_holds (hmarked.holds _ hone (by rw [rglb, hrun]) (Dev.holds_congr rpools ⟨q, hq, hcount, rfl⟩) hlast)

end Sys2Proof.Machine
end

section
/-!
SUPPORT. C3_FOLD (R15, R147, R153, R154, R182): C2 parity behind the payload, the fold into the accumulator or the move of a parity payload,
and the buffer that the C3 accumulator gives up.
-/
namespace Sys2Proof.Machine

theorem exec_c3Fold (s : State) : exec (.c3Fold false) s = .next { s with dev := (s.dev.c3Fold false).hostSettle } := rfl

/-! ## Lengths -/

theorem length_symbolBytes (ss : List Nat) : (symbolBytes ss).length = 2 * ss.length := by
  simp [symbolBytes, List.length_flatMap, Nat.mul_comm]

theorem length_c3Payload (q : Nat) (acc : List (Nat × BitVec 16)) : (c3Payload q acc).length = 1966080 := by
  rw [c3Payload, length_symbolBytes, List.length_map, List.length_range, payloadSymbols]

theorem length_c2Parity (payload : List Byte) : (c2Parity payload).length = 131072 := by
  rw [c2Parity, List.length_flatMap]
  simp only [length_symbolBytes, List.length_map, List.length_range, List.map_const', List.sum_replicate]
  rfl

variable {d : Dev} {x : DSet}

/-! ## Payloads and parity in a buffer -/

/-- The C2 parity tracks stand behind the payload (R147). -/
theorem Dev.encodeC2_eq (d : Dev) (h : Nat) : ∃ poison, d.encodeC2 h
    = { d with ddr := Memory.storeAll zeroByte d.ddr (d.bufAddr h + 1966080) (c2Parity (d.payload h)), poison := poison } := ⟨_, rfl⟩

theorem Dev.encodeC2_ecc (d : Dev) (ecc : Ecc) (h : Nat) : ∃ poison, Dev.encodeC2 { d with ecc := ecc } h
    = { d with ecc := ecc, ddr := Memory.storeAll zeroByte d.ddr (d.bufAddr h + 1966080) (c2Parity (d.payload h)), poison := poison } := by
  obtain ⟨poison, heq⟩ := Dev.encodeC2_eq { d with ecc := ecc } h
  exact ⟨poison, heq⟩

theorem Dev.bufAddr_putDdr (d : Dev) (a h : Nat) (bs : List Byte) : (d.putDdr a bs).bufAddr h = d.bufAddr h := by
  rw [Dev.bufAddr, Dev.get_putDdr, Dev.bufAddr]

theorem Dev.encodeC2_putDdr (d : Dev) (a h : Nat) (bs : List Byte) : ∃ poison cs, cs.length = 131072 ∧ (d.putDdr a bs).encodeC2 h
    = { d with ddr := Memory.storeAll zeroByte (Memory.storeAll zeroByte d.ddr a bs) (d.bufAddr h + 1966080) cs, poison := poison } := by
  obtain ⟨poison, heq⟩ := (d.putDdr a bs).encodeC2_eq h
  have hlen := length_c2Parity ((d.putDdr a bs).payload h)
  rw [Dev.bufAddr_putDdr] at heq
  generalize c2Parity ((d.putDdr a bs).payload h) = cs at heq hlen
  exact ⟨poison, cs, hlen, heq⟩

/-! ## What a fold leaves -/

/-- The data set's latest copy is folded, the C3 accumulator gives up its buffer, and NOR, FeRAM and connections stand. -/
structure Dev.foldedTo (d : Dev) (x : DSet) (ecc : Ecc) (ddr : Memory) (e : Dev) : Prop where
  plc : e.plc = { d.plc with dsets := d.plc.dsets.map fun y => if y.id == x.id then y.modLast fun k => { k with step := .folded } else y }
  ecc_eq : e.ecc = ecc
  ddr_eq : e.ddr = ddr
  nor : e.nor = d.nor
  feram : e.feram = d.feram
  holds : ∀ b, d.holds x.handle b → bitAt b.owners ownC3 = true → e.holds x.handle ⟨b.gen, b.owners - 2 ^ ownC3⟩

/-- The fold's end: the C3 accumulator releases the buffer, and the copy is folded. -/
def Dev.endFold (d : Dev) (x : DSet) : Dev :=
  (d.release x.handle ownC3).modDset x.id fun x => x.modLast fun k => { k with step := .folded }

theorem Dev.foldedTo_endFold {e : Dev} {ecc : Ecc} {ddr : Memory} (hcalm : d.calm = true)
    (h : ∃ poison, e = { d with ecc := ecc, ddr := ddr, poison := poison }) : d.foldedTo x ecc ddr (e.endFold x).hostSettle := by
  obtain ⟨poison, rfl⟩ := h
  have hpools := Dev.release_pools { d with ecc := ecc, ddr := ddr, poison := poison } x.handle ownC3
  have hrelease := fun b => Dev.holds_release (d := { d with ecc := ecc, ddr := ddr, poison := poison }) (h := x.handle) (b := b) (o := ownC3)
  unfold Dev.endFold
  generalize Dev.release _ x.handle ownC3 = r at *
  have hset := Dev.hostOnly_hostSettle (r.modDset x.id fun x => x.modLast fun k => { k with step := .folded }) (by
    refine Eq.trans (b := r.calm) (Dev.calm_congr rfl rfl) ?_
    rw [hpools]
    exact hcalm)
  obtain ⟨⟨tddr, tnor, tferam, -⟩, -, tplc, tecc, -, tpools⟩ := Dev.hostOnly_fields hset
  generalize Dev.hostSettle _ = t at *
  have hplc : r.plc = d.plc := (congrArg Dev.plc hpools :)
  exact {
    plc := by rw [tplc, Dev.modDset, hplc]
    ecc_eq := tecc.trans (congrArg Dev.ecc hpools :)
    ddr_eq := tddr.trans (congrArg Dev.ddr hpools :)
    nor := tnor.trans (congrArg Dev.nor hpools :)
    feram := tferam.trans (congrArg Dev.feram hpools :)
    holds := fun b hb hbit => Dev.holds_congr tpools (hrelease b hb hbit) }

/-- The fold of a data data set whose payload is readable (R147, R153). -/
theorem Dev.c3Fold_data (hnext : d.nextFold = some x) (hpoison : d.poison = []) (htyp : x.typ = 1) :
    d.c3Fold false = (({ d with ecc := { d.ecc with
        acc := foldC3 x.index (d.payload x.handle) (if x.index = 0 then [] else d.ecc.acc)
        accOpen := some (x.group, (if x.index = 0 then 0 else (d.ecc.accOpen.map Prod.snd).getD 0) + 1) } }).encodeC2 x.handle).endFold x := by
  unfold Dev.c3Fold
  simp only [Bool.false_eq_true, if_false, hnext, Dev.poisonIn, hpoison, List.find?_nil, htyp, OfNat.one_ne_ofNat, if_true]
  rfl

/-- The parity payload of a data set in its buffer, with its C2 parity (R147, R154). -/
def Dev.moveParity (d : Dev) (x : DSet) : Dev :=
  (d.putDdr (d.bufAddr x.handle) (c3Payload (x.index - 60) d.ecc.acc)).encodeC2 x.handle

/-- The fourth parity payload leaves the accumulator empty (R154). -/
def Dev.emptyAfter (d : Dev) (q : Nat) : Dev := if q = 3 then { d with ecc := { d.ecc with acc := [], accOpen := none } } else d

/-- The move of a parity payload into its buffer (R154). -/
theorem Dev.c3Fold_parity (hnext : d.nextFold = some x) (hpoison : d.poison = []) (htyp : x.typ = 2) :
    d.c3Fold false = ((d.moveParity x).emptyAfter (x.index - 60)).endFold x := by
  unfold Dev.c3Fold Dev.moveParity Dev.emptyAfter Dev.endFold
  simp only [Bool.false_eq_true, if_false, hnext, Dev.poisonIn, hpoison, List.find?_nil, htyp, if_true]

/-- The moved parity payload and its C2 parity lie in the buffer, and nothing else of DDR5 changes. -/
theorem Dev.moveParity_eq (d : Dev) (x : DSet) : ∃ ddr poison, d.moveParity x = { d with ddr := ddr, poison := poison }
    ∧ (∀ i b, (c3Payload (x.index - 60) d.ecc.acc)[i]? = some b → Memory.byte zeroByte ddr (d.bufAddr x.handle + i) = b)
    ∧ ∀ a, a < d.bufAddr x.handle ∨ d.bufAddr x.handle + 2097152 ≤ a → Memory.byte zeroByte ddr a = d.ddr.byte zeroByte a := by
  have hlen := length_c3Payload (x.index - 60) d.ecc.acc
  unfold Dev.moveParity
  generalize c3Payload (x.index - 60) d.ecc.acc = bs at hlen ⊢
  obtain ⟨poison, cs, hcs, heq⟩ := d.encodeC2_putDdr (d.bufAddr x.handle) x.handle bs
  refine ⟨_, poison, heq, fun i b hb => ?_, fun a ha => ?_⟩
  · have hi : i < bs.length := (List.getElem?_eq_some_iff.mp hb).1
    rw [Memory.byte_storeAll, if_neg (by omega), Memory.byte_storeAll, if_pos (by omega)]
    simp [List.getD_eq_getElem?_getD, hb]
  · rw [Memory.byte_storeAll, if_neg (by omega), Memory.byte_storeAll, if_neg (by omega)]

theorem Dev.query_foldedTo {e : Dev} {ecc : Ecc} {ddr : Memory} (h : d.foldedTo x ecc ddr e) {q : Pool}
    (hq : d.pool? (handlePool x.handle) = some q) (hcount : handleIndex x.handle < q.count)
    (hbit : bitAt (q.buf (handleIndex x.handle)).owners ownC3 = true) :
    e.query x.handle = some ⟨(q.buf (handleIndex x.handle)).gen, (q.buf (handleIndex x.handle)).owners - 2 ^ ownC3⟩ :=
  Dev.query_of_holds (h.holds _ ⟨q, hq, hcount, rfl⟩ hbit)

/-- A data data set is folded. -/
theorem Dev.foldedTo_data (hcalm : d.calm = true) (hnext : d.nextFold = some x) (hpoison : d.poison = []) (htyp : x.typ = 1) :
    d.foldedTo x { d.ecc with
        acc := foldC3 x.index (d.payload x.handle) (if x.index = 0 then [] else d.ecc.acc)
        accOpen := some (x.group, (if x.index = 0 then 0 else (d.ecc.accOpen.map Prod.snd).getD 0) + 1) }
      (Memory.storeAll zeroByte d.ddr (d.bufAddr x.handle + 1966080) (c2Parity (d.payload x.handle))) (d.c3Fold false).hostSettle := by
  rw [Dev.c3Fold_data hnext hpoison htyp]
  generalize foldC3 x.index _ _ = acc
  obtain ⟨poison, h⟩ := d.encodeC2_ecc { d.ecc with
    acc := acc, accOpen := some (x.group, (if x.index = 0 then 0 else (d.ecc.accOpen.map Prod.snd).getD 0) + 1) } x.handle
  exact Dev.foldedTo_endFold hcalm ⟨poison, h⟩

/-- A parity data set gets its payload. -/
theorem Dev.foldedTo_parity (hcalm : d.calm = true) (hnext : d.nextFold = some x) (hpoison : d.poison = []) (htyp : x.typ = 2) :
    ∃ ddr, d.foldedTo x { d.ecc with acc := if x.index = 63 then [] else d.ecc.acc, accOpen := if x.index = 63 then none else d.ecc.accOpen } ddr
        (d.c3Fold false).hostSettle
      ∧ (∀ i b, (c3Payload (x.index - 60) d.ecc.acc)[i]? = some b → Memory.byte zeroByte ddr (d.bufAddr x.handle + i) = b)
      ∧ ∀ a, a < d.bufAddr x.handle ∨ d.bufAddr x.handle + 2097152 ≤ a → Memory.byte zeroByte ddr a = d.ddr.byte zeroByte a := by
  obtain ⟨ddr, poison, hmove, hin, hout⟩ := d.moveParity_eq x
  rw [Dev.c3Fold_parity hnext hpoison htyp, hmove]
  refine ⟨ddr, Dev.foldedTo_endFold hcalm ⟨poison, ?_⟩, hin, hout⟩
  have hlast : x.index - 60 = 3 ↔ x.index = 63 := by omega
  unfold Dev.emptyAfter
  simp only [hlast]
  split <;> rfl

/-- Settles O37: the fold by type, the mark, and the start by what its slot gets. -/
theorem foldsMarksAndStarts : Obligations.FoldsMarksAndStarts := by
  refine ⟨fun s x hcalm hnext hpoison => ⟨fun htyp => ?_, fun htyp => ?_⟩,
    fun s g x hcalm hnext hpoison hclear => runs_fifoMark hcalm hnext hpoison hclear,
    fun s z e es g y k hz hregap hnext howner => ⟨?_, ?_, ?_⟩⟩
  · have h := Dev.foldedTo_data hcalm hnext hpoison htyp
    refine ⟨_, exec_c3Fold s, ?_⟩
    generalize Dev.hostSettle _ = t at *
    exact ⟨h.plc, fun q hq hcount hbit => Dev.query_foldedTo h hq hcount hbit, h.ecc_eq, h.ddr_eq, h.nor, h.feram⟩
  · obtain ⟨ddr, h, hin, hout⟩ := Dev.foldedTo_parity hcalm hnext hpoison htyp
    refine ⟨_, exec_c3Fold s, ?_⟩
    generalize Dev.hostSettle _ = t at *
    refine ⟨h.plc, fun q hq hcount hbit => Dev.query_foldedTo h hq hcount hbit, h.ecc_eq, ?_, ?_, h.nor, h.feram⟩
    · exact fun i b hb => by rw [h.ddr_eq]; exact hin i b hb
    · exact fun a ha => by rw [h.ddr_eq]; exact hout a ha
  · exact fun hmode hocc hk hmarked hpoison => runs_dataSetStart_data hz hregap hnext howner hmode hocc hk hmarked hpoison
  · exact fun hmode hocc => runs_dataSetStart_gap hz hregap hnext howner hmode hocc
  · exact fun hmode => runs_dataSetStart_aborted hz hregap hnext howner hmode

end Sys2Proof.Machine
end

section
/-!
SUPPORT. DATA_SET_CLOSE (R15, R44, R223, R225, R230): a data data set closes for the next slot, or a hold begins.
-/
namespace Sys2Proof.Machine

theorem exec_dataSetClose (s : State) : exec .dataSetClose s = .next { s with dev := s.dev.dataSetClose.hostSettle } := rfl

variable {d e : Dev}

/-! ## What the filling of a data set rests on -/

/-- Two devices that differ in registers and outputs alone, with the same mode of the set and the same AFF_SKEW, fill data sets alike. -/
structure Dev.fillsAlike (d e : Dev) : Prop where
  rest : e = { d with regs := e.regs, out := e.out }
  mode : e.casMode = d.casMode
  skew : e.get F.plcCfgAffSkew = d.get F.plcCfgAffSkew

theorem Dev.fillsAlike_of_regsOut {ws : List Nat} (h : d.regsOut ws e) (hmode : F.casCfgMode.addr ∉ ws) (hskew : F.plcCfgAffSkew.addr ∉ ws) :
    d.fillsAlike e := by
  have hcas : e.cas = d.cas := (congrArg Dev.cas h.1 :)
  refine ⟨h.1, ?_, by rw [Dev.get, Dev.get, h.2.1 _ hskew]⟩
  rw [Dev.casMode, Dev.casMode, Dev.get, Dev.get, h.2.1 _ hmode, hcas]

theorem Dev.fillsAlike_plc (h : d.fillsAlike e) : e.plc = d.plc := (congrArg Dev.plc h.rest :)
theorem Dev.fillsAlike_strm (h : d.fillsAlike e) : e.strm = d.strm := (congrArg Dev.strm h.rest :)
theorem Dev.fillsAlike_cas (h : d.fillsAlike e) : e.cas = d.cas := (congrArg Dev.cas h.rest :)
theorem Dev.fillsAlike_glb (h : d.fillsAlike e) : e.glb = d.glb := (congrArg Dev.glb h.rest :)
theorem Dev.fillsAlike_cqm (h : d.fillsAlike e) : e.cqm = d.cqm := (congrArg Dev.cqm h.rest :)

theorem Dev.segmentLength_congr (h : d.fillsAlike e) (z : Session) (g : GroupEntry) (y : SessEntry) :
    e.segmentLength z g y = d.segmentLength z g y := by
  have hsize : e.setSize 0 = d.setSize 0 := by
    rw [Dev.setSize, Dev.setSize, Dev.ownId, Dev.ownId, Dev.fillsAlike_cas h, Dev.fillsAlike_glb h]
  have hpresent : e.present = d.present := by rw [Dev.present, Dev.present, Dev.fillsAlike_cas h]
  have hown : e.ownId = d.ownId := by rw [Dev.ownId, Dev.ownId, Dev.fillsAlike_glb h]
  have hcascade : ∀ n, e.cascadeEntry n = d.cascadeEntry n := fun n => by
    unfold Dev.cascadeEntry
    rw [h.mode, hsize, hpresent, hown, Dev.fillsAlike_cas h]
  have hstream : e.streamEntry? = d.streamEntry? := by
    funext n
    rw [Dev.streamEntry?, Dev.streamEntry?, Dev.fillsAlike_plc h]
  unfold Dev.segmentLength Dev.segmentEntries
  rw [hcascade, hstream, Dev.fillsAlike_plc h]

theorem Dev.urgentClick_congr (h : d.fillsAlike e) : e.urgentClick = d.urgentClick := by
  funext c
  rw [Dev.urgentClick, Dev.urgentClick, Dev.fillsAlike_strm h]

theorem Dev.fillLast_congr (h : d.fillsAlike e) (z : Session) : e.fillLast z = d.fillLast z := by
  funext mem rest
  unfold Dev.fillLast
  simp only [Dev.segmentLength_congr h, Dev.urgentClick_congr h, h.skew, Dev.fillsAlike_plc h]

theorem Dev.fillPlain_congr (h : d.fillsAlike e) : e.fillPlain = d.fillPlain := by
  funext mem rest
  rw [Dev.fillPlain, Dev.fillPlain, h.skew, Dev.urgentClick_congr h]

theorem Dev.wouldClose_congr (h : d.fillsAlike e) (z : Session) (rest : List Click) : e.wouldClose z rest = d.wouldClose z rest := by
  have hwants : e.wantsShort = d.wantsShort := by
    unfold Dev.wantsShort Dev.inOpenGroup Dev.dset?
    rw [Dev.fillsAlike_plc h, Dev.fillsAlike_strm h, Dev.fillsAlike_cqm h]
  have hneeds : e.needs = d.needs := by
    funext c
    rw [Dev.needs, Dev.needs, Dev.fillsAlike_plc h, Dev.fillsAlike_cqm h]
  unfold Dev.wouldClose
  rw [hwants, hneeds, Dev.fillLast_congr h, Dev.fillPlain_congr h, Dev.fillsAlike_strm h]

theorem Dev.unplaced_congr (h : d.fillsAlike e) : e.unplaced = d.unplaced := by
  rw [Dev.unplaced, Dev.unplaced, Dev.fillsAlike_strm h, h.mode]

/-! ## To the choice of the next slot -/

/-- The tape's capacity used up ends the session after the slot (R251, R325). -/
def Dev.endFull (d : Dev) : Dev := if d.plc.session.isSome && d.plc.stopped.isNone && d.remainDs = 0 then d.stopEnding stFull else d

/-! The equation lemmas of `Dev.stage` that Lean derives overflow the kernel, so one step of its recursion is opened here by hand. -/

theorem match_click_none {d : Dev} (o : Option Click) (h : o = none) (f : Click → Dev) :
    (match (generalizing := false) o with | none => d | some c => f c) = d := by
  subst h
  rfl

theorem brecOn_succ_eq {C : Nat → Type} (f : ∀ t, Nat.below (motive := C) t → C t) (n : Nat) :
    ∃ below, Nat.brecOn (motive := C) (n + 1) f = f n.succ below := ⟨_, rfl⟩

/-- With no coded click at an engine nothing is staged. -/
theorem Dev.stage_none (d : Dev) (n : Nat)
    (h : d.strm.clicks.find? (fun c => match c.at_ with | .ready _ => true | _ => false) = none) : d.stage (n + 1) = d := by
  obtain ⟨below, hstep⟩ := brecOn_succ_eq Dev.stage._f n
  have hnone : Dev.stage._f n.succ below d = d := by
    delta Dev.stage._f
    exact match_click_none _ h _
  delta Dev.stage
  exact (congrFun hstep d).trans hnone

/-- Nothing is staged where no click waits at an engine. -/
theorem Dev.stageAll_eq (h : (d.strm.clicks.all fun c => c.at_ == .cut || c.at_ == .staged || c.at_ == .placed) = true) : d.stageAll = d := by
  have hnone : d.strm.clicks.find? (fun c => match c.at_ with | .ready _ => true | _ => false) = none := by
    rw [List.find?_eq_none]
    intro c hc
    have hat := List.all_eq_true.mp h c hc
    cases hcase : c.at_ <;> simp [hcase] at hat ⊢
  unfold Dev.stageAll
  cases d.strm.clicks.length with
  | zero => rfl
  | succ n => exact d.stage_none n hnone

/-- What a session must be for its next slot to get a data data set or, in a hold, a gap (R223, R230). -/
structure Dev.mayClose (d : Dev) (z : Session) : Prop where
  session : d.plc.session = some z
  clicks : (d.strm.clicks.all fun c => c.at_ == .cut || c.at_ == .staged || c.at_ == .placed) = true
  hold : d.plc.hold = false
  holdDone : d.plc.holdDone = false
  stopped : d.plc.stopped = none
  mode : d.pos.mode = .locked
  writeOk : d.writeOk = true
  single : d.casMode = 0
  restarting : d.flag F.glbCobblerRestarting = false
  generation : z.generation ≠ 0
  atEnd : z.atEnd = false
  owedGaps : z.owedGaps = 0
  heel : z.heel = none
  closing : z.closing = false
  index : z.index < 59
  width : z.place.width = 1
  regap : d.pos.regapFrom = none
  pending : d.plc.pendingCopies = []
  again : d.plc.again = []
  left : 11 < slotsLeft z.place.wrap z.place.slot
  entries : d.pos.entries.length < 64

variable {z : Session}

theorem Dev.follows_of_single (h : d.casMode = 0) : d.follows = false := by rw [Dev.follows, h]; rfl
theorem Dev.self_of_single (h : d.casMode = 0) : d.self = 0 := by rw [Dev.self, Dev.follows_of_single h]; rfl

/-- With no copy pending and none to be placed again, the next slot is closed for data (R223). -/
theorem Dev.closeSlot_eq (h : d.mayClose z) : d.closeSlot z = d.closeRound z := by
  have hlast : z.lastChance = false := by
    have := h.left
    simp only [Session.lastChance, Bool.and_eq_false_iff, beq_eq_false_iff_ne]
    exact .inr (by omega)
  have hpending : d.pendingNext z = none := by rw [Dev.pendingNext, h.pending]; rfl
  have hevent : d.cobblerEvent = false := by rw [Dev.cobblerEvent, h.restarting, Bool.false_and]
  have hroom : z.roomForData = true := by
    have := h.left
    simp only [Session.roomForData, Bool.or_eq_true, decide_eq_true_eq]
    exact .inl (by omega)
  have hindex : ¬ 60 ≤ z.index := by
    have := h.index
    omega
  unfold Dev.closeSlot
  simp only [hlast, hpending, hevent, hroom, hindex, h.again, h.owedGaps, h.hold, h.closing, Dev.follows_of_single h.single, Bool.false_and,
    Bool.false_eq_true, if_false, Nat.lt_irrefl, decide_false, if_true]

/-- DATA_SET_CLOSE comes to the place 300 eyelets before the slot and closes it (R15, R223). -/
theorem Dev.dataSetClose_eq (h : d.mayClose z) (hclear : d.clearTo (placeBefore (wrapReverse z.place.wrap) z.place.slot 300) = true)
    (hreach : (d.reachAhead (placeBefore (wrapReverse z.place.wrap) z.place.slot 300)).mayClose z) :
    d.dataSetClose = ((d.reachAhead (placeBefore (wrapReverse z.place.wrap) z.place.slot 300)).closeRound z).endFull := by
  have hhalted : d.halted = false := by rw [Dev.halted, h.stopped]; rfl
  have hheel : d.heelLost z = false := by rw [Dev.heelLost, h.heel]; rfl
  have hplace : d.placeCopies = d := by rw [Dev.placeCopies, h.mode, h.pending]; rfl
  have hleft : ¬ slotsLeft z.place.wrap z.place.slot ≤ 0 := by
    have := h.left
    omega
  unfold Dev.dataSetClose Dev.endFull
  simp only [Dev.stageAll_eq h.clicks, h.session, h.holdDone, hhalted, h.mode, h.writeOk, h.atEnd, h.generation, hheel, h.regap, hplace, hleft, hclear,
    bne_self_eq_false, Bool.not_true, decide_false, Bool.and_false, Bool.or_false, Bool.false_eq_true, if_false, Dev.closeSlot_eq hreach]

end Sys2Proof.Machine
end

section
/-!
SUPPORT. The start of the next slot is armed (R79): TPOS has come at most 300 eyelets before it, which is more than 2.
-/
namespace Sys2Proof.Machine

variable {d e : Dev}

theorem signed_unsigned {v : Int} (hlo : -140737488355328 ≤ v) (hhi : v < 140737488355328) : signed 48 (unsigned 48 v % 2 ^ 48) = v := by
  have hmod : 0 ≤ v % 281474976710656 ∧ v % 281474976710656 < 281474976710656 :=
    ⟨Int.emod_nonneg _ (by decide), Int.emod_lt_of_pos _ (by decide)⟩
  have hnat : unsigned 48 v % 2 ^ 48 = (v % 281474976710656).toNat := by
    rw [unsigned]
    norm_num
    omega
  rw [hnat, signed]
  norm_num
  split <;> omega

theorem signed_bounds (v : Nat) : -140737488355328 ≤ signed 48 v ∧ signed 48 v < 140737488355328 := by
  have := Nat.mod_lt v (by decide : 0 < 281474976710656)
  rw [signed]
  norm_num
  split <;> omega

/-- TPOS holds any place on the tape (R4, R30). -/
theorem Dev.tpos_setTpos_eq (d : Dev) {p : Int} (hlo : -140737488355328 ≤ p) (hhi : p < 140737488355328) : (d.setTpos p).tpos = p := by
  rw [Dev.tpos, Dev.setTpos, Dev.get_set_same _ _ _ (by decide)]
  exact signed_unsigned hlo hhi

/-- How far ahead of a place the start of a slot lies. -/
def slotAway (rev : Bool) (g : Nat) (p : Int) : Int := if rev then p - slotStart rev g else slotStart rev g - p

theorem slotAway_placeBefore (rev : Bool) (g : Nat) : slotAway rev g (placeBefore rev g 300) = 153600 := by
  unfold slotAway placeBefore
  cases rev <;> norm_num

/-- Coming to the place 300 eyelets before a slot leaves its start ahead. -/
theorem Dev.slotAway_reachAhead {rev : Bool} {g : Nat} (hrev : d.reverse = rev) (hslot : rev = false → g < 936720)
    (haway : 1024 ≤ slotAway rev g d.tpos) : 1024 ≤ slotAway rev g (d.reachAhead (placeBefore rev g 300)).tpos := by
  unfold Dev.reachAhead
  by_cases hahead : (if rev then decide (placeBefore rev g 300 < d.tpos) else decide (d.tpos < placeBefore rev g 300)) = true
  · have hbounds := signed_bounds (d.get F.posTposTpos)
    have hrange : -140737488355328 ≤ placeBefore rev g 300 ∧ placeBefore rev g 300 < 140737488355328 := by
      change -140737488355328 ≤ d.tpos ∧ d.tpos < 140737488355328 at hbounds
      unfold placeBefore slotStart at *
      cases rev <;> simp at * <;> omega
    rw [hrev, if_pos hahead, Dev.tpos_reach, Dev.tpos_setTpos_eq d hrange.1 hrange.2, slotAway_placeBefore]
    decide
  · rw [hrev, if_neg hahead]
    exact haway

/-- With position locked, room for an entry and the target far enough ahead, it is armed (R79). -/
theorem Dev.arm_eq {y : Entry} (hmode : d.pos.mode = .locked) (hroom : d.pos.entries.length < 64)
    (haway : 1024 ≤ if y.reverse then d.tpos - y.target else y.target - d.tpos) : d.arm y = some (d.withEntry y) := by
  have hnow : d.tposNow = d.tpos := by rw [Dev.tposNow, hmode]; rfl
  unfold Dev.arm
  extract_lets ahead
  have hfar : ¬ ahead < 1024 := by
    unfold ahead
    rw [hnow]
    exact Int.not_lt.mpr haway
  have hset : (d.pos.mode == .unset) = false := by rw [hmode]; rfl
  rw [hset, decide_eq_false hfar, decide_eq_false (Nat.not_le.mpr hroom)]
  rfl

end Sys2Proof.Machine
end

section
/-!
SUPPORT. The slot that DATA_SET_CLOSE gives to a gap or to a data data set (R44, R223, R225, R230), outside a cascade.
-/
namespace Sys2Proof.Machine

variable {d e : Dev} {z : Session}

/-! ## The end of the tape's capacity -/

/-- What is under way of the streams changes and nothing else. -/
def Dev.strmOnly (d e : Dev) : Prop := e = { d with strm := e.strm }

theorem Dev.strmOnly_trans {f : Dev} (h : d.strmOnly e) (k : e.strmOnly f) : d.strmOnly f := by
  unfold Dev.strmOnly at *
  rw [k, h]

theorem Dev.strmOnly_casMode (h : d.strmOnly e) : e.casMode = d.casMode := by
  unfold Dev.strmOnly at h
  rw [h]
  rfl

/-- A cut outside a cascade. -/
theorem Dev.strmOnly_cut (hmode : d.casMode = 0) (id : Nat) (flush : Bool) : d.strmOnly (d.cut id flush) := by
  have hchoose : ∀ a, d.chooseMember a = (0, d) := fun a => by rw [Dev.chooseMember, hmode]; rfl
  unfold Dev.cut
  split
  next => rfl
  split
  next => rfl
  next x _ _ =>
  extract_lets n reset
  have hpair : (if reset then d.chooseMember x.affinity else (x.member, d)) = (if reset then 0 else x.member, d) := by
    rw [hchoose]
    cases reset <;> rfl
  rw [hpair]
  dsimp -zeta only
  extract_lets x' c _ cutOff marked
  have honly : d.strmOnly marked := rfl
  have hmarked : marked.casMode = 0 := (Dev.strmOnly_casMode honly).trans hmode
  clear_value marked
  rw [if_neg (by simp [hmarked])]
  exact honly

theorem Dev.strmOnly_cutAll (hmode : d.casMode = 0) : d.strmOnly d.cutAll := by
  unfold Dev.cutAll
  refine List.foldlRecOn (motive := fun e : Dev => d.strmOnly e) _ _ rfl fun e he id _ => ?_
  exact Dev.strmOnly_trans he (Dev.strmOnly_cut ((Dev.strmOnly_casMode he).trans hmode) id true)

/-- Where the capacity is used up the session is to end, and nothing else changes of data sets, entries, words and memories. -/
def Dev.endsOnly (d e : Dev) : Prop :=
  e = { d with strm := e.strm, plc := { d.plc with stopped := e.plc.stopped, judged := e.plc.judged, session := e.plc.session } }
    ∧ (e.plc.session = d.plc.session ∨ e.plc.session = d.plc.session.map fun s => { s with ending := true })

theorem Dev.endsOnly_endFull (hmode : d.casMode = 0) : d.endsOnly d.endFull := by
  unfold Dev.endFull
  split
  next hfull =>
    simp only [Bool.and_eq_true, Option.isSome_iff_exists, Option.isNone_iff_eq_none] at hfull
    obtain ⟨⟨⟨y, hy⟩, hstopped⟩, -⟩ := hfull
    have hcut := Dev.strmOnly_cutAll (d := d.modPlc fun p => { p with stopped := some stFull, judged := false }) hmode
    have hjudge : ∀ f : Dev, f.plc.session.isSome = true → f.judgeStop = f := fun f hf => by
      unfold Dev.judgeStop
      split
      · rfl
      · rw [hf, Bool.or_true, Bool.true_or, Bool.true_or, if_pos rfl]
    have hstop : d.stopEnding stFull
        = ((d.modPlc fun p => { p with stopped := some stFull, judged := false }).cutAll.modSession fun s => { s with ending := true }).judgeStop := by
      rw [Dev.stopEnding, hstopped]
      simp only [Option.isSome_none, Bool.false_eq_true, if_false]
      rw [show (d.modPlc fun p => { p with stopped := some stFull, judged := false }).plc.session = some y from hy]
      rfl
    rw [hstop]
    generalize (d.modPlc fun p => { p with stopped := some stFull, judged := false }).cutAll = f at *
    unfold Dev.strmOnly at hcut
    rw [hjudge _ (by rw [hcut]; simp [Dev.modSession, Dev.modPlc, hy]), hcut]
    exact ⟨rfl, .inr rfl⟩
  next => exact ⟨rfl, .inl rfl⟩

end Sys2Proof.Machine
end

section
/-!
SUPPORT. A hold begins and the slot gets a gap (R230).
-/
namespace Sys2Proof.Machine

variable {d e : Dev} {z : Session}

/-- The start of a session's next slot. -/
def Session.startEntry (z : Session) : Entry := ⟨slotStart (wrapReverse z.place.wrap) z.place.slot, wrapReverse z.place.wrap, .dsStart z.place.slot⟩

/-- The start of the next slot can be armed (R79). -/
structure Dev.mayArm (d : Dev) (z : Session) : Prop where
  mode : d.pos.mode = .locked
  room : d.pos.entries.length < 64
  away : 1024 ≤ slotAway (wrapReverse z.place.wrap) z.place.slot d.tpos

theorem Dev.arm_startEntry (h : d.mayArm z) : d.arm z.startEntry = some (d.withEntry z.startEntry) :=
  Dev.arm_eq h.mode h.room h.away

theorem Dev.gapSlot_eq (h : d.mayArm z) : d.gapSlot z = (d.withEntry z.startEntry).modSession fun s => s.advance := by
  have harm := Dev.arm_startEntry h
  unfold Session.startEntry at harm
  unfold Dev.gapSlot Dev.armStart
  simp only [harm]
  rfl

theorem Dev.useSlot_eq (h : d.mayArm z) : d.useSlot z = (d.withEntry z.startEntry).modSession fun s => s.advance := by
  have harm := Dev.arm_startEntry h
  unfold Session.startEntry at harm
  unfold Dev.useSlot
  simp only [harm]
  rfl

/-- Words that arming does not read may change. -/
theorem Dev.mayArm_congr (h : d.mayArm z) (hpos : e.pos = d.pos) (htpos : e.tpos = d.tpos) : e.mayArm z :=
  ⟨by rw [hpos, h.mode], by rw [hpos]; exact h.room, by rw [htpos]; exact h.away⟩

/-- A hold has begun for want of coded clicks, and its slot's start is armed for a gap (R230). -/
structure Dev.heldFrom (d : Dev) (z : Session) (e : Dev) : Prop where
  hold : e.plc.hold = true
  holdDone : e.plc.holdDone = false
  cause : e.plc.holdCause = 0
  count : e.word C.plcHold = d.word C.plcHold + 1
  entry : z.startEntry ∈ e.pos.entries
  dsets : e.plc.dsets = d.plc.dsets
  memories : d.sameMemories e
  glb : e.glb = d.glb
  hpt : e.hpt = d.hpt
  mode : e.casMode = d.casMode

theorem Dev.heldFrom_gap (hhold : d.plc.hold = false) (harm : d.mayArm z) : d.heldFrom z ((d.beginHold 0).gapSlot z) := by
  have hbegin : d.beginHold 0 = (d.modPlc fun p => { p with hold := true, holdDone := false, holdCause := 0 }).bump C.plcHold := by
    rw [Dev.beginHold, hhold]
    rfl
  have hcount : ((d.modPlc fun p => { p with hold := true, holdDone := false, holdCause := 0 }).bump C.plcHold).word C.plcHold
      = d.word C.plcHold + 1 := Dev.word_bump_same _ _
  have hmode : ((d.modPlc fun p => { p with hold := true, holdDone := false, holdCause := 0 }).bump C.plcHold).word F.casCfgMode.addr
      = d.word F.casCfgMode.addr := Dev.word_bumpBy_other _ _ 1 (by decide)
  have htpos : ((d.modPlc fun p => { p with hold := true, holdDone := false, holdCause := 0 }).bump C.plcHold).word F.posTposTpos.addr
      = d.word F.posTposTpos.addr := Dev.word_bumpBy_other _ _ 1 (by decide)
  rw [hbegin]
  have hplc : ((d.modPlc fun p => { p with hold := true, holdDone := false, holdCause := 0 }).bump C.plcHold).plc
      = { d.plc with hold := true, holdDone := false, holdCause := 0 } := Dev.bump_plc _ _
  have hrest : ∃ regs, (d.modPlc fun p => { p with hold := true, holdDone := false, holdCause := 0 }).bump C.plcHold
      = { d with plc := { d.plc with hold := true, holdDone := false, holdCause := 0 }, regs := regs } := ⟨_, rfl⟩
  obtain ⟨regs, hrest⟩ := hrest
  generalize (d.modPlc fun p => { p with hold := true, holdDone := false, holdCause := 0 }).bump C.plcHold = b at *
  have hglb : b.glb = d.glb := (congrArg Dev.glb hrest :)
  have hhpt : b.hpt = d.hpt := (congrArg Dev.hpt hrest :)
  have hpos : b.pos = d.pos := (congrArg Dev.pos hrest :)
  have hcas : b.cas = d.cas := (congrArg Dev.cas hrest :)
  have hmem : d.sameMemories b := ⟨(congrArg Dev.ddr hrest :), (congrArg Dev.nor hrest :), (congrArg Dev.feram hrest :), (congrArg Dev.cobMem hrest :)⟩
  rw [Dev.gapSlot_eq (Dev.mayArm_congr harm hpos (Dev.tpos_eq htpos))]
  exact {
    hold := (congrArg Plc.hold hplc :)
    holdDone := (congrArg Plc.holdDone hplc :)
    cause := (congrArg Plc.holdCause hplc :)
    count := hcount
    entry := List.mem_append_right _ (List.mem_singleton_self _)
    dsets := (congrArg Plc.dsets hplc :)
    memories := hmem
    glb := hglb
    hpt := hhpt
    mode := by
      change b.casMode = d.casMode
      rw [Dev.casMode, Dev.casMode, Dev.get, Dev.get, hmode, hcas] }

end Sys2Proof.Machine
end

section
/-!
SUPPORT. A data data set of a single device closes (R44, R223, R225): its payload in its buffer, its place among the data sets, and what
else the closing touches.
-/
namespace Sys2Proof.Machine

variable {d e : Dev} {z : Session}

/-- The registers that the closing of a data set counts in, and the refused shares. -/
def closeWords : List Nat := [C.plcClicks, C.plcReplaced, C.bpmShareRefused]

/-- What the closing of a data set in the buffer at `a` leaves: all but the streams' clicks, the pools, the payload's bytes, counts and the
data sets with what their group notes. -/
def Dev.closing (a : Nat) (d e : Dev) : Prop :=
  e = { d with
        strm := e.strm, pools := e.pools, regs := e.regs, ddr := e.ddr, poison := e.poison
        plc := { d.plc with
                 staged := e.plc.staged, runs := e.plc.runs, chains := e.plc.chains, replacing := e.plc.replacing, dsets := e.plc.dsets
                 nextDs := e.plc.nextDs, lastAffinity := e.plc.lastAffinity } }
    ∧ (∀ x, x ∉ closeWords → e.word x = d.word x)
    ∧ ∀ x, x < a ∨ a + 1966080 ≤ x → e.ddr.byte zeroByte x = d.ddr.byte zeroByte x

variable {a : Nat}

theorem Dev.closing_refl (d : Dev) : d.closing a d := ⟨rfl, fun _ _ => rfl, fun _ _ => rfl⟩

theorem Dev.closing_trans {f : Dev} (h : d.closing a e) (k : e.closing a f) : d.closing a f := by
  obtain ⟨he, hw, hd⟩ := h
  obtain ⟨ke, kw, kd⟩ := k
  exact ⟨by rw [ke, he], fun x hx => (kw x hx).trans (hw x hx), fun x hx => (kd x hx).trans (hd x hx)⟩

theorem Dev.closing_foldl {α : Type} (f : Dev → α → Dev) (h : ∀ d x, Dev.closing a d (f d x)) (l : List α) (d : Dev) :
    d.closing a (l.foldl f d) :=
  List.foldlRecOn (motive := fun e => Dev.closing a d e) l f d.closing_refl fun e he x _ => Dev.closing_trans he (h e x)

theorem Dev.closing_strm (d : Dev) (strm : Strm) : d.closing a { d with strm := strm } := ⟨rfl, fun _ _ => rfl, fun _ _ => rfl⟩
theorem Dev.closing_pools (d : Dev) (ps : List Pool) : d.closing a { d with pools := ps } := ⟨rfl, fun _ _ => rfl, fun _ _ => rfl⟩
theorem Dev.closing_dsets (d : Dev) (xs : List DSet) : d.closing a { d with plc := { d.plc with dsets := xs } } :=
  ⟨rfl, fun _ _ => rfl, fun _ _ => rfl⟩

theorem Dev.closing_bumpBy (d : Dev) {x : Nat} (hx : x ∈ closeWords) (n : Nat) : d.closing a (d.bumpBy x n) :=
  ⟨rfl, fun y hy => d.word_bumpBy_other _ n (by rintro rfl; exact hy hx), fun _ _ => rfl⟩

theorem Dev.closing_noteChain (d : Dev) (s : Session) (entry : Nat) (g : Given) : d.closing a (d.noteChain s entry g) := by
  unfold Dev.noteChain
  split
  · exact d.closing_strm _
  · exact d.closing_refl

/-- The payload goes in the data set's own buffer. -/
theorem Dev.closing_putDdr (d : Dev) (bs : List Byte) (hlen : bs.length = 1966080) : d.closing a (d.putDdr a bs) := by
  refine ⟨rfl, fun _ _ => rfl, fun x hx => ?_⟩
  rw [Dev.putDdr, Memory.byte_storeAll, if_neg (by omega)]

theorem Dev.closing_release (d : Dev) (h o : Nat) : d.closing a (d.release h o) := by
  rw [Dev.release_pools]
  exact d.closing_pools _

theorem Dev.closing_share (d : Dev) (h o : Nat) : d.closing a (d.share h o).2 := by
  obtain ⟨hrest, hword⟩ := d.poolSide_share h o
  refine ⟨by rw [hrest], fun x hx => hword x (by rintro rfl; exact hx (by decide)), fun x _ => by rw [hrest]⟩

theorem Dev.closing_freeDset (d : Dev) (x : DSet) : d.closing a (d.freeDset x) := by
  unfold Dev.freeDset
  split
  · exact d.closing_refl
  · extract_lets freed
    have hfreed : d.closing a freed := Dev.closing_foldl _ (fun e o => e.closing_release x.handle o) _ d
    exact Dev.closing_trans hfreed (freed.closing_dsets _)

theorem Dev.closing_freeSuperseded (d : Dev) : d.closing a d.freeSuperseded := Dev.closing_foldl _ Dev.closing_freeDset _ d

/-- Some staged buffers stay, and the rest is released. -/
theorem Dev.trimStage_eq (d : Dev) : ∃ need,
    d.trimStage = (d.releaseAll (d.plc.staged.drop need) ownLast).modPlc fun p => { p with staged := p.staged.take need } := ⟨_, rfl⟩

theorem Dev.closing_trimStage (d : Dev) : d.closing a d.trimStage := by
  obtain ⟨need, htrim⟩ := d.trimStage_eq
  rw [htrim]
  have hfreed : d.closing a (d.releaseAll (d.plc.staged.drop need) ownLast) := by
    rw [Dev.releaseAll_pools]
    exact d.closing_pools _
  exact Dev.closing_trans hfreed ⟨rfl, fun _ _ => rfl, fun _ _ => rfl⟩

/-! ## The data set among the others -/

/-- A data set of a property that does not rest on its buffer is there. -/
def Dev.hasSet (P : DSet → Prop) (d : Dev) : Prop := ∃ x ∈ d.plc.dsets, P x

/-- A property that the loss of the buffer leaves alone. -/
def unboundBy (P : DSet → Prop) : Prop := ∀ x, P x → P { x with handle := noHandle }

theorem Dev.hasSet_freeDset {P : DSet → Prop} (hP : unboundBy P) (d : Dev) (x : DSet) (h : d.hasSet P) : (d.freeDset x).hasSet P := by
  unfold Dev.freeDset
  split
  · exact h
  · extract_lets freed
    have hplc : freed.plc = d.plc := by
      refine List.foldlRecOn (motive := fun e : Dev => e.plc = d.plc) _ _ rfl fun e he o _ => ?_
      rw [Dev.release_pools]
      exact he
    clear_value freed
    obtain ⟨y, hy, hp⟩ := h
    rw [← hplc] at hy
    by_cases hid : y.id = x.id
    · exact ⟨_, List.mem_map.mpr ⟨y, hy, by rw [if_pos (by simpa using hid)]⟩, hP y hp⟩
    · exact ⟨y, List.mem_map.mpr ⟨y, hy, by rw [if_neg (by simpa using hid)]⟩, hp⟩

theorem Dev.hasSet_freeSuperseded {P : DSet → Prop} (hP : unboundBy P) (d : Dev) (h : d.hasSet P) : d.freeSuperseded.hasSet P :=
  List.foldlRecOn (motive := fun e : Dev => e.hasSet P) _ _ h fun e he x _ => Dev.hasSet_freeDset hP e x he

theorem Dev.hasSet_trimStage {P : DSet → Prop} (d : Dev) (h : d.hasSet P) : d.trimStage.hasSet P := by
  obtain ⟨need, htrim⟩ := d.trimStage_eq
  rw [htrim, Dev.releaseAll_pools]
  exact h

end Sys2Proof.Machine
end

section
/-!
SUPPORT. A data data set of a single device is made (R44, R223).
-/
namespace Sys2Proof.Machine

variable {d e : Dev} {z : Session}

/-- What the data set is that closes for a session's next slot with the pieces given (R44, R223). -/
structure Session.madeSet (z : Session) (id : Nat) (gs : List Given) (x : DSet) : Prop where
  id : x.id = id
  typ : x.typ = 1
  group : x.group = z.group
  index : x.index = z.index
  dsSeq : x.dsSeq = z.dsSeq
  first : x.first = z.place.slot
  clicks : x.clicks = gs.map fun g => g.click.id
  copies : x.copies = [Copy.at z.place.slot 0 .closed]

theorem Session.unboundBy_madeSet (z : Session) (id : Nat) (gs : List Given) : unboundBy (z.madeSet id gs) := fun _ h => { h with }

/-- The clicks and contexts that note a placed piece leave the data sets. -/
theorem Dev.noteChain_plc (d : Dev) (z : Session) (entry : Nat) (g : Given) : (d.noteChain z entry g).plc = d.plc := by
  unfold Dev.noteChain
  split <;> rfl

theorem Dev.hasSet_of_plc {P : DSet → Prop} (h : d.hasSet P) (hplc : e.plc = d.plc) : e.hasSet P := by
  unfold Dev.hasSet
  rw [hplc]
  exact h

theorem Dev.closeData_spec {h : Nat} {hs : List Nat} (hmode : d.casMode = 0) (hstaged : d.plc.staged = h :: hs) (gs : List Given) (ends flush : Bool) :
    d.closing (d.bufAddr h) (d.closeData z 0 gs false ends flush) ∧ (d.closeData z 0 gs false ends flush).hasSet (z.madeSet d.plc.nextDs gs) := by
  unfold Dev.closeData
  rw [hstaged]
  dsimp -zeta only
  extract_lets ids base x runs chains repl es used data d2 commit g sess entries head segment segs es' area payload d3 x' d4 d5 whole d6
    again d7 aff d8 old c d9 y d10
  have hself : base.copies = [Copy.at z.place.slot 0 .closed] := if_pos (Dev.self_of_single hmode).symm
  have hmade : z.madeSet d.plc.nextDs gs x' := ⟨rfl, rfl, rfl, rfl, rfl, rfl, rfl, hself⟩
  have h2 : d.closing (d.bufAddr h) d2 := ⟨rfl, fun _ _ => rfl, fun _ _ => rfl⟩
  have haddr : d2.bufAddr h = d.bufAddr h := rfl
  clear_value x' d2 payload segs segment es'
  have h3 : d2.closing (d.bufAddr h) d3 := by
    unfold d3
    rw [haddr]
    exact d2.closing_putDdr _ (length_fitTo _ _)
  clear_value d3
  have h4 : d3.closing (d.bufAddr h) d4 := ⟨rfl, fun _ _ => rfl, fun _ _ => rfl⟩
  have s4 : d4.hasSet (z.madeSet d.plc.nextDs gs) := ⟨x', List.mem_append_right _ (List.mem_singleton_self _), hmade⟩
  clear_value d4
  have h5 : d4.closing (d.bufAddr h) d5 :=
    Dev.closing_foldl _ (fun e _ => Dev.closing_trans (e.closing_strm _) (Dev.closing_noteChain _ _ _ _)) _ d4
  have s5 : d5.hasSet (z.madeSet d.plc.nextDs gs) := Dev.hasSet_of_plc s4
    (List.foldlRecOn (motive := fun e : Dev => e.plc = d4.plc) _ _ rfl fun e he _ _ => (Dev.noteChain_plc _ _ _ _).trans he)
  clear_value d5
  have h8 : d5.closing (d.bufAddr h) d8 :=
    Dev.closing_trans (Dev.closing_trans (d5.closing_bumpBy (by decide) _) (d6.closing_bumpBy (by decide) _)) ⟨rfl, fun _ _ => rfl, fun _ _ => rfl⟩
  have s8 : d8.hasSet (z.madeSet d.plc.nextDs gs) := s5
  clear_value d8
  have h10 : d8.closing (d.bufAddr h) d10 := d8.closing_share h ownC3
  have s10 : d10.hasSet (z.madeSet d.plc.nextDs gs) := Dev.hasSet_of_plc s8 (congrArg Dev.plc (d8.poolSide_share h ownC3).1 :)
  clear_value d10
  have hend := Dev.closing_trans d10.closing_freeSuperseded (d10.freeSuperseded.closing_trimStage (a := d.bufAddr h))
  exact ⟨Dev.closing_trans h2 (Dev.closing_trans h3 (Dev.closing_trans h4 (Dev.closing_trans h5 (Dev.closing_trans h8 (Dev.closing_trans h10 hend))))),
    Dev.hasSet_trimStage _ (Dev.hasSet_freeSuperseded (z.unboundBy_madeSet _ _) _ s10)⟩

end Sys2Proof.Machine
end

section
/-!
SUPPORT. The next slot's data data set closes, or a hold begins (R223, R225, R230), once TPOS has come 300 eyelets before the slot.
-/
namespace Sys2Proof.Machine

variable {d e : Dev} {z : Session}

/-! ## The early warning leaves the hosts' connections -/

/-- What the early warning changes; every connection keeps its state. -/
def Dev.tells (d e : Dev) : Prop :=
  e = { d with regs := e.regs, cqm := e.cqm, hpt := e.hpt, plc := { d.plc with warned := e.plc.warned } }
    ∧ e.hpt.conns.map Conn.st = d.hpt.conns.map Conn.st

theorem Dev.tells_trans {f : Dev} (h : d.tells e) (k : e.tells f) : d.tells f := ⟨by rw [k.1, h.1], k.2.trans h.2⟩

theorem Dev.tells_sendMsg (d : Dev) (c typ cls : Nat) (p : Payload) (len : Nat) (st : Option Nat) (bufs : List Nat) :
    d.tells (d.sendMsg c typ cls p len st bufs) := by
  refine ⟨rfl, ?_⟩
  simp only [Dev.sendMsg, List.map_map]
  refine List.map_congr_left fun k _ => ?_
  simp only [Function.comp]
  split <;> rfl

theorem Dev.tells_notice (d : Dev) (code : Nat) (es : List (List Byte)) : d.tells (d.notice code es) :=
  List.foldlRecOn (motive := fun e : Dev => d.tells e) _ _ ⟨rfl, rfl⟩ fun e he _ _ => Dev.tells_trans he (Dev.tells_sendMsg e _ _ _ _ _ _ _)

theorem Dev.tells_log (d : Dev) (y : LogEntry) : d.tells (d.log y) := by
  rw [(d.logOnly_log y).1]
  exact ⟨rfl, rfl⟩

theorem Dev.tells_checkCapacity (d : Dev) : d.tells d.checkCapacity := by
  have hevent : ∀ (f : Dev) (code : Nat), f.tells (f.event code) := fun f code => Dev.tells_trans (f.tells_log _) (Dev.tells_notice _ _ _)
  unfold Dev.checkCapacity
  extract_lets low
  split
  · exact Dev.tells_trans (e := (d.set F.plcStatusEwSeen 1).modPlc fun p => { p with warned := true }) ⟨rfl, rfl⟩ (hevent _ _)
  split
  · exact ⟨rfl, rfl⟩
  · exact ⟨rfl, rfl⟩

/-- Whether only credit follows rests on the states of the connections and on a held standby request. -/
theorem Dev.calm_of_states (hglb : e.glb = d.glb) (hconns : e.hpt.conns.map Conn.st = d.hpt.conns.map Conn.st) : e.calm = d.calm := by
  have hall : ∀ l : List Conn, (l.all fun k => k.st != .closeWait) = (l.map Conn.st).all fun s => s != .closeWait := fun l => by rw [List.all_map]; rfl
  rw [Dev.calm, Dev.calm, hall, hall, hconns, hglb]

theorem Dev.calm_of_tells (h : d.tells e) : e.calm = d.calm := Dev.calm_of_states (congrArg Dev.glb h.1 :) h.2

theorem Dev.casMode_congr (hcas : e.cas = d.cas) (hword : e.word F.casCfgMode.addr = d.word F.casCfgMode.addr) : e.casMode = d.casMode := by
  rw [Dev.casMode, Dev.casMode, Dev.get, Dev.get, hcas, hword]

/-! ## The slot's data set, or a hold -/

/-- The session as its next slot is chosen: a group that begins begins there. -/
def Session.opened (z : Session) : Session := { z with groupFirst := if z.index = 0 then z.place.slot else z.groupFirst }

theorem Dev.mayArm.opened (h : d.mayArm z) : d.mayArm z.opened := ⟨h.mode, h.room, h.away⟩

/-- The next slot has its data set, in the buffer at `a` with the pieces given, its start is armed, and the session goes on. -/
structure Dev.closedFrom (d : Dev) (z : Session) (a : Nat) (gs : List Given) (e : Dev) : Prop where
  made : e.hasSet (z.madeSet d.plc.nextDs gs)
  session : ∃ y, e.plc.session = some y ∧ y.dsSeq = z.dsSeq + 1 ∧ y.dataSets = z.dataSets + 1 ∧ y.index = z.index + 1
    ∧ y.place.slot = slotAfter (wrapReverse z.place.wrap) z.place.slot 1
  entry : z.startEntry ∈ e.pos.entries
  bytes : ∀ x, x < a ∨ a + 1966080 ≤ x → e.ddr.byte zeroByte x = d.ddr.byte zeroByte x
  mode : e.casMode = d.casMode
  calm : e.calm = d.calm

/-- The start armed and the session counted on. -/
theorem Dev.closedFrom_useSlot {a : Nat} {gs : List Given} (hsession : d.plc.session = some z) (harm : d.mayArm z) (hclose : d.closing a e)
    (hmade : e.hasSet (z.opened.madeSet d.plc.nextDs gs)) (commit : Word) :
    d.closedFrom z a gs
      ((e.useSlot z.opened).modSession fun t => { (z.opened.afterData false false commit) with place := t.place, lastUsed := t.lastUsed }).checkCapacity := by
  obtain ⟨hrest, hword, hddr⟩ := hclose
  have hpos : e.pos = d.pos := (congrArg Dev.pos hrest :)
  have hglb : e.glb = d.glb := (congrArg Dev.glb hrest :)
  have hhpt : e.hpt = d.hpt := (congrArg Dev.hpt hrest :)
  have hcas : e.cas = d.cas := (congrArg Dev.cas hrest :)
  have hses : e.plc.session = some z := (congrArg (fun d : Dev => d.plc.session) hrest :).trans hsession
  have harm' : e.mayArm z.opened := Dev.mayArm_congr harm.opened hpos (Dev.tpos_eq (hword _ (by decide)))
  rw [Dev.useSlot_eq harm']
  have hmode : e.casMode = d.casMode := Dev.casMode_congr hcas (hword _ (by decide))
  generalize hf : ((e.withEntry z.opened.startEntry).modSession fun s => s.advance).modSession _ = f
  have hplc : f.plc = { e.plc with session := some { (z.opened.afterData false false commit) with
      place := z.advance.place, lastUsed := z.lastUsed } } := by
    rw [← hf]
    simp only [Dev.modSession, Dev.modPlc, Dev.withEntry, hses, Option.map_some]
    rfl
  have hentries : f.pos.entries = e.pos.entries ++ [z.startEntry] := by rw [← hf]; rfl
  have hfddr : f.ddr = e.ddr := by rw [← hf]; rfl
  have hfmode : f.casMode = e.casMode := by rw [← hf]; rfl
  have hfcalm : f.calm = d.calm := (Dev.calm_congr (by rw [← hf]; rfl) (by rw [← hf]; rfl)).trans (Dev.calm_congr hglb hhpt)
  clear hf
  have htell := f.tells_checkCapacity
  have hslot := f.slotOnly_checkCapacity
  have hsets : f.checkCapacity.plc = { f.plc with warned := f.checkCapacity.plc.warned } := (congrArg Dev.plc htell.1 :)
  have hfcas : f.checkCapacity.cas = f.cas := (congrArg Dev.cas htell.1 :)
  generalize f.checkCapacity = t at *
  exact {
    made := by
      obtain ⟨x, hx, hm⟩ := hmade
      refine ⟨x, ?_, { hm with }⟩
      rw [hsets, hplc]
      exact hx
    session := ⟨_, by rw [hsets, hplc], rfl, rfl, rfl, rfl⟩
    entry := by
      rw [Dev.slotOnly_pos hslot, hentries]
      exact List.mem_append_right _ (List.mem_singleton_self _)
    bytes := fun x hx => by rw [(Dev.slotOnly_memories hslot).1, hfddr, hddr x hx]
    mode := by rw [Dev.casMode_congr hfcas (hslot.2.1 _ (by decide)), hfmode, hmode]
    calm := by rw [Dev.calm_of_tells htell, hfcalm] }

/-- Where enough is coded, the next slot gets a data data set (R223, R225). -/
theorem Dev.closedFrom_closeRound {h : Nat} {hs : List Nat} {gs : List Given} {dry full : Bool} (hmay : d.mayClose z) (harm : d.mayArm z)
    (hstaged : d.plc.staged = h :: hs) (hwould : d.wouldClose z.opened d.unplaced = some ⟨[⟨gs, dry, full⟩], false, false⟩) :
    d.closedFrom z (d.bufAddr h) gs (d.closeRound z) := by
  have hroom : ¬ d.plc.staged.length + d.poolFree 1 < z.place.width := by
    rw [hstaged, hmay.width, List.length_cons]
    omega
  unfold Session.opened at hwould
  unfold Dev.closeRound
  simp only [hwould, hroom, Bool.false_and, Bool.false_eq_true, if_false, List.zipIdx_cons, List.zipIdx_nil, List.foldl_cons, List.foldl_nil]
  rw [if_neg (by simp [hstaged])]
  obtain ⟨hclose, hmade⟩ := Dev.closeData_spec (z := z.opened) hmay.single hstaged gs false (d.wantsShort && (dry || false && !full))
  exact Dev.closedFrom_useSlot hmay.session harm hclose hmade _

/-- Where too little is coded, a hold begins and the slot gets a gap (R230). -/
theorem Dev.heldFrom_closeRound (hmay : d.mayClose z) (harm : d.mayArm z) (hwould : d.wouldClose z.opened d.unplaced = none) :
    d.heldFrom z (d.closeRound z) := by
  unfold Session.opened at hwould
  unfold Dev.closeRound
  simp only [hwould]
  exact Dev.heldFrom_gap hmay.hold harm

/-! ## What TPOS's motion leaves -/

/-- The motion of TPOS leaves what the closing of a slot rests on. -/
theorem Dev.mayClose_reachAhead (h : d.mayClose z) (p : Int) : (d.reachAhead p).mayClose z := by
  have hreach := d.regsOut_reachAhead p
  generalize d.reachAhead p = e at *
  obtain ⟨-, -, hplc, -, hpos, -⟩ := Dev.regsOut_fields hreach
  have htce : e.tce = d.tce := (congrArg Dev.tce hreach.1 :)
  have hok : e.writeOk = d.writeOk := by
    rw [Dev.writeOk, Dev.writeOk, htce, Dev.get, Dev.get, Dev.flag, Dev.flag, Dev.get, Dev.get, hreach.2.1 F.tcePgLimAmax.addr (by decide),
      hreach.2.1 F.mdrStatusBrake.addr (by decide)]
  have hmode : e.casMode = d.casMode := Dev.casMode_congr (congrArg Dev.cas hreach.1 :) (hreach.2.1 _ (by decide))
  have hrestarting : e.flag F.glbCobblerRestarting = d.flag F.glbCobblerRestarting := by
    rw [Dev.flag, Dev.flag, Dev.get, Dev.get, hreach.2.1 F.glbCobblerRestarting.addr (by decide)]
  exact {
    session := by rw [hplc, h.session]
    clicks := by rw [show e.strm = d.strm from (congrArg Dev.strm hreach.1 :)]; exact h.clicks
    hold := by rw [hplc, h.hold]
    holdDone := by rw [hplc, h.holdDone]
    stopped := by rw [hplc, h.stopped]
    mode := by rw [hpos, h.mode]
    writeOk := by rw [hok, h.writeOk]
    single := by rw [hmode, h.single]
    restarting := by rw [hrestarting, h.restarting]
    regap := by rw [hpos, h.regap]
    pending := by rw [hplc, h.pending]
    again := by rw [hplc, h.again]
    entries := by rw [hpos]; exact h.entries
    generation := h.generation, atEnd := h.atEnd, owedGaps := h.owedGaps, heel := h.heel, closing := h.closing, index := h.index
    width := h.width, left := h.left }

/-- The next slot's start can be armed once TPOS has come 300 eyelets before it. -/
theorem Dev.mayArm_reachAhead (h : d.mayClose z) (hrev : d.reverse = wrapReverse z.place.wrap)
    (haway : 1024 ≤ slotAway (wrapReverse z.place.wrap) z.place.slot d.tpos) :
    (d.reachAhead (placeBefore (wrapReverse z.place.wrap) z.place.slot 300)).mayArm z := by
  have hmoved := Dev.mayClose_reachAhead h (placeBefore (wrapReverse z.place.wrap) z.place.slot 300)
  refine ⟨hmoved.mode, hmoved.entries, Dev.slotAway_reachAhead hrev (fun hforward => ?_) haway⟩
  have hleft := h.left
  unfold slotsLeft slotsFrom lastSlot at hleft
  rw [hforward] at hleft
  simp at hleft
  omega

/-! ## The command -/

/-- What the end of the capacity and the host side's settling leave of the device. -/
theorem Dev.hostSettle_endFull (hmode : d.casMode = 0) (hcalm : d.calm = true) :
    d.sameMemories d.endFull.hostSettle ∧ d.endFull.hostSettle.pos = d.pos
      ∧ (∃ st j y, d.endFull.hostSettle.plc = { d.plc with stopped := st, judged := j, session := y }
        ∧ (y = d.plc.session ∨ y = d.plc.session.map fun s => { s with ending := true }))
      ∧ ∀ x, x ≠ C.hptTxSeg → d.endFull.hostSettle.word x = d.word x := by
  obtain ⟨hend, hses⟩ := Dev.endsOnly_endFull hmode
  generalize d.endFull = e at *
  have hword : ∀ x, e.word x = d.word x := fun x => by rw [hend]; rfl
  have hglb : e.glb = d.glb := (congrArg Dev.glb hend :)
  have hhpt : e.hpt = d.hpt := (congrArg Dev.hpt hend :)
  have hsettle := e.hostOnly_hostSettle (by rw [Dev.calm_congr hglb hhpt, hcalm])
  obtain ⟨hmem, -, hplc, -, hpos, -⟩ := Dev.hostOnly_fields hsettle
  have hplc' : e.plc = { d.plc with stopped := e.plc.stopped, judged := e.plc.judged, session := e.plc.session } := (congrArg Dev.plc hend :)
  have hmem' : d.sameMemories e := ⟨(congrArg Dev.ddr hend :), (congrArg Dev.nor hend :), (congrArg Dev.feram hend :), (congrArg Dev.cobMem hend :)⟩
  exact ⟨Dev.sameMemories_trans hmem' hmem, hpos.trans (congrArg Dev.pos hend :), ⟨_, _, _, hplc.trans hplc', hses⟩,
    fun x hx => (Dev.hostOnly_word hsettle hx).trans (hword x)⟩

/-- Settles O35: DATA_SET_CLOSE comes to its place, chooses the slot as the filling says, and the slot's start is armed. -/
theorem dataSetCloses : Obligations.DataSetCloses := by
  intro s z h hs gs dry full hcalm hsession hclicks hhold hdone hstopped hlocked hok hmode hrestarting hgen hatEnd howed hheel hclosing hindex hwidth
    hregap hpending hagain hleft hroom rev e z0 hrev hclear haway
  have hmay : s.dev.mayClose z := ⟨hsession, hclicks, hhold, hdone, hstopped, hlocked, hok, hmode, hrestarting, hgen, hatEnd, howed, hheel, hclosing,
    hindex, hwidth, hregap, hpending, hagain, hleft, hroom⟩
  have hmoved := Dev.mayClose_reachAhead hmay (placeBefore rev z.place.slot 300)
  have harm := Dev.mayArm_reachAhead hmay hrev haway
  have hclose := Dev.dataSetClose_eq hmay hclear hmoved
  have hreach := s.dev.regsOut_reachAhead (placeBefore rev z.place.slot 300)
  change (s.dev.reachAhead (placeBefore rev z.place.slot 300)).mayArm z at harm
  change _ = ((s.dev.reachAhead (placeBefore rev z.place.slot 300)).closeRound z).endFull at hclose
  generalize s.dev.reachAhead (placeBefore rev z.place.slot 300) = r at *
  have hfill := Dev.fillsAlike_of_regsOut hreach (by decide) (by decide)
  have hsame : r.wouldClose z.opened r.unplaced = s.dev.wouldClose z0 s.dev.unplaced := by
    rw [Dev.unplaced_congr hfill]
    exact Dev.wouldClose_congr hfill _ _
  obtain ⟨hmem, -, hplc, -, -, -, hglb, hhpt⟩ := Dev.regsOut_fields hreach
  have hrcalm : r.calm = true := by rw [Dev.calm_congr hglb hhpt, hcalm]
  refine ⟨fun hwould hstaged => ⟨_, exec_dataSetClose s, ?_⟩, fun hwould => ⟨_, exec_dataSetClose s, ?_⟩⟩
  · have hbuf : r.bufAddr h = s.dev.bufAddr h :=
      Dev.bufAddr_congr (fun i hi => hreach.2.1 _ ((by decide : ∀ i < 8, (F.bpmPoolBaseBase.ix i).addr ∉ reachWords) i hi)) h
    have hmade := Dev.closedFrom_closeRound hmoved harm (by rw [hplc, hstaged]) (hsame.trans hwould)
    rw [hclose]
    generalize r.closeRound z = c at *
    obtain ⟨tmem, tpos, ⟨st, j, y, tplc, hy⟩, -⟩ :=
      Dev.hostSettle_endFull (hmade.mode.trans hmoved.single) (hmade.calm.trans hrcalm)
    generalize Dev.hostSettle _ = t at *
    refine ⟨?_, ?_, ?_, fun a ha => ?_⟩
    · obtain ⟨x, hx, m⟩ := hmade.made
      refine ⟨x, ?_, m.id.trans (by rw [hplc]), m.typ, m.group, m.index, m.dsSeq, m.first, m.clicks, m.copies⟩
      rw [tplc]
      exact hx
    · obtain ⟨w, hw, hseq, hsets, hix, hslot⟩ := hmade.session
      rw [tplc]
      rcases hy with rfl | rfl
      · exact ⟨w, hw, hseq, hsets, hix, hslot⟩
      · exact ⟨{ w with ending := true }, by rw [hw]; rfl, hseq, hsets, hix, hslot⟩
    · rw [tpos]
      exact hmade.entry
    · rw [tmem.1, hmade.bytes a (by rw [hbuf]; exact ha), hmem.1]
  · have hheld := Dev.heldFrom_closeRound hmoved harm (hsame.trans hwould)
    rw [hclose]
    generalize r.closeRound z = c at *
    obtain ⟨tmem, tpos, ⟨st, j, y, tplc, -⟩, tword⟩ :=
      Dev.hostSettle_endFull (hheld.mode.trans hmoved.single) ((Dev.calm_congr hheld.glb hheld.hpt).trans hrcalm)
    generalize Dev.hostSettle _ = t at *
    refine ⟨?_, ?_, ?_, ?_, ?_, ?_, State.memoriesStand_of_same (Dev.sameMemories_trans hmem (Dev.sameMemories_trans hheld.memories tmem))⟩
    · rw [tplc]
      exact hheld.hold
    · rw [tplc]
      exact hheld.holdDone
    · rw [tplc]
      exact hheld.cause
    · rw [tword _ (by decide), hheld.count, hreach.2.1 _ (by decide)]
    · rw [tpos]
      exact hheld.entry
    · rw [tplc]
      exact hheld.dsets.trans (by rw [hplc])

end Sys2Proof.Machine
end

section
/-!
SUPPORT. What reading the insole and the ladder leave alone (R146 to R162, R242): commands, queues, connections, the device's state, the
cartridge, the session and the position state.
-/
namespace Sys2Proof.Machine

/-- What commands and the tape's state of the device rest on. -/
structure Face where
  cmds : List Cmd
  queues : List Queue
  waits : List Wait
  conns : List (Nat × CState × Nat)
  glb : Glb
  cart : Cart
  session : Option Session
  stopped : Option Nat
  mode : PosMode

/-- The face of a device; a connection shows its number, its state and its queue. -/
def Dev.face (d : Dev) : Face :=
  ⟨d.cqm.cmds, d.cqm.queues, d.cqm.waits, d.hpt.conns.map fun k => (k.id, k.st, k.queue), d.glb, d.cart, d.plc.session, d.plc.stopped, d.pos.mode⟩

variable {d e : Dev}

/-! ## The elementary changes -/

theorem Dev.face_regs (d : Dev) (r : List (Nat × Word)) : ({ d with regs := r } : Dev).face = d.face := by cases d; rfl
theorem Dev.face_pools (d : Dev) (ps : List Pool) : ({ d with pools := ps } : Dev).face = d.face := by cases d; rfl
theorem Dev.face_out (d : Dev) (os : List Out) : ({ d with out := os } : Dev).face = d.face := by cases d; rfl
@[simp] theorem Dev.face_tce (d : Dev) (t : Tce) : ({ d with tce := t } : Dev).face = d.face := by cases d; rfl
@[simp] theorem Dev.face_ecc (d : Dev) (t : Ecc) : ({ d with ecc := t } : Dev).face = d.face := by cases d; rfl
@[simp] theorem Dev.face_chan (d : Dev) (t : Chan) : ({ d with chan := t } : Dev).face = d.face := by cases d; rfl
@[simp] theorem Dev.face_putWord (d : Dev) (a : Nat) (w : Word) : (d.putWord a w).face = d.face := Dev.face_regs d _
@[simp] theorem Dev.face_set (d : Dev) (f : Fld) (v : Nat) : (d.set f v).face = d.face := Dev.face_putWord d _ _
@[simp] theorem Dev.face_bumpBy (d : Dev) (a n : Nat) : (d.bumpBy a n).face = d.face := Dev.face_putWord d _ _
@[simp] theorem Dev.face_bump (d : Dev) (a : Nat) : (d.bump a).face = d.face := Dev.face_bumpBy d _ _
@[simp] theorem Dev.face_emit (d : Dev) (o : Out) : (d.emit o).face = d.face := Dev.face_out d _
@[simp] theorem Dev.face_putDdr (d : Dev) (a : Nat) (bs : List Byte) : (d.putDdr a bs).face = d.face := by cases d; rfl
@[simp] theorem Dev.face_modDecode (d : Dev) (h : Nat) (f : Decode → Decode) : (d.modDecode h f).face = d.face := Dev.face_ecc d _
@[simp] theorem Dev.face_addDecode (d : Dev) (x : Decode) : (d.addDecode x).face = d.face := Dev.face_ecc d _
@[simp] theorem Dev.face_unpin (d : Dev) : d.unpin.face = d.face := (Dev.face_set _ _ _).trans (Dev.face_ecc d _)

@[simp] theorem Dev.face_release (d : Dev) (h o : Nat) : (d.release h o).face = d.face := by
  rw [Dev.release_pools, Dev.face_pools]

@[simp] theorem Dev.face_releaseAll (d : Dev) (hs : List Nat) (o : Nat) : (d.releaseAll hs o).face = d.face := by
  rw [Dev.releaseAll_pools, Dev.face_pools]

@[simp] theorem Dev.face_allocate (d : Dev) (p owner port : Nat) : (d.allocate p owner port).2.face = d.face := by
  rw [Dev.allocate_snd_eq]
  rfl

@[simp] theorem Dev.face_dropDecode (d : Dev) (x : Decode) : (d.dropDecode x).face = d.face := by
  unfold Dev.dropDecode
  rw [Dev.face_release, Dev.face_ecc]

theorem Dev.face_ite {p : Prop} [Decidable p] {a b : Dev} (ha : a.face = d.face) (hb : b.face = d.face) : (if p then a else b).face = d.face := by
  split
  · exact ha
  · exact hb

theorem Dev.face_foldl {α : Type} {f : Dev → α → Dev} (h : ∀ d x, (f d x).face = d.face) (l : List α) (d : Dev) : (l.foldl f d).face = d.face :=
  List.foldlRecOn (motive := fun e : Dev => e.face = d.face) l f rfl fun e he x _ => (h e x).trans he

/-! ## Events -/

@[simp] theorem Dev.face_sendMsg (d : Dev) (c typ cls : Nat) (p : Payload) (len : Nat) (st : Option Nat) (bufs : List Nat) :
    (d.sendMsg c typ cls p len st bufs).face = d.face := by
  have hconns : (d.sendMsg c typ cls p len st bufs).hpt.conns.map (fun k => (k.id, k.st, k.queue)) = d.hpt.conns.map fun k => (k.id, k.st, k.queue) := by
    simp only [Dev.sendMsg, List.map_map]
    refine List.map_congr_left fun k _ => ?_
    simp only [Function.comp]
    split <;> rfl
  exact congrArg (fun l => (⟨d.cqm.cmds, d.cqm.queues, d.cqm.waits, l, d.glb, d.cart, d.plc.session, d.plc.stopped, d.pos.mode⟩ : Face)) hconns

@[simp] theorem Dev.face_log (d : Dev) (y : LogEntry) : (d.log y).face = d.face := by
  rw [(d.logOnly_log y).1]
  rfl

@[simp] theorem Dev.face_notice (d : Dev) (code : Nat) (es : List (List Byte)) : (d.notice code es).face = d.face :=
  Dev.face_foldl (fun e _ => Dev.face_sendMsg e _ _ _ _ _ _ _) _ d

@[simp] theorem Dev.face_event (d : Dev) (code : Nat) : (d.event code).face = d.face :=
  (Dev.face_notice _ _ _).trans (Dev.face_log _ _)

@[simp] theorem Dev.face_fault (d : Dev) (f : Fld) : (d.fault f).face = d.face := by
  unfold Dev.fault
  extract_lets low set
  have hset : set.face = d.face := Dev.face_set _ _ _
  clear_value set
  exact Dev.face_ite ((Dev.face_emit _ _).trans hset) hset

@[simp] theorem Dev.face_memoryError (d : Dev) (a : Nat) : (d.memoryError a).face = d.face := by
  unfold Dev.memoryError
  rw [Dev.face_event, Dev.face_fault, Dev.face_set, Dev.face_set, Dev.face_bump]

/-! ## Slots read and decoded -/

theorem Dev.face_channelPassed (d : Dev) (t : TrackRead) (f : Front) (r : ReadSet) (v : SegView) (slot : Nat) (rev : Bool) :
    (d.channelPassed t f r v slot rev).face = d.face := by
  unfold Dev.channelPassed
  extract_lets n phase shown synced timed opened holed clipped_ judged g scans loops _ kept
  have hshown : shown.face = d.face := by simp [shown]
  clear_value shown
  have hsynced : synced.face = d.face := Dev.face_ite (by simp [hshown]) hshown
  clear_value synced
  have htimed : timed.face = d.face := Dev.face_ite (by simp [hsynced]) hsynced
  clear_value timed
  have hholed : holed.face = d.face := Dev.face_ite htimed (by simp [htimed])
  clear_value holed
  have hjudged : judged.face = d.face := by simp only [judged, clipped_, Dev.face_bumpBy, hholed]
  clear_value judged
  have hkept : kept.face = d.face := (Dev.face_chan judged _).trans hjudged
  clear_value kept
  exact Dev.face_ite ((Dev.face_foldl (fun e _ => Dev.face_set e _ _) _ _).trans hkept) hkept

@[simp] theorem Dev.face_retain (d : Dev) (slot : Nat) (reads : List TrackRead) (sets : List (Nat × ReadSet)) :
    (d.retain slot reads sets).face = d.face := by simp [Dev.retain]

@[simp] theorem Dev.face_slotPassed (d : Dev) (slot : Nat) (rev : Bool) (reads : List TrackSignal) : (d.slotPassed slot rev reads).2.face = d.face := by
  unfold Dev.slotPassed
  extract_lets ps passed
  have hpassed : passed.face = d.face := Dev.face_foldl (fun e _ => Dev.face_channelPassed e _ _ _ _ _ _) _ _
  clear_value passed
  rw [Dev.face_retain, hpassed]

@[simp] theorem Dev.face_putCodeword (d : Dev) (x : Decode) (n c : Nat) (bs : List Byte) : (d.putCodeword x n c bs).face = d.face :=
  Dev.face_putDdr _ _ _

@[simp] theorem Dev.face_noteC1 (d : Dev) (x : Decode) (r : C1Report × Nat × Option (List Byte)) : (d.noteC1 x r).face = d.face := by
  unfold Dev.noteC1
  extract_lets put counted failed
  have hput : put.face = d.face := by
    unfold put
    split
    · rw [Dev.face_bump, Dev.face_putCodeword]
    · rfl
  clear_value put
  have hcounted : counted.face = d.face := by simp [counted, hput]
  clear_value counted
  have hfailed : failed.face = d.face := Dev.face_ite hcounted (by simp [hcounted])
  clear_value failed
  rw [Dev.face_modDecode, hfailed]

@[simp] theorem Dev.face_c1One (d : Dev) (x : Decode) (n c : Nat) : (d.c1One x n c).face = d.face := by
  unfold Dev.c1One
  extract_lets norm limit
  split
  · rfl
  split
  · exact Dev.face_noteC1 _ _ _
  · exact Dev.face_ite (Dev.face_noteC1 _ _ _) rfl

@[simp] theorem Dev.face_c1All (d : Dev) (x : Decode) : (d.c1All x).face = d.face :=
  Dev.face_foldl (fun e n => Dev.face_foldl (fun e c => Dev.face_c1One e x n c) _ e) _ d

@[simp] theorem Dev.face_putTracks (d : Dev) (h : Nat) (ts : List (List Nat)) : (d.putTracks h ts).face = d.face :=
  Dev.face_foldl (fun e _ => Dev.face_putDdr e _ _) _ d

end Sys2Proof.Machine
end

section
/-!
SUPPORT. The ladder's steps leave the face alone (R158, R162).
-/
namespace Sys2Proof.Machine

variable {d e : Dev}

@[simp] theorem Dev.face_runC2 (d : Dev) (x : Decode) (first : Bool) : (d.runC2 x first).face = d.face := by
  unfold Dev.runC2
  extract_lets r poison told bad put counted failed typ content judged bad'
  have htold : told.face = d.face := by
    unfold told
    cases poison with
    | none => rfl
    | some a => exact Dev.face_memoryError _ _
  clear_value told bad r
  have hcounted : counted.face = d.face := by simp [counted, put, htold]
  clear_value counted
  have hfailed : failed.face = d.face := Dev.face_ite (by simp [hcounted]) hcounted
  clear_value failed typ content
  have hjudged : judged.face = d.face := Dev.face_ite hfailed (by simp [hfailed])
  clear_value judged
  rw [Dev.face_modDecode, hjudged]

/-! ## The ladder -/

@[simp] theorem Dev.face_classify (d : Dev) (x : Decode) (k : Nat) : (d.classify x k).face = d.face := by
  unfold Dev.classify
  extract_lets classed free counted
  have hfree : free.face = d.face := Dev.face_ite (by simp [classed]) (by simp [classed])
  clear_value free
  have hcounted : counted.face = d.face := Dev.face_ite (by simp [hfree]) hfree
  clear_value counted
  exact Dev.face_ite (by simp [hcounted]) hcounted

@[simp] theorem Dev.face_stepDone (d : Dev) (x : Decode) (k : Nat) : (d.stepDone x k).face = d.face := by
  unfold Dev.stepDone
  extract_lets stepped
  have hstepped : stepped.face = d.face := Dev.face_modDecode _ _ _
  clear_value stepped
  exact Dev.face_ite hstepped (Dev.face_ite ((Dev.face_classify _ _ _).trans hstepped) hstepped)

@[simp] theorem Dev.face_pinSlot (d : Dev) (slot : Nat) : (d.pinSlot slot).2.face = d.face := by
  unfold Dev.pinSlot
  split
  · simp
  · exact Dev.face_bump _ _

@[simp] theorem Dev.face_redecode (d : Dev) (x : Decode) (s : Retained) (again : Bool) : (d.redecode x s again).face = d.face := by
  unfold Dev.redecode
  extract_lets failed decoded
  have hdecoded : decoded.face = d.face := Dev.face_foldl (fun e f => by
    dsimp only
    split
    · rw [Dev.face_modDecode]
      split
      · exact Dev.face_putCodeword _ _ _ _ _
      · rfl
    · rfl) _ _
  clear_value decoded
  split
  · exact (Dev.face_runC2 _ _ _).trans hdecoded
  · exact hdecoded

@[simp] theorem Dev.face_tryStep (d : Dev) (x : Decode) (k : Nat) : (d.tryStep x k).face = d.face := by
  unfold Dev.tryStep
  split
  · exact Dev.face_stepDone _ _ _
  · extract_lets tried
    have htried : tried.face = d.face := Dev.face_redecode _ _ _ _
    clear_value tried
    exact Dev.face_ite ((Dev.face_classify _ _ _).trans htried) ((Dev.face_stepDone _ _ _).trans htried)

@[simp] theorem Dev.face_ladderStep (d : Dev) (x : Decode) : (d.ladderStep x).face = d.face := by
  unfold Dev.ladderStep
  extract_lets k failed
  refine Dev.face_ite (Dev.face_stepDone _ _ _) (Dev.face_ite ?_ ?_)
  · exact (Dev.face_stepDone _ _ _).trans (Dev.face_ite (Dev.face_unpin _) rfl)
  · have hpinned : (if d.ecc.pin == some x.slot then (true, d) else d.pinSlot x.slot).2.face = d.face := by
      split
      · rfl
      · exact Dev.face_pinSlot _ _
    generalize (if d.ecc.pin == some x.slot then (true, d) else d.pinSlot x.slot) = p at *
    obtain ⟨ok, f⟩ := p
    dsimp -zeta only at hpinned ⊢
    refine Dev.face_ite ((Dev.face_stepDone _ _ _).trans hpinned) ?_
    extract_lets tried ended
    have htried : tried.face = d.face := (Dev.face_tryStep _ _ _).trans hpinned
    clear_value tried ended
    exact Dev.face_ite ((Dev.face_unpin _).trans htried) htried

@[simp] theorem Dev.face_insoleSteps (h : Nat) : ∀ (n : Nat) (d : Dev), (d.insoleSteps h n).face = d.face
  | 0, _ => rfl
  | n + 1, d => by
    unfold Dev.insoleSteps
    split
    · exact Dev.face_ite ((Dev.face_insoleSteps h n _).trans (Dev.face_ladderStep _ _)) rfl
    · rfl

@[simp] theorem Dev.face_readAgain (d : Dev) (wrap group g h : Nat) (reads : List TrackSignal) : (d.readAgain wrap group g h reads).face = d.face := by
  unfold Dev.readAgain
  have hpassed := d.face_slotPassed g (wrapReverse wrap) reads
  generalize d.slotPassed g (wrapReverse wrap) reads = p at *
  obtain ⟨vs, passed⟩ := p
  dsimp -zeta only at hpassed ⊢
  extract_lets _ x cfg decoded
  have hdecoded : decoded.face = passed.face := (Dev.face_foldl (fun e v => Dev.face_foldl (fun f c => by
    dsimp only
    rw [Dev.face_modDecode]
    split
    · exact Dev.face_putCodeword _ _ _ _ _
    · rfl) _ e) _ _).trans (Dev.face_addDecode _ _)
  clear_value decoded
  rw [Dev.face_modDecode, hdecoded, hpassed]

@[simp] theorem Dev.face_mergeInto (d : Dev) (y : Decode) (tracks : List (List Nat)) (bad : List Nat) (copy : Nat) :
    (d.mergeInto y tracks bad copy).face = d.face := by
  unfold Dev.mergeInto
  extract_lets old mineCopy from_ good left put ok judged new merged
  have hput : put.face = d.face := Dev.face_putTracks _ _ _
  clear_value put
  have hjudged : judged.face = d.face := Dev.face_ite hput (by simp [hput])
  clear_value judged
  rw [Dev.face_modDecode, hjudged]

@[simp] theorem Dev.face_mergeRead (d : Dev) (x y : Decode) : (d.mergeRead x y).face = d.face :=
  (Dev.face_dropDecode _ _).trans (Dev.face_ite (Dev.face_mergeInto _ _ _ _ _) rfl)

end Sys2Proof.Machine
end

section
/-!
SUPPORT. What reading and writing the insole leaves alone (R162, R239 to R243, R247).
-/
namespace Sys2Proof.Machine

variable {d e : Dev}

theorem Dev.face_plc (d : Dev) {p : Plc} (h : p.session = d.plc.session) (hs : p.stopped = d.plc.stopped) :
    ({ d with plc := p } : Dev).face = d.face := by
  simp only [Dev.face, h, hs]
theorem Dev.face_modPlc (d : Dev) {f : Plc → Plc} (h : (f d.plc).session = d.plc.session) (hs : (f d.plc).stopped = d.plc.stopped) :
    (d.modPlc f).face = d.face := Dev.face_plc d h hs
theorem Dev.face_strm (d : Dev) (t : Strm) : ({ d with strm := t } : Dev).face = d.face := by cases d; rfl
theorem Dev.face_cas (d : Dev) (t : Cas) : ({ d with cas := t } : Dev).face = d.face := by cases d; rfl
theorem Dev.face_fresh (d : Dev) : d.fresh.2.face = d.face := by cases d; rfl

/-! ## The insole's data sets are read -/

@[simp] theorem Dev.face_insoleAgain (d : Dev) (h g : Nat) (reads : List TrackSignal) : (d.insoleAgain h g reads).face = d.face := by
  unfold Dev.insoleAgain
  split
  · rfl
  next y _ =>
  refine Dev.face_ite rfl ?_
  have halloc := d.face_allocate 3 ownVerify ownVerify
  generalize d.allocate 3 ownVerify ownVerify = p at *
  obtain ⟨k, f⟩ := p
  cases k with
  | none => exact halloc
  | some k =>
    dsimp -zeta only at halloc ⊢
    extract_lets again
    have hagain : again.face = d.face := (Dev.face_readAgain _ _ _ _ _ _).trans halloc
    clear_value again
    split
    · exact hagain
    next x _ =>
      extract_lets run merged
      have hrun : run.face = d.face := (Dev.face_runC2 _ _ _).trans hagain
      clear_value run
      have hmerged : merged.face = d.face := by
        unfold merged
        split
        · exact (Dev.face_mergeRead _ _ _).trans hrun
        · exact hrun
      clear_value merged
      exact Dev.face_ite ((Dev.face_classify _ _ _).trans hmerged) hmerged

/-- `decodeIn` stands for an opaque function here: the kernel would evaluate the whole decoding for what it finds. -/
@[simp] theorem Dev.face_readPart (d : Dev) (f : InsoleFound) : (d.readPart f).2.face = d.face := by
  obtain ⟨decodeIn, hd⟩ : ∃ f, Dev.decodeIn = f := ⟨_, rfl⟩
  unfold Dev.readPart
  rw [hd]
  split
  · rfl
  next first more _ =>
  have halloc := d.face_allocate 3 ownVerify ownVerify
  split
  next g hg => rwa [hg] at halloc
  next h g hg =>
    rw [hg] at halloc
    extract_lets lane _ laned
    have hlaned : laned.face = d.face := (Dev.face_tce _ _).trans halloc
    clear_value laned
    have hpassed := (laned.face_slotPassed f.slot false first).trans hlaned
    split
    next vs passed hp =>
    rw [hp] at hpassed
    extract_lets x decoded run judged n again reread _ back
    clear_value x
    have hdecoded : decoded.face = d.face := (Dev.face_c1All _ _).trans ((Dev.face_addDecode _ _).trans hpassed)
    clear_value decoded
    have hrun : run.face = d.face := by
      unfold run
      split
      · exact (Dev.face_runC2 _ _ _).trans hdecoded
      · exact hdecoded
    clear_value run
    have hjudged : judged.face = d.face := by
      unfold judged
      split
      · exact hrun
      · exact Dev.face_ite ((Dev.face_classify _ _ _).trans hrun) (by rw [Dev.face_insoleSteps, Dev.face_bump, hrun])
    clear_value judged
    have hreread : reread.face = d.face := (Dev.face_foldl (fun e r => Dev.face_insoleAgain e h f.slot r) _ _).trans hjudged
    clear_value reread
    have hback : back.face = d.face := (Dev.face_tce _ _).trans hreread
    clear_value back
    split
    · exact hback
    next y _ =>
      have hclassed : (if y.klass.isNone then back.classify y 5 else back).face = d.face :=
        Dev.face_ite ((Dev.face_classify _ _ _).trans hback) hback
      exact (Dev.face_dropDecode _ _).trans hclassed

@[simp] theorem Dev.face_readZone (d : Dev) (fs : List InsoleFound) : (d.readZone fs).2.face = d.face := by
  refine List.foldlRecOn (motive := fun s : List (Nat × Nat × List Byte) × Dev => s.2.face = d.face) fs _ rfl fun s hs f _ => ?_
  have hread := s.2.face_readPart f
  generalize s.2.readPart f = p at *
  obtain ⟨b, g⟩ := p
  cases b <;> exact hread.trans hs

/-! ## The recovery scan -/

@[simp] theorem Dev.face_mergeEntries (d : Dev) (es : Entries) : (d.mergeEntries es).face = d.face := Dev.face_modPlc d rfl rfl

@[simp] theorem Dev.face_endOfScan (d : Dev) (gen : Nat) (sets : List ScanSet) (runs : List (List ScanSet)) :
    (d.endOfScan gen sets runs).face = d.face := by
  unfold Dev.endOfScan
  extract_lets
  exact (Dev.face_modPlc _ rfl rfl).trans ((Dev.face_mergeEntries _ _).trans (Dev.face_fresh d))

@[simp] theorem Dev.face_scan (d : Dev) (env : LoadEnv) : (d.scan env).face = d.face := by
  unfold Dev.scan
  extract_lets ix gen sess first runs found segs merged counted
  have hmerged : merged.face = d.face :=
    Dev.face_foldl (fun _ _ => (Dev.face_modPlc _ rfl rfl).trans (Dev.face_mergeEntries _ _)) _ _
  clear_value merged
  have hcounted : counted.face = d.face := (Dev.face_bump _ _).trans hmerged
  clear_value counted
  exact Dev.face_ite hcounted ((Dev.face_endOfScan _ _ _ _).trans hcounted)

end Sys2Proof.Machine
end

section
/-!
SUPPORT. A cartridge that is gone is forgotten (R320).
-/
namespace Sys2Proof.Machine

variable {d e : Dev}

/-- What giving up reads, clicks and buffers touches. -/
def Dev.givesUp (d e : Dev) : Prop :=
  e = { d with regs := e.regs, pools := e.pools, strm := e.strm, plc := e.plc, ecc := e.ecc }
    ∧ ∀ x, x ≠ F.rchRetainPinValid.addr → e.word x = d.word x

theorem Dev.givesUp_refl (d : Dev) : d.givesUp d := ⟨rfl, fun _ _ => rfl⟩

theorem Dev.givesUp_trans {f : Dev} (h : d.givesUp e) (k : e.givesUp f) : d.givesUp f :=
  ⟨by rw [k.1, h.1], fun x hx => (k.2 x hx).trans (h.2 x hx)⟩

theorem Dev.givesUp_foldl {α : Type} {f : Dev → α → Dev} (h : ∀ d x, Dev.givesUp d (f d x)) (l : List α) (d : Dev) : d.givesUp (l.foldl f d) :=
  List.foldlRecOn (motive := fun e : Dev => d.givesUp e) l f d.givesUp_refl fun e he x _ => Dev.givesUp_trans he (h e x)

theorem Dev.givesUp_pools (d : Dev) (ps : List Pool) : d.givesUp { d with pools := ps } := ⟨rfl, fun _ _ => rfl⟩
theorem Dev.givesUp_strm (d : Dev) (t : Strm) : d.givesUp { d with strm := t } := ⟨rfl, fun _ _ => rfl⟩
theorem Dev.givesUp_ecc (d : Dev) (t : Ecc) : d.givesUp { d with ecc := t } := ⟨rfl, fun _ _ => rfl⟩
theorem Dev.givesUp_plc (d : Dev) (t : Plc) : d.givesUp { d with plc := t } := ⟨rfl, fun _ _ => rfl⟩

theorem Dev.givesUp_release (d : Dev) (h o : Nat) : d.givesUp (d.release h o) := by
  rw [Dev.release_pools]
  exact d.givesUp_pools _

theorem Dev.givesUp_releaseAll (d : Dev) (hs : List Nat) (o : Nat) : d.givesUp (d.releaseAll hs o) := by
  rw [Dev.releaseAll_pools]
  exact d.givesUp_pools _

theorem Dev.givesUp_dropRead (d : Dev) (h : Nat) : d.givesUp (d.dropRead h) := Dev.givesUp_strm d _

theorem Dev.givesUp_dropDecode (d : Dev) (x : Decode) : d.givesUp (d.dropDecode x) :=
  Dev.givesUp_trans (d.givesUp_ecc _) (Dev.givesUp_release _ _ _)

theorem Dev.givesUp_unpin (d : Dev) : d.givesUp d.unpin := ⟨rfl, fun _ hx => Dev.word_set_other _ F.rchRetainPinValid 0 hx⟩

theorem Dev.givesUp_freeDset (d : Dev) (x : DSet) : d.givesUp (d.freeDset x) := by
  unfold Dev.freeDset
  split
  · exact d.givesUp_refl
  · exact Dev.givesUp_trans (Dev.givesUp_foldl (fun e o => e.givesUp_release x.handle o) _ d) (Dev.givesUp_plc _ _)

theorem Dev.givesUp_dropReads (d : Dev) : d.givesUp d.dropReads := by
  unfold Dev.dropReads
  extract_lets freed unread undecoded
  have hfreed : d.givesUp freed := d.givesUp_releaseAll _ _
  clear_value freed
  have hunread : d.givesUp unread := Dev.givesUp_trans hfreed (Dev.givesUp_foldl Dev.givesUp_dropRead _ _)
  clear_value unread
  have hundecoded : d.givesUp undecoded := Dev.givesUp_trans hunread (Dev.givesUp_foldl Dev.givesUp_dropDecode _ _)
  clear_value undecoded
  split
  · exact Dev.givesUp_trans hundecoded undecoded.givesUp_unpin
  · exact hundecoded

theorem Dev.givesUp_dropClicks (d : Dev) : d.givesUp d.dropClicks ∧ d.dropClicks.strm.ctxs = [] ∧ d.dropClicks.strm.clicks = [] := by
  unfold Dev.dropClicks
  extract_lets hs freed unstaged parted
  have hfreed : d.givesUp freed := d.givesUp_releaseAll _ _
  clear_value freed
  have hunstaged : d.givesUp unstaged := Dev.givesUp_trans hfreed (Dev.givesUp_trans (freed.givesUp_releaseAll _ _) (Dev.givesUp_releaseAll _ _ _))
  clear_value unstaged
  have hparted : d.givesUp parted := Dev.givesUp_trans hunstaged <| Dev.givesUp_trans (Dev.givesUp_foldl Dev.givesUp_freeDset _ _) <|
    Dev.givesUp_trans (Dev.givesUp_releaseAll _ _ _) (Dev.givesUp_trans (Dev.givesUp_releaseAll _ _ _) (Dev.givesUp_plc _ _))
  clear_value parted
  exact ⟨Dev.givesUp_trans hparted (parted.givesUp_strm _), rfl, rfl⟩

theorem Dev.givesUp_with (h : d.givesUp e) (cart : Cart) (plc : Plc) (cas : Cas) (ecc : Ecc) (w : Int) (os : List Int) :
    ({ e with cart := cart, plc := plc, cas := cas, ecc := ecc, tce := { e.tce with weltTrim := w, latOuts := os } } : Dev)
      = { d with regs := e.regs, pools := e.pools, strm := e.strm, plc := plc, ecc := ecc, cart := cart, cas := cas
                 tce := { d.tce with weltTrim := w, latOuts := os } } := by
  rw [h.1]

/-- Nothing of a cartridge is left. -/
structure Dev.forgotten (d e : Dev) : Prop where
  rest : e = { d with
    regs := e.regs, pools := e.pools, strm := e.strm, plc := e.plc, ecc := e.ecc, cart := e.cart, cas := e.cas
    tce := { d.tce with weltTrim := e.tce.weltTrim, latOuts := e.tce.latOuts } }
  word : ∀ x, x ≠ F.rchRetainPinValid.addr → e.word x = d.word x
  cart : e.cart = Cart.reset
  ctxs : e.strm.ctxs = []
  clicks : e.strm.clicks = []
  session : e.plc.session = none
  streams : e.plc.streams = []

theorem Dev.forgotten_forgetCartridge (d : Dev) : d.forgotten d.forgetCartridge := by
  unfold Dev.forgetCartridge
  extract_lets dropped freed
  obtain ⟨hclicks, hctxs, hnone⟩ := d.dropReads.givesUp_dropClicks
  have hdropped : d.givesUp dropped ∧ dropped.strm.ctxs = [] ∧ dropped.strm.clicks = [] := ⟨Dev.givesUp_trans d.givesUp_dropReads hclicks, hctxs, hnone⟩
  clear_value dropped
  have hfreed : d.givesUp freed ∧ freed.strm = dropped.strm := by
    refine ⟨Dev.givesUp_trans hdropped.1 (Dev.givesUp_releaseAll _ _ _), ?_⟩
    unfold freed
    rw [Dev.releaseAll_pools]
  clear_value freed
  obtain ⟨⟨hrest, hword⟩, hstrm⟩ := hfreed
  exact {
    rest := Dev.givesUp_with ⟨hrest, hword⟩ _ _ _ _ _ _
    word := hword
    cart := rfl
    ctxs := (congrArg Strm.ctxs hstrm).trans hdropped.2.1
    clicks := (congrArg Strm.clicks hstrm).trans hdropped.2.2
    session := rfl
    streams := rfl }

/-- Streams close in the record of streams alone (R320). -/
theorem Dev.closeStreams_eq (d : Dev) : ∃ streams changed, d.closeStreams = { d with plc := { d.plc with streams := streams, changed := changed } } := by
  refine List.foldlRecOn (motive := fun e : Dev => ∃ streams changed, e = { d with plc := { d.plc with streams := streams, changed := changed } })
    _ _ ⟨_, _, rfl⟩ fun e he x _ => ?_
  obtain ⟨streams, changed, rfl⟩ := he
  exact ⟨_, _, rfl⟩

end Sys2Proof.Machine
end

section
/-!
SUPPORT. A zone commit, and appending that stops, without a session: what they leave of the face (R239, R325).
-/
namespace Sys2Proof.Machine

variable {d e : Dev}

@[simp] theorem Dev.face_encodeC2 (d : Dev) (h : Nat) : (d.encodeC2 h).face = d.face := Dev.face_putDdr _ _ _

@[simp] theorem Dev.face_writeInsole (d : Dev) (x : DSet) (k : Copy) (copy : Nat) : (d.writeInsole x k copy).face = d.face := by
  unfold Dev.writeInsole
  extract_lets h content tracks at_
  simp only [Dev.face_emit]

@[simp] theorem Dev.face_noteDecision (d : Dev) (k : Copy) (reason : Nat) (m : Nat × Nat) : (d.noteDecision k reason m).face = d.face := by
  unfold Dev.noteDecision
  extract_lets shown counted
  have hcounted : counted.face = d.face := by simp only [counted, shown, Dev.face_bump, Dev.face_set]
  clear_value counted
  exact Dev.face_ite hcounted ((Dev.face_bump _ _).trans hcounted)

@[simp] theorem Dev.face_judgeWhole (d : Dev) (k : Copy) : (d.judgeWhole k).2.face = d.face := by
  unfold Dev.judgeWhole
  extract_lets e cs reason
  exact (Dev.face_noteDecision _ _ _ _).trans (Dev.face_bumpBy _ _ _)

/-- An insole data set's bad tracks declare no track dead (R174). -/
theorem Dev.face_judged {x : DSet} (htyp : x.typ = 4) (d : Dev) (y : Decode) (k : Copy) : (d.judged y x k).2.face = d.face := by
  have hruns : ∀ f : Dev, f.trackRuns x k y = f := fun f => by
    rw [Dev.trackRuns, if_pos (by simp [htyp])]
  unfold Dev.judged
  extract_lets cs reason m weak bad noted counted failed dropped
  have hnoted : noted.face = d.face := Dev.face_noteDecision _ _ _ _
  clear_value noted
  have hcounted : counted.face = d.face := Dev.face_ite hnoted (by rw [Dev.face_bumpBy, Dev.face_bumpBy, hnoted])
  clear_value counted
  have hfailed : failed.face = d.face := Dev.face_ite ((Dev.face_bump _ _).trans hcounted) hcounted
  clear_value failed
  have hdropped : dropped.face = d.face := (Dev.face_dropDecode _ _).trans hfailed
  clear_value dropped
  exact Dev.face_ite hdropped ((congrArg Dev.face (hruns dropped)).trans hdropped)

/-- `c1All` stands for an opaque function here: the kernel would evaluate the whole decoding for what is found in it. -/
theorem Dev.face_judgeInsole {x : DSet} (htyp : x.typ = 4) (d : Dev) (k : Copy) (r : ReadBack) : (d.judgeInsole x k r).2.face = d.face := by
  obtain ⟨c1All, hc⟩ : ∃ f, Dev.c1All = f := ⟨_, rfl⟩
  obtain ⟨runC2, hr⟩ : ∃ f, Dev.runC2 = f := ⟨_, rfl⟩
  have hall := @Dev.face_c1All
  have hrun := @Dev.face_runC2
  rw [hc] at hall
  rw [hr] at hrun
  unfold Dev.judgeInsole
  rw [hc, hr]
  split
  · exact Dev.face_judgeWhole _ _
  next reads =>
  have halloc := d.face_allocate 3 ownVerify ownVerify
  split
  next g hg =>
    rw [hg] at halloc
    exact (Dev.face_noteDecision _ _ _ _).trans halloc
  next h g hg =>
    rw [hg] at halloc
    extract_lets lane
    have hpassed := (Dev.face_slotPassed { g with tce := { g.tce with lane := insoleLane } } k.slot false reads).trans ((Dev.face_tce _ _).trans halloc)
    split
    next vs passed hp =>
    rw [hp] at hpassed
    extract_lets y _ added decoded
    have hadded : added.face = d.face := (Dev.face_addDecode _ _).trans ((Dev.face_tce _ _).trans hpassed)
    clear_value added
    have hdecoded : decoded.face = d.face := (hall _ _).trans hadded
    clear_value decoded
    split
    · exact hdecoded
    next z _ =>
      extract_lets again
      have hagain : again.face = d.face := (hrun _ _ _).trans hdecoded
      clear_value again
      split
      · exact hagain
      · exact (Dev.face_judged htyp _ _ _).trans hagain

theorem Dev.face_putPart {x : DSet} (htyp : x.typ = 4) (checkpoint : List (List Byte)) :
    ∀ (n : Nat) (d : Dev) (r : CopyRun), (d.putPart x checkpoint n r).2.face = d.face
  | 0, _, _ => rfl
  | n + 1, d, r => by
    unfold Dev.putPart
    split
    · rfl
    · extract_lets k r'
      have hjudge := (Dev.face_judgeInsole htyp (d.writeInsole x k r.copy) k (r.reads.head?.join)).trans (Dev.face_writeInsole _ _ _ _)
      generalize (d.writeInsole x k r.copy).judgeInsole x k (r.reads.head?.join) = p at *
      obtain ⟨ok, g⟩ := p
      dsimp -zeta only at hjudge ⊢
      cases ok
      · exact (Dev.face_putPart htyp checkpoint n _ _).trans hjudge
      · exact hjudge

theorem Dev.face_putParts (commit : Word) (genCeil : Nat) (checkpoint : List (List Byte)) :
    ∀ (n : Nat) (d : Dev) (a b : CopyRun), (d.putParts commit genCeil checkpoint n a b).2.2.face = d.face
  | 0, _, _, _ => rfl
  | n + 1, d, a, b => by
    unfold Dev.putParts
    split
    · rfl
    next p _ =>
    have halloc := d.face_allocate 1 ownLast ownWrite
    split
    next g hg => rwa [hg] at halloc
    next h g hg =>
      rw [hg] at halloc
      extract_lets coded one
      have hcoded : coded.face = d.face := (Dev.face_encodeC2 _ _).trans ((Dev.face_putDdr _ _ _).trans halloc)
      clear_value coded
      have hone : ∀ f r, (one f r).2.face = f.face := fun f r => by
        unfold one
        split
        · exact Dev.face_putPart rfl _ _ _ _
        · rfl
      clear_value one
      have ha := (hone coded a).trans hcoded
      generalize one coded a = q at *
      obtain ⟨a', f⟩ := q
      have hb := (hone f b).trans ha
      dsimp -zeta only
      generalize one f b = q at *
      obtain ⟨b', f'⟩ := q
      exact (Dev.face_putParts commit genCeil checkpoint n _ _ _).trans ((Dev.face_release _ _ _).trans hb)

@[simp] theorem Dev.face_joining (d : Dev) (extra : List (List Byte)) : (d.joining extra).face = d.face := by
  unfold Dev.joining
  exact Dev.face_ite (Dev.face_cas _ _) rfl

theorem Dev.face_giveGeneration (d : Dev) (h : d.plc.session = none) : d.giveGeneration.face = d.face := by rw [Dev.giveGeneration, h]

theorem Dev.face_modDset (d : Dev) (id : Nat) (f : DSet → DSet) : (d.modDset id f).face = d.face := Dev.face_plc d rfl rfl

theorem Dev.face_freeDset (d : Dev) (x : DSet) : (d.freeDset x).face = d.face := by
  unfold Dev.freeDset
  split
  · rfl
  · extract_lets freed
    have hfreed : freed.face = d.face := Dev.face_foldl (fun e o => Dev.face_release e x.handle o) _ _
    clear_value freed
    exact (Dev.face_modDset _ _ _).trans hfreed

theorem Dev.face_noteStream (d : Dev) (y : StreamEntry) : (d.noteStream y).face = d.face := Dev.face_plc d rfl rfl

/-! ## Appending stops without a session -/

/-- The face with no FLUSH waiting. -/
def Face.unwaited (f : Face) : Face := { f with waits := [] }

/-- The commands that fail when appending stops (R325). -/
def Dev.failsStopped (d : Dev) : List Nat :=
  d.cqm.waits.map Wait.h ++ (d.cqm.cmds.filter fun c => c.opcode == opUnload && c.phase == .started).map Cmd.h

theorem Dev.cmds_of_face (h : e.face = d.face) : e.cqm.cmds = d.cqm.cmds := congrArg Face.cmds h
theorem Dev.waits_of_face (h : e.face = d.face) : e.cqm.waits = d.cqm.waits := congrArg Face.waits h

theorem Dev.word_notice (d : Dev) (code : Nat) (es : List (List Byte)) (x : Nat) : (d.notice code es).word x = d.word x := by
  obtain ⟨hpt, h⟩ := d.notice_eq code es
  rw [h]
  rfl

theorem Dev.word_log_other (d : Dev) (y : LogEntry) {x : Nat} (hx : x ≠ C.cqmLogLost) : (d.log y).word x = d.word x :=
  (d.logOnly_log y).2 x hx

/-- Where appending has stopped, either nothing is to be told any more, or waiting FLUSH and UNLOAD commands fail and nothing else of the
face changes. -/
theorem Dev.judgeStop_eq (d : Dev) : d.judgeStop = d ∨ ∃ (e : Dev) (st : Nat) (det : List Byte),
    e.face = d.face.unwaited ∧ (∀ x, x ≠ F.rchRetainPinValid.addr → x ≠ C.cqmLogLost → e.word x = d.word x)
      ∧ d.judgeStop = d.failsStopped.foldl (fun d h => d.finish h st det) e := by
  unfold Dev.judgeStop
  split
  · exact .inl rfl
  next code hcode =>
  split
  · exact .inl rfl
  refine .inr ?_
  extract_lets streams lost entries noted back hs freed idle _ cleared unstaged sets unset judged told fail_ _ unwaited
  have hnoted : noted.face = d.face ∧ d.givesUp noted :=
    ⟨Dev.face_foldl (fun e x => Dev.face_noteStream e _) _ _, Dev.givesUp_foldl (fun e x => e.givesUp_plc _) _ _⟩
  clear_value noted
  have hcleared : cleared.face = d.face ∧ d.givesUp cleared :=
    ⟨(Dev.face_strm _ _).trans ((Dev.face_releaseAll _ _ _).trans hnoted.1),
      Dev.givesUp_trans hnoted.2 (Dev.givesUp_trans (noted.givesUp_releaseAll _ _) (Dev.givesUp_strm _ _))⟩
  clear_value cleared
  have hunset : unset.face = d.face ∧ d.givesUp unset :=
    ⟨(Dev.face_foldl Dev.face_freeDset _ _).trans ((Dev.face_releaseAll _ _ _).trans hcleared.1),
      Dev.givesUp_trans hcleared.2 (Dev.givesUp_trans (cleared.givesUp_releaseAll _ _) (Dev.givesUp_foldl Dev.givesUp_freeDset _ _))⟩
  clear_value unset
  have hjudged : judged.face = d.face ∧ d.givesUp judged :=
    ⟨(Dev.face_modPlc _ rfl rfl).trans hunset.1, Dev.givesUp_trans hunset.2 (unset.givesUp_plc _)⟩
  clear_value judged
  have htold : told.face = d.face ∧ ∀ x, x ≠ F.rchRetainPinValid.addr → x ≠ C.cqmLogLost → told.word x = d.word x := by
    unfold told
    split
    · exact ⟨hjudged.1, fun x hx _ => hjudged.2.2 x hx⟩
    · refine ⟨by rw [Dev.face_notice, Dev.face_log, hjudged.1], fun x hx hlog => ?_⟩
      rw [Dev.word_notice, Dev.word_log_other _ _ hlog, hjudged.2.2 x hx]
  clear_value told
  have hfail : fail_ = d.failsStopped := by
    unfold fail_ Dev.failsStopped
    rw [Dev.waits_of_face htold.1, Dev.cmds_of_face htold.1]
  clear_value fail_
  refine ⟨unwaited, (stopStatus code).1, (stopStatus code).2, ?_, htold.2, by rw [hfail]⟩
  rw [← htold.1]
  rfl

/-- With no FLUSH waiting and no UNLOAD begun, none fails. -/
theorem Dev.face_judgeStop (d : Dev) (hwaits : d.cqm.waits = []) (hcmds : ∀ c ∈ d.cqm.cmds, c.opcode ≠ opUnload) : d.judgeStop.face = d.face := by
  obtain h | ⟨e, st, det, he, -, h⟩ := d.judgeStop_eq
  · rw [h]
  · have hnone : d.failsStopped = [] := by
      rw [Dev.failsStopped, hwaits, List.map_nil, List.nil_append, List.map_eq_nil_iff, List.filter_eq_nil_iff]
      exact fun c hc => by simp [hcmds c hc]
    rw [h, hnone]
    refine he.trans ?_
    rw [Face.unwaited, Dev.face, hwaits]

/-- The face but for whether appending has stopped. -/
def Face.appending (f : Face) : Face := { f with stopped := none }

theorem Dev.face_cancelStarts (d : Dev) (h : d.plc.session = none) : d.cancelStarts.face = d.face ∧ d.cancelStarts.plc = d.plc := by
  rw [Dev.cancelStarts, h]
  exact ⟨rfl, rfl⟩

/-- Where there is no session, none changes. -/
theorem Dev.modSession_none (h : d.plc.session = none) (f : Session → Session) :
    (d.modSession f).face = d.face ∧ (d.modSession f).plc.stopped = d.plc.stopped ∧ (d.modSession f).plc.session = none := by
  have hnone : d.plc.session.map f = none := by rw [h]; rfl
  exact ⟨Dev.face_modPlc d (hnone.trans h.symm) rfl, rfl, hnone⟩

/-- Without a session, appending that stops at once leaves but the telling. -/
theorem Dev.stopNow_eq (h : d.plc.session = none) (code : Nat) :
    ∃ g : Dev, g.face.appending = d.face.appending ∧ g.plc.stopped.isSome = true ∧ d.stopNow code = g.judgeStop := by
  unfold Dev.stopNow
  extract_lets stopped ended
  have hstopped : stopped.face.appending = d.face.appending ∧ stopped.plc.stopped.isSome = true ∧ stopped.plc.session = none := by
    unfold stopped
    split
    next hs => exact ⟨rfl, hs, h⟩
    next => exact ⟨rfl, rfl, h⟩
  clear_value stopped
  obtain ⟨hface, hsome, hses⟩ := hstopped
  obtain ⟨hcface, hcplc⟩ := stopped.face_cancelStarts hses
  have hended : ended.face = stopped.face ∧ ended.plc.stopped = stopped.plc.stopped ∧ ended.plc.session = none := by
    obtain ⟨mface, mstopped, mses⟩ := Dev.modSession_none (by rw [hcplc, hses]) fun s => { s with ending := false }
    exact ⟨mface.trans hcface, mstopped.trans (congrArg Plc.stopped hcplc), mses⟩
  clear_value ended
  have hclose : ended.closeSession none = ended := by rw [Dev.closeSession, hended.2.2]
  refine ⟨ended, by rw [hended.1, hface], by rw [hended.2.1, hsome], ?_⟩
  rw [hclose, ite_self]

/-- A zone commit without a session changes nothing of the face, or stops appending at once (R239). -/
theorem Dev.zoneCommit_eq (h : d.plc.session = none) (extra : List (List Byte)) (reserve : Bool) (env : ZoneEnv) :
    ∃ f : Dev, f.face = d.face ∧ (d.zoneCommit extra reserve env = f ∨ d.zoneCommit extra reserve env = f.stopNow 0x0318) := by
  unfold Dev.zoneCommit
  extract_lets ix n ceil merged head delta checkpoint a b
  have hput := Dev.face_putParts n ceil checkpoint (2 * (delta.length + 2 * checkpoint.length)) d a b
  generalize d.putParts n ceil checkpoint (2 * (delta.length + 2 * checkpoint.length)) a b = p at *
  obtain ⟨a', b', g⟩ := p
  dsimp -zeta only at hput ⊢
  extract_lets noted counted given failed
  have hnoted : noted.face = d.face := (Dev.face_modPlc _ rfl rfl).trans hput
  clear_value noted
  split
  · have hcounted : counted.face = d.face := by
      unfold counted
      rw [Dev.face_bump, Dev.face_set, Dev.face_modPlc _ rfl rfl, hnoted]
    have hses : counted.plc.session = none := (congrArg Face.session hcounted).trans h
    clear_value counted
    have hgiven : given.face = d.face :=
      Dev.face_ite (Eq.trans (Dev.face_giveGeneration (counted.modPlc fun p => { p with nextGen := ix.genCeil + 1 }) hses)
        ((Dev.face_modPlc _ rfl rfl).trans hcounted)) hcounted
    clear_value given
    exact ⟨_, (Dev.face_joining _ _).trans hgiven, .inl rfl⟩
  · have hfailed : failed.face = d.face := (Dev.face_modPlc _ rfl rfl).trans hnoted
    clear_value failed
    exact ⟨_, (Dev.face_event _ _).trans hfailed, .inr rfl⟩

end Sys2Proof.Machine
end

section
/-!
SUPPORT. What the completion of a command with any status leaves alone (R300, R303, R322), and the end of a lone command.
-/
namespace Sys2Proof.Machine

variable {d e : Dev}

/-! ## What completion leaves alone -/

/-- What no completion touches: the device's state, streams, tape and transport, and the state of every connection. -/
structure Still where
  glb : Glb
  strm : Strm
  plc : Plc
  cart : Cart
  pos : Pos
  tce : Tce
  conns : List CState

def Dev.still (d : Dev) : Still := ⟨d.glb, d.strm, d.plc, d.cart, d.pos, d.tce, d.hpt.conns.map Conn.st⟩

theorem Dev.calm_of_still (h : e.still = d.still) : e.calm = d.calm := Dev.calm_of_states (congrArg Still.glb h) (congrArg Still.conns h)

theorem Dev.still_regs (d : Dev) (r : List (Nat × Word)) : ({ d with regs := r } : Dev).still = d.still := by cases d; rfl
theorem Dev.still_pools (d : Dev) (ps : List Pool) : ({ d with pools := ps } : Dev).still = d.still := by cases d; rfl
theorem Dev.still_cqm (d : Dev) (q : Cqm) : ({ d with cqm := q } : Dev).still = d.still := by cases d; rfl
theorem Dev.still_nextMsg (d : Dev) (n : Nat) : ({ d with hpt := { d.hpt with nextMsg := n } } : Dev).still = d.still := by cases d; rfl
theorem Dev.still_bump (d : Dev) (a : Nat) : (d.bump a).still = d.still := Dev.still_regs d _
theorem Dev.still_modCmd (d : Dev) (h : Nat) (f : Cmd → Cmd) : (d.modCmd h f).still = d.still := Dev.still_cqm d _
theorem Dev.still_mapCmds (d : Dev) (f : Cmd → Cmd) : (d.mapCmds f).still = d.still := Dev.still_cqm d _
theorem Dev.still_dropCmds (d : Dev) (p : Cmd → Bool) : (d.dropCmds p).still = d.still := Dev.still_cqm d _
theorem Dev.still_modQueue (d : Dev) (q : Nat) (f : Queue → Queue) : (d.modQueue q f).still = d.still := Dev.still_cqm d _

theorem Dev.still_releaseAll (d : Dev) (hs : List Nat) (o : Nat) : (d.releaseAll hs o).still = d.still := by
  rw [Dev.releaseAll_pools, Dev.still_pools]

theorem Dev.still_log (d : Dev) (y : LogEntry) : (d.log y).still = d.still := by
  rw [(d.logOnly_log y).1]
  rfl

theorem Dev.still_ite {p : Prop} [Decidable p] {a b : Dev} (ha : a.still = d.still) (hb : b.still = d.still) : (if p then a else b).still = d.still := by
  split
  · exact ha
  · exact hb

theorem Dev.still_sendMsg (d : Dev) (c typ cls : Nat) (p : Payload) (len : Nat) (st : Option Nat) (bufs : List Nat) :
    (d.sendMsg c typ cls p len st bufs).still = d.still :=
  congrArg (fun l => (⟨d.glb, d.strm, d.plc, d.cart, d.pos, d.tce, l⟩ : Still)) (d.tells_sendMsg c typ cls p len st bufs).2

theorem Dev.still_freeze (d : Dev) (c : Cmd) : (d.freeze c).still = d.still := by
  unfold Dev.freeze
  refine Dev.still_ite rfl ?_
  extract_lets frozen held y
  have hheld : held.still = d.still := (Dev.still_mapCmds _ _).trans (Dev.still_modQueue _ _ _)
  clear_value held
  exact (Dev.still_bump _ _).trans (Dev.still_ite ((Dev.still_cqm _ _).trans hheld) ((Dev.still_log _ _).trans hheld))

theorem Dev.still_sendFor (d : Dev) (c : Cmd) (typ : Nat) (p : Payload) (len : Nat) (status : Option Nat) (bufs : List Nat) :
    (d.sendFor c typ p len status bufs).still = d.still := by
  unfold Dev.sendFor
  split
  · exact Dev.still_ite (Dev.still_log _ _) (Dev.still_releaseAll _ _ _)
  · split
    · exact Dev.still_sendMsg _ _ _ _ _ _ _ _
    · exact (Dev.still_nextMsg _ _).trans (Dev.still_modQueue _ _ _)

theorem Dev.still_completeNow (d : Dev) (c : Cmd) (status : Nat) (detail : List Byte) (already : Bool) (retry : Nat) :
    (d.completeNow c status detail already retry).still = d.still := by
  unfold Dev.completeNow
  extract_lets err refusal froze logged seq told bs freed _ charged busy done sent
  have hlogged : logged.still = d.still := Dev.still_ite (Dev.still_log _ _) rfl
  clear_value logged
  have htold : told.still = d.still := Dev.still_ite ((Dev.still_freeze _ _).trans hlogged) hlogged
  clear_value told
  have hfreed : freed.still = d.still := (Dev.still_releaseAll _ _ _).trans htold
  clear_value freed
  have hcharged : charged.still = d.still := Dev.still_ite ((Dev.still_cqm _ _).trans hfreed) hfreed
  clear_value charged
  have hbusy : busy.still = d.still := Dev.still_ite ((Dev.still_bump _ _).trans hcharged) hcharged
  clear_value busy
  have hsent : sent.still = d.still := (Dev.still_sendFor _ _ _ _ _ _ _).trans ((Dev.still_modCmd _ _ _).trans hbusy)
  clear_value sent
  exact Dev.still_ite hsent ((Dev.still_dropCmds _ _).trans hsent)

theorem Dev.still_settle (n : Nat) : ∀ d : Dev, (d.settle n).still = d.still := by
  induction n with
  | zero => exact fun _ => rfl
  | succ n ih =>
    intro d
    unfold Dev.settle
    split
    · rfl
    · split
      · exact (ih _).trans (Dev.still_completeNow _ _ _ _ _ _)
      · rfl

theorem Dev.still_finish (d : Dev) (h status : Nat) (detail : List Byte) (already : Bool) : (d.finish h status detail already).still = d.still :=
  (Dev.still_settle _ _).trans (Dev.still_modCmd _ _ _)

/-! ## The roll of commands and queues -/

/-- The commands, and the numbers of the queues. -/
def Dev.roll (d : Dev) : List Cmd × List Nat := (d.cqm.cmds, d.cqm.queues.map Queue.id)

theorem Dev.roll_of_face (h : e.face = d.face) : e.roll = d.roll := by
  have hqueues : e.cqm.queues = d.cqm.queues := congrArg Face.queues h
  rw [Dev.roll, Dev.roll, Dev.cmds_of_face h, hqueues]

theorem Dev.roll_modQueue (d : Dev) (q : Nat) {f : Queue → Queue} (hf : ∀ k, (f k).id = k.id) : (d.modQueue q f).roll = d.roll := by
  refine Prod.ext rfl ?_
  simp only [Dev.roll, Dev.modQueue, List.map_map]
  refine List.map_congr_left fun k _ => ?_
  simp only [Function.comp]
  split
  · exact hf k
  · rfl

theorem Dev.queue?_isSome (d : Dev) (q : Nat) : (d.queue? q).isSome = true ↔ q ∈ d.roll.2 := by
  simp [Dev.queue?, Dev.roll, List.find?_isSome]

theorem Dev.roll_ite {p : Prop} [Decidable p] {a b : Dev} (ha : a.roll = d.roll) (hb : b.roll = d.roll) : (if p then a else b).roll = d.roll := by
  split
  · exact ha
  · exact hb

/-- A freeze holds waiting commands only (R322). -/
theorem Dev.roll_freeze (d : Dev) (c : Cmd) (hwait : ∀ k ∈ d.cqm.cmds, k.waiting = false) : (d.freeze c).roll = d.roll := by
  unfold Dev.freeze
  refine Dev.roll_ite rfl ?_
  extract_lets frozen held y
  have hfrozen : frozen.roll = d.roll ∧ frozen.cqm.cmds = d.cqm.cmds := ⟨d.roll_modQueue _ fun _ => rfl, rfl⟩
  clear_value frozen
  have hmap : (frozen.cqm.cmds.map fun k => if k.queue == c.queue && k.waiting then { k with held := true } else k) = frozen.cqm.cmds := by
    refine (List.map_congr_left fun k hk => ?_).trans (List.map_id _)
    rw [hwait k (hfrozen.2 ▸ hk), Bool.and_false]
    rfl
  have hheld : held.roll = d.roll := (congrArg (·, frozen.cqm.queues.map Queue.id) hmap).trans hfrozen.1
  clear_value held
  exact (Dev.roll_of_face (Dev.face_bump _ _)).trans (Dev.roll_ite hheld ((Dev.roll_of_face (Dev.face_log _ _)).trans hheld))

theorem Dev.roll_sendFor (d : Dev) (c : Cmd) (typ : Nat) (p : Payload) (len : Nat) (status : Option Nat) (bufs : List Nat) :
    (d.sendFor c typ p len status bufs).roll = d.roll := by
  unfold Dev.sendFor
  split
  · exact Dev.roll_ite (Dev.roll_of_face (Dev.face_log _ _)) (Dev.roll_of_face (Dev.face_releaseAll _ _ _))
  next q _ =>
    split
    · exact Dev.roll_of_face (Dev.face_sendMsg _ _ _ _ _ _ _ _)
    · exact d.roll_modQueue q.id (f := fun q => { q with kept := q.kept ++ [⟨d.hpt.nextMsg, typ, c.cls, p, len, status, bufs⟩] }) fun _ => rfl

/-- A command as it stands in its queue once it has completed. -/
def Cmd.told (c : Cmd) : Cmd := { c with phase := .completed, data := [] }

/-- What is left of a lone command once it has completed: it counts on in its queue until its STATUS is acknowledged (R305). -/
def Cmd.left (c : Cmd) : List Cmd := if c.counts then [c.told] else []

/-- The only command completes with whatever status. -/
theorem Dev.roll_completeNow {x : Cmd} {qs : List Nat} (hroll : d.roll = ([x], qs)) (hwait : x.waiting = false) (hq : x.queue ∈ qs)
    (status : Nat) (detail : List Byte) (already : Bool) (retry : Nat) : (d.completeNow x status detail already retry).roll = (x.left, qs) := by
  have hcmds : d.cqm.cmds = [x] := congrArg Prod.fst hroll
  unfold Dev.completeNow
  extract_lets err refusal froze logged seq told bs freed _ charged busy done sent
  have hlogged : logged.roll = d.roll := Dev.roll_ite (Dev.roll_of_face (Dev.face_log _ _)) rfl
  have hlcmds : logged.cqm.cmds = [x] := (congrArg Prod.fst hlogged).trans hcmds
  clear_value logged
  have htold : told.roll = d.roll := Dev.roll_ite ((logged.roll_freeze x fun k hk => by
    rw [hlcmds, List.mem_singleton] at hk
    rw [hk, hwait]).trans hlogged) hlogged
  clear_value told
  have hfreed : freed.roll = d.roll := (Dev.roll_of_face (Dev.face_releaseAll _ _ _)).trans htold
  clear_value freed
  have hcharged : charged.roll = d.roll := Dev.roll_ite hfreed hfreed
  clear_value charged
  have hbusy : busy.roll = ([x], qs) := (Dev.roll_ite ((Dev.roll_of_face (Dev.face_bump _ _)).trans hcharged) hcharged).trans hroll
  clear_value busy
  have hdone : done.roll = ([x.told], qs) := by
    have hbcmds : busy.cqm.cmds = [x] := congrArg Prod.fst hbusy
    have hqs : busy.cqm.queues.map Queue.id = qs := congrArg Prod.snd hbusy
    refine Prod.ext ?_ hqs
    simp [Dev.roll, done, Dev.modCmd, hbcmds, Cmd.told]
  clear_value done
  have hsent : sent.roll = ([x.told], qs) := (Dev.roll_sendFor _ _ _ _ _ _ _).trans hdone
  clear_value sent
  have hsome : (sent.queue? x.queue).isSome = true := (sent.queue?_isSome _).mpr (by rw [hsent]; exact hq)
  have hscmds : sent.cqm.cmds = [x.told] := congrArg Prod.fst hsent
  rw [hsome, Bool.and_true]
  unfold Cmd.left
  split
  · exact hsent
  · have hqs : sent.cqm.queues.map Queue.id = qs := congrArg Prod.snd hsent
    refine Prod.ext ?_ hqs
    simp [Dev.roll, Dev.dropCmds, hscmds, Cmd.told]

/-- Whether a command waits for its turn to complete. -/
def Cmd.ended (c : Cmd) : Bool := match c.phase with | .finished .. => true | _ => false

/-- With no command finished, none completes. -/
theorem Dev.settle_eq (hnone : ∀ c ∈ d.cqm.cmds, c.ended = false) (n : Nat) : d.settle n = d := by
  cases n with
  | zero => rfl
  | succ n =>
    unfold Dev.settle
    split
    · rfl
    next c hfind =>
      have hend := hnone c (List.mem_of_find?_eq_some hfind)
      split
      next st det al hphase =>
        rw [Cmd.ended, hphase] at hend
        cases hend
      next => rfl

/-- A finish that names no command changes none. -/
theorem Dev.roll_finish_other (hnone : ∀ c ∈ d.cqm.cmds, c.ended = false) {h : Nat} (hne : ∀ c ∈ d.cqm.cmds, c.h ≠ h)
    (status : Nat) (detail : List Byte) : (d.finish h status detail).roll = d.roll := by
  have hmap : ∀ f : Cmd → Cmd, (d.modCmd h f).cqm.cmds = d.cqm.cmds := fun f =>
    (List.map_congr_left fun c hc => if_neg (by simpa using hne c hc)).trans (List.map_id _)
  unfold Dev.finish
  extract_lets finished
  have hfcmds : finished.cqm.cmds = d.cqm.cmds := hmap _
  have hfinished : finished.roll = d.roll := congrArg (·, d.cqm.queues.map Queue.id) hfcmds
  clear_value finished
  rw [Dev.settle_eq (by rw [hfcmds]; exact hnone), hfinished]

/-- The only command finishes, and completes. -/
theorem Dev.roll_finish_lone {x : Cmd} {qs : List Nat} (hroll : d.roll = ([x], qs)) (hq : x.queue ∈ qs) (status : Nat) (detail : List Byte) :
    (d.finish x.h status detail).roll = (x.left, qs) := by
  have hcmds : d.cqm.cmds = [x] := congrArg Prod.fst hroll
  unfold Dev.finish
  extract_lets finished
  have hfinished : finished.roll = ([{ x with phase := .finished status detail false }], qs) := by
    have hqs : d.cqm.queues.map Queue.id = qs := congrArg Prod.snd hroll
    refine Prod.ext ?_ hqs
    simp [Dev.roll, finished, Dev.modCmd, hcmds]
  clear_value finished
  have hfcmds : finished.cqm.cmds = [{ x with phase := .finished status detail false }] := congrArg Prod.fst hfinished
  have hmay : finished.mayComplete { x with phase := .finished status detail false } = true := by simp [Dev.mayComplete, hfcmds]
  have hdone := Dev.roll_completeNow hfinished rfl hq status detail false 0
  rw [hfcmds]
  simp only [List.length_cons, List.length_nil]
  unfold Dev.settle
  split
  next hfind =>
    rw [hfcmds] at hfind
    simp [hmay] at hfind
  next c hfind =>
  have hc : c = { x with phase := .finished status detail false } := by
    have hmem := List.mem_of_find?_eq_some hfind
    rwa [hfcmds, List.mem_singleton] at hmem
  subst hc
  dsimp only
  rw [Dev.settle_eq]
  · exact hdone
  · intro c hc
    have hleft : c ∈ Cmd.left x := by
      have hcs : (finished.completeNow { x with phase := .finished status detail false } status detail false 0).cqm.cmds = x.left :=
        congrArg Prod.fst hdone
      rwa [hcs] at hc
    unfold Cmd.left at hleft
    split at hleft
    · rw [List.mem_singleton] at hleft
      rw [hleft]
      rfl
    · simp at hleft

end Sys2Proof.Machine
end

section
/-!
SUPPORT. The tape is unthreaded and the cartridge forgotten (R93, R320, R381, R423).
-/
namespace Sys2Proof.Machine

variable {d e : Dev}

/-! ## The feedback loops close and open -/

/-- What the closed loops show once a loop is opened or closed. -/
def loopStep (on : Bool) (w s : Nat) : Nat := if on then w ||| 2 ^ s else w &&& (255 - 2 ^ s)

theorem loopStep_same : ∀ on : Bool, ∀ w < 256, ∀ s < 8, bitAt w s = on → loopStep on w s = w := by decide +kernel
theorem loopStep_lt : ∀ on : Bool, ∀ w < 256, ∀ s < 8, loopStep on w s < 256 := by decide +kernel
theorem closeOrder_closes : ∀ w < 256, closeOrder.foldl (loopStep true) w = 255 := by decide +kernel
theorem closeOrder_opens : ∀ w < 256, closeOrder.reverse.foldl (loopStep false) w = 0 := by decide +kernel

/-- A change of the loops: their register and their histories. -/
def Dev.loopsOnly (d e : Dev) : Prop :=
  e = { d with regs := e.regs, tce := { d.tce with loops := e.tce.loops } } ∧ ∀ x, x ≠ F.tceLoopCtrlClosed.addr → e.word x = d.word x

theorem Dev.loopsOnly_trans {f : Dev} (h : d.loopsOnly e) (k : e.loopsOnly f) : d.loopsOnly f :=
  ⟨by rw [k.1, h.1], fun x hx => (k.2 x hx).trans (h.2 x hx)⟩

theorem Dev.loopsOnly_modLoop (d : Dev) (s : Nat) (f : Loop → Loop) : d.loopsOnly (d.modLoop s f) := ⟨rfl, fun _ _ => rfl⟩

theorem Dev.setClosed_spec (d : Dev) {s : Nat} (hs : s < 8) (on : Bool) :
    d.loopsOnly (d.setClosed s on) ∧ (d.setClosed s on).get F.tceLoopCtrlClosed = loopStep on (d.get F.tceLoopCtrlClosed) s := by
  have hlt : d.get F.tceLoopCtrlClosed < 256 := d.get_lt _
  unfold Dev.setClosed
  split
  next hsame =>
    have hbit : bitAt (d.get F.tceLoopCtrlClosed) s = on := by simpa [Dev.closed] using hsame
    exact ⟨⟨rfl, fun _ _ => rfl⟩, (loopStep_same on _ hlt s hs hbit).symm⟩
  next =>
    extract_lets w fresh
    have hfresh : d.loopsOnly fresh := by
      unfold fresh
      split
      · exact d.loopsOnly_modLoop _ _
      · exact ⟨rfl, fun _ _ => rfl⟩
    clear_value fresh
    have hval : (fresh.set F.tceLoopCtrlClosed (loopStep on w s)).get F.tceLoopCtrlClosed = loopStep on w s := by
      rw [Dev.get_set_same _ _ _ (by decide)]
      exact Nat.mod_eq_of_lt (loopStep_lt on w hlt s hs)
    have hset : fresh.loopsOnly (fresh.set F.tceLoopCtrlClosed (loopStep on w s)) :=
      ⟨rfl, fun x hx => Dev.word_putWord_other _ _ hx⟩
    exact ⟨Dev.loopsOnly_trans hfresh (Dev.loopsOnly_trans hset (Dev.loopsOnly_modLoop _ _ _)), hval⟩

theorem Dev.foldl_setClosed_spec (on : Bool) (l : List Nat) (hl : ∀ s ∈ l, s < 8) : ∀ d : Dev,
    d.loopsOnly (l.foldl (fun d s => d.setClosed s on) d)
      ∧ (l.foldl (fun d s => d.setClosed s on) d).get F.tceLoopCtrlClosed = l.foldl (loopStep on) (d.get F.tceLoopCtrlClosed) := by
  induction l with
  | nil => exact fun d => ⟨⟨rfl, fun _ _ => rfl⟩, rfl⟩
  | cons s l ih =>
    intro d
    obtain ⟨hone, hget⟩ := d.setClosed_spec (hl s List.mem_cons_self) on
    obtain ⟨hrest, hgets⟩ := ih (fun t ht => hl t (List.mem_cons_of_mem s ht)) (d.setClosed s on)
    exact ⟨Dev.loopsOnly_trans hone hrest, by rw [List.foldl_cons, List.foldl_cons, hgets, hget]⟩

/-! ## The tape is unthreaded -/

/-- What unthreading touches: the transport, reels, position, counts, buffers of readouts and registers. -/
def Dev.transportOnly (d e : Dev) : Prop :=
  e = { d with regs := e.regs, tce := e.tce, mdr := e.mdr, pos := e.pos, cnt := e.cnt, pools := e.pools, out := e.out }

theorem Dev.transportOnly_trans {f : Dev} (h : d.transportOnly e) (k : e.transportOnly f) : d.transportOnly f := by
  unfold Dev.transportOnly at *
  rw [k, h]

theorem Dev.transportOnly_of_loops (h : d.loopsOnly e) : d.transportOnly e := by
  unfold Dev.transportOnly
  rw [h.1]

theorem Dev.transportOnly_set (d : Dev) (f : Fld) (v : Nat) : d.transportOnly (d.set f v) := rfl

theorem Dev.transportOnly_goMode (d : Dev) (m : PosMode) : d.transportOnly (d.goMode m) := rfl

/-- Readouts that are pushed out give their buffers back; TPOS's snapshots are gone. -/
theorem Dev.cancelShots_eq (d : Dev) : ∃ entries cnt pools, d.cancelShots = { d with pos := { d.pos with entries := entries }, cnt := cnt, pools := pools } := by
  unfold Dev.cancelShots
  extract_lets gone _ armed dropped
  have hdropped : ∃ entries cnt pools, dropped = { d with pos := { d.pos with entries := entries }, cnt := cnt, pools := pools } := ⟨_, _, _, rfl⟩
  clear_value dropped
  refine List.foldlRecOn (motive := fun e : Dev => ∃ entries cnt pools, e = { d with pos := { d.pos with entries := entries }, cnt := cnt, pools := pools })
    _ _ hdropped fun e he a _ => ?_
  obtain ⟨entries, cnt, pools, rfl⟩ := he
  unfold Dev.pushReadout
  extract_lets all freed
  have hfreed := Dev.releaseAll_pools ((all.drop 16).filterMap Shot.handle) ownDma { d with pos := { d.pos with entries := entries }, cnt := cnt, pools := pools }
  change freed = _ at hfreed
  clear_value freed
  exact ⟨entries, _, freed.pools, by rw [hfreed]⟩

theorem Dev.word_enterMode (d : Dev) (x m : Nat) {b : Nat} (h : b ≠ (F.mdrReelMode.ix x).addr) : (d.enterMode x m).word b = d.word b :=
  d.word_set_other (F.mdrReelMode.ix x) m h

theorem Dev.enterMode_eq (d : Dev) (x m : Nat) : ∃ regs mdr, d.enterMode x m = { d with regs := regs, mdr := mdr } := ⟨_, _, rfl⟩

/-- The position state that MODE and UNCERTAIN show (R73, R87). -/
theorem Dev.goMode_spec (d : Dev) (m : PosMode) : (∃ regs, d.goMode m = { d with pos := { d.pos with mode := m }, regs := regs })
    ∧ ∀ x, x ≠ F.posStatusMode.addr → (d.goMode m).word x = d.word x := by
  refine ⟨⟨_, rfl⟩, fun x hx => ?_⟩
  unfold Dev.goMode
  rw [Dev.word_set_other _ F.posStatusUncertain _ hx, Dev.word_set_other _ F.posStatusMode _ hx]
  rfl

/-- The tape stands unthreaded. -/
structure Dev.unthreaded (e : Dev) : Prop where
  speed : e.tce.v = 0
  accel : e.tce.a = 0
  mode : e.pos.mode = .unset
  loops : e.get F.tceLoopCtrlClosed = 0
  drivers : e.get F.mdrStatusGdEn = 0

theorem Dev.get_mdr (d : Dev) (m : Mdr) (f : Fld) : ({ d with mdr := m } : Dev).get f = d.get f := by cases d; rfl
theorem Dev.get_pos (d : Dev) (p : Pos) (f : Fld) : ({ d with pos := p } : Dev).get f = d.get f := by cases d; rfl

/-- The reels and the drivers are off (R381, R423). -/
theorem Dev.reelsOff_spec (d : Dev) :
    let e := (((d.enterMode 0 0).enterMode 1 0).set F.mdrStatusGdEn 0).set F.tceStatusReaction 0
    d.transportOnly e ∧ e.tce = d.tce ∧ e.get F.tceLoopCtrlClosed = d.get F.tceLoopCtrlClosed ∧ e.get F.mdrStatusGdEn = 0 := by
  obtain ⟨r, md, h0⟩ := d.enterMode_eq 0 0
  obtain ⟨r', md', h1⟩ := (d.enterMode 0 0).enterMode_eq 1 0
  have hget : ((d.enterMode 0 0).enterMode 1 0).get F.tceLoopCtrlClosed = d.get F.tceLoopCtrlClosed := by
    rw [Dev.get, Dev.word_enterMode _ _ _ (by decide), Dev.word_enterMode _ _ _ (by decide), Dev.get]
  have hto : d.transportOnly ((d.enterMode 0 0).enterMode 1 0) := by rw [h1, h0]; rfl
  have htce : ((d.enterMode 0 0).enterMode 1 0).tce = d.tce := by rw [h1, h0]
  generalize (d.enterMode 0 0).enterMode 1 0 = f at *
  refine ⟨Dev.transportOnly_trans hto rfl, by rw [Dev.set_tce, Dev.set_tce, htce], ?_, ?_⟩
  · rw [Dev.get_set_addr _ _ _ _ (by decide), Dev.get_set_addr _ _ _ _ (by decide), hget]
  · rw [Dev.get_set_addr _ _ _ _ (by decide), Dev.get_set_same _ _ _ (by decide)]
    rfl

/-- What waits for a position is dropped, the position is unset, and the write gate closes (R532). -/
theorem Dev.unsetStill_spec (d : Dev) :
    let e := (((d.cancelShots.dropEntries Entry.isStart).dropEntries Entry.isWindow).goMode .unset).closeGate
    d.transportOnly e ∧ e.tce = d.tce ∧ e.pos.mode = .unset ∧ ∀ f : Fld, f.addr ≠ F.posStatusMode.addr → e.get f = d.get f := by
  obtain ⟨_, cnt, pools, hshots⟩ := d.cancelShots_eq
  obtain ⟨entries, hdrop⟩ : ∃ entries, (d.cancelShots.dropEntries Entry.isStart).dropEntries Entry.isWindow
      = { d with pos := { d.pos with entries := entries }, cnt := cnt, pools := pools } := by
    rw [hshots]
    exact ⟨_, rfl⟩
  generalize (d.cancelShots.dropEntries Entry.isStart).dropEntries Entry.isWindow = f at *
  have hfword : ∀ x, f.word x = d.word x := fun x => by rw [hdrop]; rfl
  obtain ⟨⟨regs, hmode⟩, hmword⟩ := f.goMode_spec .unset
  generalize f.goMode .unset = g at *
  have hgate := g.regsOut_closeGate
  generalize g.closeGate = k at *
  have hkpos : k.pos = g.pos := (congrArg Dev.pos hgate.1 :)
  have hktce : k.tce = g.tce := (congrArg Dev.tce hgate.1 :)
  have hgtce : g.tce = d.tce := by rw [hmode, hdrop]
  refine ⟨?_, by rw [hktce, hgtce], by rw [hkpos, hmode], fun x hx => ?_⟩
  · unfold Dev.transportOnly
    rw [hgate.1, hmode, hdrop]
  · rw [Dev.get, Dev.get, hgate.2.1 _ (fun hm => hx (List.mem_singleton.mp hm)), hmword _ hx, hfword]

theorem Dev.unthread_spec (d : Dev) : d.transportOnly d.unthread ∧ d.unthread.unthreaded := by
  unfold Dev.unthread
  extract_lets _ stopped opened off _ undriven unshot
  have hstopped : d.transportOnly stopped ∧ stopped.tce.v = 0 ∧ stopped.tce.a = 0 := ⟨rfl, rfl, rfl⟩
  clear_value stopped
  obtain ⟨hloops, hclosed⟩ := Dev.foldl_setClosed_spec false closeOrder.reverse (by decide) stopped
  have hopened : d.transportOnly opened ∧ opened.tce.v = 0 ∧ opened.tce.a = 0 ∧ opened.get F.tceLoopCtrlClosed = 0 := by
    refine ⟨Dev.transportOnly_trans hstopped.1 (Dev.transportOnly_of_loops hloops), ?_, ?_, ?_⟩
    · exact (congrArg (fun e : Dev => e.tce.v) hloops.1 :).trans hstopped.2.1
    · exact (congrArg (fun e : Dev => e.tce.a) hloops.1 :).trans hstopped.2.2
    · exact hclosed.trans (closeOrder_opens _ (stopped.get_lt _))
  clear_value opened
  obtain ⟨hoto, hv, ha, hl⟩ := hopened
  obtain ⟨hfto, hftce, hfget, hfdrivers⟩ : opened.transportOnly off ∧ off.tce = opened.tce ∧ off.get F.tceLoopCtrlClosed = opened.get F.tceLoopCtrlClosed
      ∧ off.get F.mdrStatusGdEn = 0 := opened.reelsOff_spec
  clear_value off
  have hundriven : off.transportOnly undriven ∧ undriven.tce = off.tce ∧ ∀ f, undriven.get f = off.get f :=
    ⟨rfl, rfl, off.get_mdr _⟩
  clear_value undriven
  obtain ⟨hdto, hdtce, hdget⟩ := hundriven
  obtain ⟨huto, hutce, humode, huget⟩ : undriven.transportOnly unshot ∧ unshot.tce = undriven.tce ∧ unshot.pos.mode = .unset
      ∧ ∀ f : Fld, f.addr ≠ F.posStatusMode.addr → unshot.get f = undriven.get f := undriven.unsetStill_spec
  clear_value unshot
  have htce : unshot.tce = opened.tce := hutce.trans (hdtce.trans hftce)
  have hto : d.transportOnly unshot :=
    Dev.transportOnly_trans hoto (Dev.transportOnly_trans hfto (Dev.transportOnly_trans hdto huto))
  exact ⟨Dev.transportOnly_trans hto rfl, {
    speed := (congrArg Tce.v htce :).trans hv
    accel := (congrArg Tce.a htce :).trans ha
    mode := humode
    loops := (Dev.get_pos _ _ _).trans <| (huget _ (by decide)).trans ((hdget _).trans (hfget.trans hl))
    drivers := (Dev.get_pos _ _ _).trans <| (huget _ (by decide)).trans ((hdget _).trans hfdrivers) }⟩

end Sys2Proof.Machine
end

section
/-!
SUPPORT. The cartridge goes (R22, R320).
-/
namespace Sys2Proof.Machine

variable {d e f g : Dev}

theorem exec_cartridgeEjected (s : State) : exec .cartridgeEjected s = .next { s with dev := s.dev.ejected.hostSettle } := rfl

/-- Nothing of the cartridge is left, and the transport stands unthreaded. -/
structure Dev.emptied (d e : Dev) : Prop where
  glb : e.glb = d.glb
  cqm : e.cqm = d.cqm
  hpt : e.hpt = d.hpt
  memories : d.sameMemories e
  bare : e.unthreaded
  cart : e.cart = Cart.reset
  ctxs : e.strm.ctxs = []
  clicks : e.strm.clicks = []
  session : e.plc.session = none
  streams : e.plc.streams = []

/-- The tape is unthreaded and the cartridge forgotten, with or without the channels disabled in between. -/
theorem Dev.emptied_of (hto : d.transportOnly e) (hbare : e.unthreaded) (hhfm : e.hfmOnly f) (hgone : f.forgotten g) : d.emptied g := by
  have hfe : f = { d with regs := e.regs, tce := e.tce, mdr := e.mdr, pos := e.pos, cnt := e.cnt, pools := e.pools, out := f.out, chan := f.chan } := by
    rw [show f = _ from hhfm, show e = _ from hto]
  have hrest := hgone.rest
  have htce : g.tce.v = e.tce.v ∧ g.tce.a = e.tce.a := by
    have h : g.tce = { f.tce with weltTrim := g.tce.weltTrim, latOuts := g.tce.latOuts } := (congrArg Dev.tce hrest :)
    have hf : f.tce = e.tce := (congrArg Dev.tce hfe :)
    rw [h, hf]
    exact ⟨rfl, rfl⟩
  have hpos : g.pos = e.pos := (congrArg Dev.pos hrest :).trans (congrArg Dev.pos hfe :)
  have hget : ∀ x : Fld, x.addr ≠ F.rchRetainPinValid.addr → g.get x = e.get x := fun x hx => by
    have hregs : f.regs = e.regs := (congrArg Dev.regs hfe :)
    rw [Dev.get, Dev.get, hgone.word _ hx, Dev.word, Dev.word, hregs]
  exact {
    glb := (congrArg Dev.glb hrest :).trans (congrArg Dev.glb hfe :)
    cqm := (congrArg Dev.cqm hrest :).trans (congrArg Dev.cqm hfe :)
    hpt := (congrArg Dev.hpt hrest :).trans (congrArg Dev.hpt hfe :)
    memories := ⟨(congrArg Dev.ddr hrest :).trans (congrArg Dev.ddr hfe :), (congrArg Dev.nor hrest :).trans (congrArg Dev.nor hfe :),
      (congrArg Dev.feram hrest :).trans (congrArg Dev.feram hfe :), (congrArg Dev.cobMem hrest :).trans (congrArg Dev.cobMem hfe :)⟩
    bare := ⟨htce.1.trans hbare.speed, htce.2.trans hbare.accel, (congrArg Pos.mode hpos).trans hbare.mode,
      (hget _ (by decide)).trans hbare.loops, (hget _ (by decide)).trans hbare.drivers⟩
    cart := hgone.cart, ctxs := hgone.ctxs, clicks := hgone.clicks, session := hgone.session, streams := hgone.streams }

theorem Dev.still_event (d : Dev) (code : Nat) : (d.event code).still = d.still := by
  have hnotice : ∀ (d : Dev) (es : List (List Byte)), (d.notice code es).still = d.still := fun d es =>
    List.foldlRecOn (motive := fun e : Dev => e.still = d.still) _ _ rfl fun e he _ _ => (Dev.still_sendMsg e _ _ _ _ _ _ _).trans he
  exact (hnotice _ _).trans (Dev.still_log _ _)

/-- The newest log entry is the event's (R326). -/
theorem Dev.event_log (d : Dev) (code : Nat) : ((d.event code).cqm.log.head?.map LogEntry.status) = some (eventEntry code []).status := by
  have hlog : ∀ y : LogEntry, ((d.log y).cqm.log.head?.map LogEntry.status) = some y.status := fun y => by
    unfold Dev.log
    extract_lets seq y' full logged
    split <;> rfl
  obtain ⟨hpt, h⟩ := (d.log (eventEntry code [])).notice_eq code []
  rw [show d.event code = (d.log (eventEntry code [])).notice code [] from rfl, h]
  exact hlog _

theorem Dev.goState_spec (d : Dev) (st : DevState) :
    ∃ glb out, d.goState st = { d with glb := glb, out := out } ∧ glb.dev = st ∧ glb.standbyHeld = d.glb.standbyHeld := by
  unfold Dev.goState
  split
  next h => exact ⟨d.glb, d.out, rfl, h.symm, rfl⟩
  · extract_lets _ gone
    split
    · exact ⟨gone.glb, _, rfl, rfl, rfl⟩
    · exact ⟨gone.glb, d.out, rfl, rfl, rfl⟩

end Sys2Proof.Machine
end

section
/-!
SUPPORT. CARTRIDGE_EJECTED (R22, R320).
-/
namespace Sys2Proof.Machine

variable {d e f : Dev}

theorem Dev.hfmOnly_refl (d : Dev) : d.hfmOnly d := by cases d; rfl

/-- The device becomes idle, or its maintenance will end there. -/
theorem Dev.goneState (d : Dev) : ∃ glb out,
    (if d.glb.dev == .maintenance then { d with glb := { d.glb with beforeMaint := .idle } } else d.goState .idle) = { d with glb := glb, out := out }
      ∧ glb.dev = (if d.glb.dev = .maintenance then .maintenance else .idle) ∧ glb.standbyHeld = d.glb.standbyHeld := by
  by_cases h : d.glb.dev = .maintenance
  · exact ⟨{ d.glb with beforeMaint := .idle }, d.out, by rw [h]; rfl, by rw [if_pos h, h], rfl⟩
  · obtain ⟨glb, out, heq, hdev, hheld⟩ := d.goState_spec .idle
    exact ⟨glb, out, by rw [if_neg (by simpa using h), heq], by rw [if_neg h, hdev], hheld⟩

/-- The cartridge goes: nothing of it is left, the event is logged and told, the device is in idle or its maintenance will end there, and
then the commands that need the tape fail. -/
theorem Dev.ejected_eq (hload : d.cart.loaded = true) : ∃ (e : Dev) (glb : Glb) (out : List Out) (tape : List Cmd),
    ({ d with cqm := { d.cqm with waits := [] } } : Dev).emptied e
      ∧ glb.dev = (if d.glb.dev = .maintenance then .maintenance else .idle) ∧ glb.standbyHeld = d.glb.standbyHeld
      ∧ (d.cqm.cmds = [] → tape = [])
      ∧ d.ejected = tape.foldl (fun d c => d.finish c.h stRemoved []) { e.event 0x0317 with glb := glb, out := out } := by
  unfold Dev.ejected
  rw [hload, Bool.not_true, if_neg Bool.false_ne_true]
  extract_lets _ tape unwaited unthreaded gone told _ judged
  obtain ⟨streams, changed, hclosed⟩ := unwaited.closeStreams_eq
  obtain ⟨hto, hbare⟩ := unwaited.closeStreams.unthread_spec
  have hemptied : unwaited.closeStreams.emptied gone := Dev.emptied_of hto hbare (Dev.hfmOnly_refl _) (Dev.forgotten_forgetCartridge _)
  clear_value gone unthreaded
  have hgone : unwaited.emptied gone := by
    rw [hclosed] at hemptied
    exact { hemptied with glb := hemptied.glb, cqm := hemptied.cqm, hpt := hemptied.hpt, memories := hemptied.memories }
  have hglb : told.glb = d.glb := (congrArg Still.glb (gone.still_event 0x0317)).trans hgone.glb
  obtain ⟨glb, out, hjudged, hdev, hheld⟩ := told.goneState
  rw [hglb] at hdev hheld
  refine ⟨gone, glb, out, tape, hgone, hdev, hheld, fun hnone => ?_, ?_⟩
  · simp [tape, hnone]
  · rw [← hjudged]

theorem Dev.still_foldl_finish {α : Type} (h : α → Nat) (st : Nat) (det : List Byte) (l : List α) (d : Dev) :
    (l.foldl (fun d x => d.finish (h x) st det) d).still = d.still :=
  List.foldlRecOn (motive := fun e : Dev => e.still = d.still) l _ rfl fun e he x _ => (e.still_finish (h x) st det false).trans he

theorem Dev.still_of_hostOnly (h : d.hostOnly e) : e.glb = d.glb ∧ e.strm = d.strm ∧ e.plc = d.plc ∧ e.cart = d.cart ∧ e.pos = d.pos ∧ e.tce = d.tce :=
  ⟨(congrArg Dev.glb h.1 :), (congrArg Dev.strm h.1 :), (congrArg Dev.plc h.1 :), (congrArg Dev.cart h.1 :), (congrArg Dev.pos h.1 :),
    (congrArg Dev.tce h.1 :)⟩

theorem Dev.sameMemories_of_hostOnly (h : d.hostOnly e) : d.sameMemories e :=
  ⟨(congrArg Dev.ddr h.1 :), (congrArg Dev.nor h.1 :), (congrArg Dev.feram h.1 :), (congrArg Dev.cobMem h.1 :)⟩

theorem runs_cartridgeEjected {s : State} (hload : s.dev.cart.loaded = true) (hcalm : s.dev.calm = true) :
    Runs .cartridgeEjected s fun t => t.dev.cart = Cart.reset ∧ t.dev.tce.v = 0 ∧ t.dev.tce.a = 0 ∧ t.dev.pos.mode = .unset
        ∧ t.dev.strm.ctxs = [] ∧ t.dev.strm.clicks = [] ∧ t.dev.plc.session = none
        ∧ t.dev.glb.dev = (if s.dev.glb.dev = .maintenance then .maintenance else .idle)
        ∧ (s.dev.quiet = true → t.dev.get F.tceLoopCtrlClosed = 0 ∧ t.dev.get F.mdrStatusGdEn = 0
          ∧ (t.dev.cqm.log.head?.map LogEntry.status) = some 0x0317 ∧ s.memoriesStand t) := by
  refine ⟨_, exec_cartridgeEjected s, ?_⟩
  obtain ⟨e, glb, out, tape, hgone, hdev, hheld, htape, heq⟩ := Dev.ejected_eq hload
  have htold := e.still_event 0x0317
  have hjudged : ({ e.event 0x0317 with glb := glb, out := out } : Dev).still = { e.still with glb := glb } := by
    rw [← htold]
    rfl
  have hstill : s.dev.ejected.still = { e.still with glb := glb } := by rw [heq, Dev.still_foldl_finish, hjudged]
  have hconns : e.hpt.conns.map Conn.st = s.dev.hpt.conns.map Conn.st := by rw [hgone.hpt]
  have hcalm' : s.dev.ejected.calm = true := by
    have hcongr : s.dev.ejected.calm = ({ s.dev with glb := glb } : Dev).calm :=
      Dev.calm_of_states (congrArg Still.glb hstill) ((congrArg Still.conns hstill).trans hconns)
    rw [hcongr, Dev.calm, hheld]
    exact hcalm
  have hhost := Dev.hostOnly_hostSettle _ hcalm'
  have hlone : s.dev.quiet = true → s.dev.ejected = { e.event 0x0317 with glb := glb, out := out } := fun hquiet => by
    have hnone : s.dev.cqm.cmds = [] := by
      simp only [Dev.quiet, Bool.and_eq_true, List.isEmpty_iff] at hquiet
      tauto
    rw [heq, htape hnone, List.foldl_nil]
  generalize s.dev.ejected.hostSettle = t at *
  generalize s.dev.ejected = f at *
  obtain ⟨hg, hs, hp, hc, hpos, ht⟩ := Dev.still_of_hostOnly hhost
  obtain ⟨jg, js, jp, jc, jpos, jt, -⟩ : f.glb = glb ∧ f.strm = e.strm ∧ f.plc = e.plc ∧ f.cart = e.cart ∧ f.pos = e.pos ∧ f.tce = e.tce ∧ _ :=
    Still.mk.inj hstill
  refine ⟨by rw [hc, jc, hgone.cart], by rw [ht, jt, hgone.bare.speed], by rw [ht, jt, hgone.bare.accel], by rw [hpos, jpos, hgone.bare.mode],
    by rw [hs, js, hgone.ctxs], by rw [hs, js, hgone.clicks], by rw [hp, jp, hgone.session], by rw [hg, jg, hdev], fun hquiet => ?_⟩
  have hf := hlone hquiet
  have hevent : e.slotOnly capacityWords (e.event 0x0317) := Dev.slotOnly_event _ _ (by decide)
  have hlog := e.event_log 0x0317
  generalize e.event 0x0317 = n at *
  have hget : ∀ x : Fld, x.addr ∉ capacityWords → x.addr ≠ C.hptTxSeg → t.get x = e.get x := fun x hx hseg => by
    rw [Dev.hostOnly_get hhost hseg, hf, Dev.get, Dev.get, ← hevent.2.1 _ hx]
    rfl
  refine ⟨(hget _ (by decide) (by decide)).trans hgone.bare.loops, (hget _ (by decide) (by decide)).trans hgone.bare.drivers, ?_, ?_⟩
  · rw [Dev.hostOnly_cqm hhost, hf]
    exact hlog
  · have hmem := Dev.sameMemories_of_hostOnly hhost
    rw [hf] at hmem
    exact State.memoriesStand_of_same (t := { s with dev := t })
      (Dev.sameMemories_trans hgone.memories (Dev.sameMemories_trans (Dev.slotOnly_memories hevent) hmem))

end Sys2Proof.Machine
end

section
/-!
SUPPORT. UNLOAD (R222, R239, R320, R325).
-/
namespace Sys2Proof.Machine

variable {d e f : Dev} {c : Cmd} {k : Conn} {q : Queue}

theorem exec_unload (h : Nat) (zone : ZoneEnv) (m : Motion) (s : State) :
    exec (.unload h zone m) s = .next { s with dev := (s.dev.unload h zone m).hostSettle } := rfl

/-! ## A lone command -/

/-- A lone command that has been dispatched is ready. -/
theorem Dev.ready?_alone (h : d.alone c k q) (hphase : c.phase = .dispatched ∨ c.phase = .started) : d.ready? c.h c.opcode = some c := by
  obtain ⟨hcmds, -⟩ := h
  have hfind : d.cmd? c.h = some c := by simp [Dev.cmd?, hcmds]
  have hin : (c.phase == .dispatched || c.phase == .started) = true := by rcases hphase with h | h <;> rw [h] <;> rfl
  simp [Dev.ready?, hfind, hcmds, hin]

/-- Whether a command is alone shows in the face, but for the connection's counters. -/
theorem Dev.alone_of_conns (h : d.alone c k q) (hcmds' : e.cqm.cmds = d.cqm.cmds) (hqueues' : e.cqm.queues = d.cqm.queues)
    (hconns' : e.face.conns = d.face.conns) (hglb : e.glb = d.glb) : ∃ k', e.alone c k' q := by
  obtain ⟨hcmds, hqueues, hq, hconn, hfrozen, hconns, hst, hkq, hheld⟩ := h
  have hkeys : e.hpt.conns.map (fun k => (k.id, k.st, k.queue)) = [k].map fun k => (k.id, k.st, k.queue) := by rw [← hconns]; exact hconns'
  obtain ⟨k', hk', hkeys⟩ : ∃ k', e.hpt.conns = [k'] ∧ (k'.id, k'.st, k'.queue) = (k.id, k.st, k.queue) := List.map_eq_singleton_iff.mp hkeys
  obtain ⟨hid, hst', hqueue⟩ : k'.id = k.id ∧ k'.st = k.st ∧ k'.queue = k.queue := by simpa using hkeys
  exact ⟨k', hcmds'.trans hcmds, hqueues'.trans hqueues, hq, by rw [hid, hconn], hfrozen, hk', hst'.trans hst, hqueue.trans hkq, by rw [hglb, hheld]⟩

theorem Dev.alone_of_face (h : d.alone c k q) (hf : e.face.appending = d.face.appending) : ∃ k', e.alone c k' q :=
  Dev.alone_of_conns h (congrArg Face.cmds hf :) (congrArg Face.queues hf :) (congrArg Face.conns hf :) (congrArg Face.glb hf :)

/-- A lone command stays so where the device's state, the links and the outputs change. -/
theorem Dev.alone_withState (h : d.alone c k q) {glb : Glb} (hheld : glb.standbyHeld = d.glb.standbyHeld) (cas : Cas) (out : List Out) :
    ({ d with glb := glb, cas := cas, out := out } : Dev).alone c k q := by
  obtain ⟨hcmds, hqueues, hq, hconn, hfrozen, hconns, hst, hkq, hno⟩ := h
  exact ⟨hcmds, hqueues, hq, hconn, hfrozen, hconns, hst, hkq, hheld.trans hno⟩

/-! ## The device's state -/

/-- A change of the device's state, and what its members are told of it. -/
def Dev.stateOnly (st : DevState) (d e : Dev) : Prop :=
  ∃ glb cas out, e = { d with glb := glb, cas := cas, out := out } ∧ glb.dev = st ∧ glb.standbyHeld = d.glb.standbyHeld

theorem Dev.linkOnly_tellMembers (d : Dev) (m : LinkMsg) : d.linkOnly (d.tellMembers m) := by
  unfold Dev.tellMembers
  split
  · exact Dev.linkOnly_foldl _ (fun e j => e.linkOnly_sendLink j 1 m) _ _
  · exact d.linkOnly_refl

theorem Dev.stateOnly_goState (d : Dev) (st : DevState) : d.stateOnly st (d.goState st) := by
  obtain ⟨glb, out, heq, hdev, hheld⟩ := d.goState_spec st
  exact ⟨glb, d.cas, out, heq, hdev, hheld⟩

theorem Dev.stateOnly_trans {st st' : DevState} (h : d.stateOnly st e) (k : e.stateOnly st' f) : d.stateOnly st' f := by
  obtain ⟨glb, cas, out, rfl, -, hheld⟩ := h
  obtain ⟨glb', cas', out', rfl, hdev', hheld'⟩ := k
  exact ⟨glb', cas', out', rfl, hdev', hheld'.trans hheld⟩

theorem Dev.stateOnly_linkOnly {st : DevState} (h : d.stateOnly st e) (k : e.linkOnly f) : d.stateOnly st f := by
  obtain ⟨glb, cas, out, rfl, hdev, hheld⟩ := h
  exact ⟨glb, f.cas, f.out, k.1, hdev, hheld⟩

theorem Dev.stateOnly_toIdle (d : Dev) : d.stateOnly .idle d.toIdle := by
  unfold Dev.toIdle
  split
  · exact Dev.stateOnly_trans (d.stateOnly_goState .loaded) (Dev.stateOnly_goState _ _)
  · exact d.stateOnly_goState _

theorem Dev.stateOnly_streaming (h : d.glb.dev = .loaded) : d.stateOnly .streaming d.streaming := by
  unfold Dev.streaming
  rw [h, if_pos (beq_self_eq_true _)]
  extract_lets moves
  have hmoves : d.stateOnly .streaming moves := d.stateOnly_goState _
  clear_value moves
  split
  · exact Dev.stateOnly_linkOnly hmoves (Dev.linkOnly_tellMembers _ _)
  · exact hmoves

theorem Dev.stateOnly_standStill (d : Dev) : ∃ st, d.stateOnly st d.standStill := by
  unfold Dev.standStill
  split
  · extract_lets stood
    have hstood : d.stateOnly .loaded stood := d.stateOnly_goState _
    clear_value stood
    split
    · exact ⟨_, Dev.stateOnly_linkOnly hstood (Dev.linkOnly_tellMembers _ _)⟩
    · exact ⟨_, hstood⟩
  · exact ⟨_, d.glb, d.cas, d.out, rfl, rfl, rfl⟩

theorem Dev.calm_of_stateOnly {st : DevState} (h : d.stateOnly st e) : e.calm = d.calm := by
  obtain ⟨glb, cas, out, rfl, -, hheld⟩ := h
  simp only [Dev.calm, hheld]

theorem Dev.sameMemories_of_stateOnly {st : DevState} (h : d.stateOnly st e) : d.sameMemories e := by
  obtain ⟨glb, cas, out, rfl, -⟩ := h
  exact ⟨rfl, rfl, rfl, rfl⟩

/-- A command that has begun and moves the tape. -/
def Cmd.begun (c : Cmd) : Cmd := { c with phase := .started, motion := true }

theorem Dev.modCmd_begun (h : d.alone c k q) :
    (d.modCmd c.h Cmd.begun).cqm.cmds = [c.begun] ∧ d.sameMemories (d.modCmd c.h Cmd.begun) ∧ (d.modCmd c.h Cmd.begun).calm = true := by
  obtain ⟨hcmds, -⟩ := id h
  exact ⟨by simp [Dev.modCmd, hcmds], ⟨rfl, rfl, rfl, rfl⟩, (Dev.calm_of_still (d.still_modCmd c.h Cmd.begun)).trans (Dev.alone_calm h)⟩

/-! ## UNLOAD begins -/

theorem runs_unload_begins {s : State} {zone : ZoneEnv} (halone : s.dev.alone c k q) (hflag : s.dev.flag F.glbCobblerRestarting = false)
    (hop : c.opcode = opUnload) (hphase : c.phase = .dispatched) (hload : s.dev.cart.loaded = true) (hsession : s.dev.plc.session = none)
    (hdev : s.dev.glb.dev = .loaded) :
    Runs (.unload c.h zone .arrived) s fun t =>
      t.dev.cqm.cmds = [{ c with phase := .started, motion := true }] ∧ t.dev.glb.dev = .streaming ∧ s.memoriesStand t := by
  refine ⟨_, exec_unload _ _ _ s, ?_⟩
  have hready := Dev.ready?_alone halone (.inl hphase)
  obtain ⟨hcmds, hmem, hcalm⟩ := Dev.modCmd_begun halone
  have hunload : s.dev.unload c.h zone .arrived = (s.dev.modCmd c.h Cmd.begun).streaming := by
    have hend : (s.dev.modCmd c.h Cmd.begun).endForTape = s.dev.modCmd c.h Cmd.begun := by
      have hnone : (s.dev.modCmd c.h Cmd.begun).plc.session = none := hsession
      rw [Dev.endForTape, hnone]
    rw [Dev.unload, ← hop, hready]
    simp only [hflag, Bool.false_eq_true, if_false, hphase, hload, Bool.not_true]
    exact congrArg Dev.streaming hend
  have hmdev : (s.dev.modCmd c.h Cmd.begun).glb.dev = .loaded := hdev
  generalize s.dev.modCmd c.h Cmd.begun = m at *
  have hstate := Dev.stateOnly_streaming hmdev
  have hkeep := Dev.sameMemories_of_stateOnly hstate
  have hhost := Dev.hostOnly_hostSettle m.streaming ((Dev.calm_of_stateOnly hstate).trans hcalm)
  obtain ⟨glb, cas, out, heq, hglb, -⟩ := hstate
  rw [hunload]
  generalize m.streaming = e at *
  obtain ⟨hg, -⟩ := Dev.still_of_hostOnly hhost
  refine ⟨by rw [Dev.hostOnly_cqm hhost, heq]; exact hcmds, by rw [hg, heq, hglb], ?_⟩
  exact State.memoriesStand_of_same (t := { s with dev := _ })
    (Dev.sameMemories_trans hmem (Dev.sameMemories_trans hkeep (Dev.sameMemories_of_hostOnly hhost)))

/-! ## UNLOAD ends -/

/-- A command that has completed, or is no longer there, is told of no second time. -/
theorem Dev.roll_finish_left {qs : List Nat} (hroll : d.roll = (c.left, qs)) (hq : c.queue ∈ qs) (st : Nat) (det : List Byte) (h : Nat) :
    (d.finish h st det).roll = (c.left, qs) := by
  have hcmds : d.cqm.cmds = c.left := congrArg Prod.fst hroll
  by_cases hsame : c.counts = true ∧ h = c.h
  · obtain ⟨hcounts, rfl⟩ := hsame
    have hleft : c.left = [c.told] := if_pos hcounts
    have htold : c.told.left = [c.told] := if_pos hcounts
    rw [hleft] at hroll ⊢
    exact htold ▸ Dev.roll_finish_lone hroll hq st det
  · have hmem : ∀ x ∈ d.cqm.cmds, x = c.told ∧ c.counts = true := fun x hx => by
      rw [hcmds, Cmd.left] at hx
      split at hx
      next hc => exact ⟨List.mem_singleton.mp hx, hc⟩
      · simp at hx
    rw [Dev.roll_finish_other (fun x hx => by rw [(hmem x hx).1]; rfl) (fun x hx heq => ?_), hroll]
    obtain ⟨rfl, hc⟩ := hmem x hx
    exact hsame ⟨hc, heq.symm⟩

/-- A lone command stands or has completed, whichever commands are finished. -/
theorem Dev.roll_foldl_finish {qs : List Nat} (hq : c.queue ∈ qs) (hend : c.ended = false) (st : Nat) (det : List Byte) (hs : List Nat) (d : Dev)
    (hroll : d.roll = ([c], qs)) :
    (hs.foldl (fun d h => d.finish h st det) d).roll = ([c], qs) ∨ (hs.foldl (fun d h => d.finish h st det) d).roll = (c.left, qs) := by
  refine List.foldlRecOn (motive := fun e : Dev => e.roll = ([c], qs) ∨ e.roll = (c.left, qs)) hs _ (.inl hroll) fun e he h _ => ?_
  obtain he | he := he
  · by_cases hh : h = c.h
    · exact .inr (hh ▸ Dev.roll_finish_lone he hq st det)
    · have hecmds : e.cqm.cmds = [c] := congrArg Prod.fst he
      refine .inl ((Dev.roll_finish_other (fun x hx => ?_) (fun x hx => ?_) st det).trans he)
      all_goals rw [hecmds, List.mem_singleton] at hx; subst hx
      · exact hend
      · exact Ne.symm hh
  · exact .inr (Dev.roll_finish_left he hq st det h)

/-- An UNLOAD that is alone fails with appending, and completes (R325). -/
theorem Dev.roll_failsStopped {qs : List Nat} (hroll : d.roll = ([c], qs)) (hq : c.queue ∈ qs) (hop : c.opcode = opUnload) (hphase : c.phase = .started)
    (hcmds : f.cqm.cmds = [c]) (st : Nat) (det : List Byte) :
    (f.failsStopped.foldl (fun d h => d.finish h st det) d).roll = (c.left, qs) := by
  have hs : f.failsStopped = f.cqm.waits.map Wait.h ++ [c.h] := by simp [Dev.failsStopped, hcmds, hop, hphase]
  rw [hs, List.foldl_append, List.foldl_cons, List.foldl_nil]
  obtain h | h := Dev.roll_foldl_finish hq (by rw [Cmd.ended, hphase]) st det (f.cqm.waits.map Wait.h) d hroll
  · exact Dev.roll_finish_lone h hq st det
  · exact Dev.roll_finish_left h hq st det c.h

theorem Dev.calm_of_face (hglb : e.face.glb = d.face.glb) (hconns : e.face.conns = d.face.conns) : e.calm = d.calm := by
  refine Dev.calm_of_states hglb ?_
  have h := congrArg (List.map fun k : Nat × CState × Nat => k.2.1) hconns
  simpa [Dev.face, List.map_map, Function.comp_def] using h

/-- The zone commit of an UNLOAD that is alone leaves commands and the device's state, or it stops appending and the UNLOAD completes. -/
theorem Dev.zoneCommit_unload (h : d.alone c k q) (hsession : d.plc.session = none) (hop : c.opcode = opUnload) (hphase : c.phase = .started)
    (extra : List (List Byte)) (zone : ZoneEnv) :
    (d.zoneCommit extra false zone).face.appending = d.face.appending
      ∨ (d.zoneCommit extra false zone).cqm.cmds = c.left ∧ (d.zoneCommit extra false zone).plc.stopped.isSome = true
        ∧ (d.zoneCommit extra false zone).calm = true := by
  obtain ⟨g, hg, hcommit | hcommit⟩ := Dev.zoneCommit_eq hsession extra false zone
  · exact .inl (by rw [hcommit, hg])
  rw [hcommit]
  obtain ⟨f, hf, hstopped, hstop⟩ := Dev.stopNow_eq ((congrArg Face.session hg).trans hsession) 0x0318
  rw [hstop]
  obtain hjudge | ⟨e, st, det, he, -, hjudge⟩ := f.judgeStop_eq
  · exact .inl (by rw [hjudge, hf, hg])
  rw [hjudge]
  right
  have hcalm := Dev.alone_calm h
  obtain ⟨hcmds, hqueues, hq, -⟩ := h
  have hfd : f.face.appending = d.face.appending := hf.trans (congrArg Face.appending hg)
  have hfcmds : f.cqm.cmds = [c] := (congrArg Face.cmds hfd : f.cqm.cmds = d.cqm.cmds).trans hcmds
  have hecmds : e.cqm.cmds = [c] := (congrArg Face.cmds he : e.cqm.cmds = f.cqm.cmds).trans hfcmds
  have hequeues : e.cqm.queues = [q] :=
    ((congrArg Face.queues he : e.cqm.queues = f.cqm.queues).trans (congrArg Face.queues hfd : f.cqm.queues = d.cqm.queues)).trans hqueues
  have heroll : e.roll = ([c], [q.id]) := by rw [Dev.roll, hecmds, hequeues]; rfl
  have hstill : (f.failsStopped.foldl (fun d h => d.finish h st det) e).still = e.still := Dev.still_foldl_finish id st det f.failsStopped e
  have hroll := Dev.roll_failsStopped heroll (by simp [hq]) hop hphase hfcmds st det
  generalize f.failsStopped.foldl (fun d h => d.finish h st det) e = z at *
  refine ⟨congrArg Prod.fst hroll, ?_, ?_⟩
  · have hplc : z.plc = e.plc := congrArg Still.plc hstill
    have hestop : e.plc.stopped = f.plc.stopped := congrArg Face.stopped he
    rw [hplc, hestop, hstopped]
  · have hfglb : f.face.glb = d.face.glb := (congrArg Face.glb hfd :)
    have hfconns : f.face.conns = d.face.conns := (congrArg Face.conns hfd :)
    have heglb : e.face.glb = f.face.glb := (congrArg Face.glb he :)
    have heconns : e.face.conns = f.face.conns := (congrArg Face.conns he :)
    rw [Dev.calm_of_still hstill, Dev.calm_of_face heglb heconns, Dev.calm_of_face hfglb hfconns, hcalm]

/-- What the end of an UNLOAD leaves of the cartridge: nothing, and the device idle. -/
structure Dev.unloaded (e : Dev) : Prop where
  idle : e.glb.dev = .idle
  cart : e.cart = Cart.reset
  loops : e.get F.tceLoopCtrlClosed = 0
  drivers : e.get F.mdrStatusGdEn = 0
  mode : e.pos.mode = .unset
  channels : e.chan.groupsOn = 0
  streams : e.plc.streams = []
  ctxs : e.strm.ctxs = []

/-- The tape is unthreaded, the cartridge forgotten and the lone UNLOAD completes (R320). -/
theorem Dev.unloaded_finish (h : d.alone c k q) :
    let e := (((d.unthread.disableChannels.forgetCartridge).toIdle.tellMembers .unload).finish c.h stGood []).hostSettle
    e.cqm.cmds = c.left ∧ e.unloaded := by
  obtain ⟨hto, hbare⟩ := d.unthread_spec
  have hhfm := d.unthread.hfmOnly_disableChannels
  have hoff : d.unthread.disableChannels.chan.groupsOn = 0 := rfl
  have hgone := d.unthread.disableChannels.forgotten_forgetCartridge
  have hemptied := Dev.emptied_of hto hbare hhfm hgone
  have hchan : d.unthread.disableChannels.forgetCartridge.chan = d.unthread.disableChannels.chan := (congrArg Dev.chan hgone.rest :)
  generalize d.unthread.disableChannels.forgetCartridge = g at *
  have hgoff : g.chan.groupsOn = 0 := by rw [hchan, hoff]
  have hstate := Dev.stateOnly_linkOnly g.stateOnly_toIdle (g.toIdle.linkOnly_tellMembers .unload)
  generalize g.toIdle.tellMembers .unload = f at *
  obtain ⟨glb, cas, out, heq, hglb, hheld⟩ := hstate
  have halone : f.alone c k q := by
    obtain ⟨hcmds, hqueues, hq, hconn, hfrozen, hconns, hst, hkq, hno⟩ := h
    rw [← hemptied.cqm] at hcmds hqueues
    rw [← hemptied.hpt] at hconns
    rw [heq]
    exact ⟨hcmds, hqueues, hq, hconn, hfrozen, hconns, hst, hkq, hheld.trans ((congrArg Glb.standbyHeld hemptied.glb).trans hno)⟩
  have hcmds : ((f.finish c.h stGood []).hostSettle).cqm.cmds = c.left :=
    congrArg Cqm.cmds (Dev.hostOnly_cqm (Dev.hostOnly_finish_alone halone false []))
  obtain ⟨hrest, hword⟩ := Dev.completed_finish halone false []
  generalize (f.finish c.h stGood []).hostSettle = e at *
  have hget : ∀ x : Fld, x.addr ≠ C.hptTxSeg → e.get x = g.get x := fun x hx => by
    rw [Dev.get, Dev.get, hword _ hx, heq]
    rfl
  exact ⟨hcmds, {
    idle := by rw [hrest, heq]; exact hglb
    cart := by rw [hrest, heq]; exact hemptied.cart
    loops := (hget _ (by decide)).trans hemptied.bare.loops
    drivers := (hget _ (by decide)).trans hemptied.bare.drivers
    mode := by rw [hrest, heq]; exact hemptied.bare.mode
    channels := by rw [hrest, heq]; exact hgoff
    streams := by rw [hrest, heq]; exact hemptied.streams
    ctxs := by rw [hrest, heq]; exact hemptied.ctxs }⟩

/-- The tape stands where appending has stopped. -/
theorem Dev.left_standStill (hcalm : d.calm = true) :
    d.standStill.hostSettle.cqm = d.cqm ∧ d.standStill.hostSettle.plc = d.plc := by
  obtain ⟨st, hstate⟩ := d.stateOnly_standStill
  have hhost := Dev.hostOnly_hostSettle _ ((Dev.calm_of_stateOnly hstate).trans hcalm)
  obtain ⟨glb, cas, out, heq, -⟩ := hstate
  generalize d.standStill = e at *
  obtain ⟨-, -, hplc, -⟩ := Dev.still_of_hostOnly hhost
  exact ⟨by rw [Dev.hostOnly_cqm hhost, heq], by rw [hplc, heq]⟩

theorem runs_unload_ends {s : State} {zone : ZoneEnv} (halone : s.dev.alone c k q) (hbar : s.dev.motionBar = none)
    (hflag : s.dev.flag F.glbCobblerRestarting = false) (hop : c.opcode = opUnload) (hphase : c.phase = .started)
    (hsession : s.dev.plc.session = none) (hcommits : s.dev.plc.commits = []) (hreads : s.dev.strm.reads = [])
    (hzone : s.dev.cart.readOnly = true ∨ s.dev.zoneBuffer = true) :
    Runs (.unload c.h zone .arrived) s fun t => t.dev.cqm.cmds = c.left
      ∧ (t.dev.plc.stopped.isSome = false → t.dev.unloaded) ∧ (s.dev.cart.readOnly = true → t.dev.cart = Cart.reset) := by
  refine ⟨_, exec_unload _ _ _ s, ?_⟩
  have hready := Dev.ready?_alone halone (.inr hphase)
  have hunload : s.dev.unload c.h zone .arrived = s.dev.endUnload c zone .arrived := by
    have hroom : (!s.dev.cart.readOnly && !s.dev.zoneBuffer) = false := by rcases hzone with h | h <;> simp [h]
    rw [Dev.unload, ← hop, hready]
    simp [hflag, hphase, hroom, hsession, hcommits, hreads]
  rw [hunload, Dev.endUnload, hbar]
  obtain ⟨streams, changed, hclosed⟩ := s.dev.closeStreams_eq
  have hface : s.dev.closeStreams.face = s.dev.face := by rw [hclosed]; rfl
  have hcalone : s.dev.closeStreams.alone c k q := by rw [hclosed]; exact halone
  have hcsession : s.dev.closeStreams.plc.session = none := by rw [hclosed]; exact hsession
  have hcro : s.dev.closeStreams.cart.readOnly = s.dev.cart.readOnly := by rw [hclosed]
  have hmotion : (none : Option (List Byte)).or (motionDetail .arrived) = none := rfl
  rw [hmotion]
  dsimp -zeta only
  extract_lets closed entries committed gone
  have hcommitted : committed.face.appending = s.dev.face.appending
      ∨ s.dev.cart.readOnly = false ∧ committed.cqm.cmds = c.left ∧ committed.plc.stopped.isSome = true ∧ committed.calm = true := by
    have happending : s.dev.closeStreams.face.appending = s.dev.face.appending := congrArg Face.appending hface
    unfold committed closed
    rw [hcro, ← happending]
    split
    next => exact .inl rfl
    next hro =>
      exact (Dev.zoneCommit_unload hcalone hcsession hop hphase entries zone).imp_right fun h => ⟨Bool.eq_false_iff.mpr hro, h⟩
  clear_value committed
  obtain hstays | ⟨hro, hcmds, hstopped, hcalm⟩ := hcommitted
  · obtain ⟨k', hk'⟩ := Dev.alone_of_face halone hstays
    obtain ⟨hcmds, -⟩ := id hk'
    obtain ⟨hleft, hunloaded⟩ := Dev.unloaded_finish hk'
    have hstarted : (committed.cqm.cmds.any fun k => k.h == c.h && k.phase == .started) = true := by simp [hcmds, hphase]
    rw [hstarted, Bool.not_true, if_neg Bool.false_ne_true]
    unfold gone
    exact ⟨hleft, fun _ => hunloaded, fun _ => hunloaded.cart⟩
  · have hdone : (committed.cqm.cmds.any fun k => k.h == c.h && k.phase == .started) = false := by
      rw [hcmds, Cmd.left]
      split <;> simp [Cmd.told]
    rw [hdone, Bool.not_false, if_pos rfl]
    obtain ⟨hcqm, hplc⟩ := Dev.left_standStill hcalm
    refine ⟨(congrArg Cqm.cmds hcqm).trans hcmds, fun hnone => ?_, fun h => absurd h (by rw [hro]; exact Bool.false_ne_true)⟩
    have hsome := (congrArg (fun p : Plc => p.stopped.isSome) hplc).trans hstopped
    exact absurd (hsome.symm.trans hnone) (by decide)

end Sys2Proof.Machine
end

section
/-!
SUPPORT. LOAD begins (R93, R138, R319): channel values, drivers and a position that is unset.
-/
namespace Sys2Proof.Machine

variable {d e f : Dev} {c : Cmd} {k : Conn} {q : Queue}

theorem exec_load (h : Nat) (env : LoadEnv) (s : State) : exec (.load h env) s = .next { s with dev := (s.dev.load h env).hostSettle } := rfl

/-- A change of registers alone. -/
def Dev.regsOnly (d e : Dev) : Prop := e = { d with regs := e.regs }

theorem Dev.regsOnly_refl (d : Dev) : d.regsOnly d := by cases d; rfl
theorem Dev.regsOnly_set (h : d.regsOnly e) (f : Fld) (v : Nat) : d.regsOnly (e.set f v) :=
  (show e.set f v = { e with regs := (e.set f v).regs } from rfl).trans (by rw [show e = _ from h])

theorem Dev.regsOnly_foldl {α : Type} {f : Dev → α → Dev} (hf : ∀ e x, d.regsOnly e → d.regsOnly (f e x)) (l : List α) (h : d.regsOnly e) :
    d.regsOnly (l.foldl f e) :=
  List.foldlRecOn (motive := fun e : Dev => d.regsOnly e) l f h fun e he x _ => hf e x he

theorem Dev.regsOnly_loadChannels (d : Dev) : d.regsOnly d.loadChannels := by
  unfold Dev.loadChannels
  extract_lets b g
  refine Dev.regsOnly_foldl (fun e i he => Dev.regsOnly_set (Dev.regsOnly_set he _ _) _ _) _ ?_
  refine Dev.regsOnly_foldl (fun e n he => ?_) _ d.regsOnly_refl
  refine Dev.regsOnly_foldl (fun e t he => Dev.regsOnly_set he _ _) _ ?_
  repeat refine Dev.regsOnly_set ?_ _ _
  exact he

theorem Dev.hfmOnly_foldl {α : Type} {f : Dev → α → Dev} (hf : ∀ e x, Dev.hfmOnly e (f e x)) (l : List α) (d : Dev) : d.hfmOnly (l.foldl f d) :=
  List.foldlRecOn (motive := fun e : Dev => d.hfmOnly e) l f d.hfmOnly_refl fun e he x _ => Dev.hfmOnly_trans he (hf e x)

theorem Dev.hfmOnly_sendChannels (d : Dev) : d.hfmOnly d.sendChannels := by
  unfold Dev.sendChannels
  extract_lets b enabled
  refine Dev.hfmOnly_trans (b := enabled) (Dev.hfmOnly_foldl (fun e m => e.hfmOnly_hfmWrite m _ _) _ _) (Dev.hfmOnly_foldl (fun e n => ?_) _ _)
  exact Dev.hfmOnly_trans (e.hfmOnly_hfmWrite _ _ _) (Dev.hfmOnly_trans (Dev.hfmOnly_hfmWrite _ _ _ _) (Dev.hfmOnly_hfmWrite _ _ _ _))

theorem Dev.get_shots (d : Dev) (es : List Entry) (n : Cnt) (ps : List Pool) (f : Fld) :
    ({ d with pos := { d.pos with entries := es }, cnt := n, pools := ps } : Dev).get f = d.get f := by cases d; rfl

/-- The four drivers, enabled one by one. -/
theorem drivers_enabled : ∀ w < 16, [0, 1, 2, 3].foldl (fun w g => (w ||| 2 ^ g) % 16) w = 15 := by decide

theorem Dev.enableDrivers_spec (d : Dev) :
    d.transportOnly (d.enableDrivers [0, 1, 2, 3]) ∧ (d.enableDrivers [0, 1, 2, 3]).pos = d.pos
      ∧ (d.enableDrivers [0, 1, 2, 3]).get F.mdrStatusGdEn = 15
      ∧ ∀ f : Fld, f.addr ≠ F.mdrStatusGdEn.addr → (d.enableDrivers [0, 1, 2, 3]).get f = d.get f := by
  have hfold : ∀ (l : List Nat) (d : Dev),
      let e := l.foldl (fun d g => d.set F.mdrStatusGdEn (d.get F.mdrStatusGdEn ||| 2 ^ g)) d
      d.regsOnly e ∧ e.get F.mdrStatusGdEn = l.foldl (fun w g => (w ||| 2 ^ g) % 16) (d.get F.mdrStatusGdEn)
        ∧ ∀ f : Fld, f.addr ≠ F.mdrStatusGdEn.addr → e.get f = d.get f := by
    intro l
    induction l with
    | nil => exact fun d => ⟨d.regsOnly_refl, rfl, fun _ _ => rfl⟩
    | cons g l ih =>
      intro d
      obtain ⟨honly, hget, hother⟩ := ih (d.set F.mdrStatusGdEn (d.get F.mdrStatusGdEn ||| 2 ^ g))
      refine ⟨?_, ?_, fun f hf => (hother f hf).trans (Dev.get_set_addr _ _ _ _ hf)⟩
      · exact honly.trans (by rfl)
      · rw [List.foldl_cons, List.foldl_cons, hget, Dev.get_set_same _ _ _ (by decide)]
        rfl
  obtain ⟨honly, hget, hother⟩ := hfold [0, 1, 2, 3] d
  unfold Dev.enableDrivers
  dsimp only at honly hget hother ⊢
  generalize [0, 1, 2, 3].foldl (fun d g => Dev.set d F.mdrStatusGdEn (d.get F.mdrStatusGdEn ||| 2 ^ g)) d = e at *
  have he : d.transportOnly e := by
    rw [show e = _ from honly]
    rfl
  exact ⟨Dev.transportOnly_trans he rfl, (congrArg Dev.pos honly :), (Dev.get_mdr _ _ _).trans (hget.trans (drivers_enabled _ (d.get_lt _))),
    fun f hf => (Dev.get_mdr _ _ _).trans (hother f hf)⟩

/-- What the beginning of a LOAD touches. -/
def Dev.loadOnly (d e : Dev) : Prop :=
  e = { d with
    regs := e.regs, tce := e.tce, mdr := e.mdr, pos := e.pos, cnt := e.cnt, pools := e.pools, out := e.out, chan := e.chan, ecc := e.ecc }

theorem Dev.loadOnly_trans (h : d.loadOnly e) (k : e.loadOnly f) : d.loadOnly f := by
  unfold Dev.loadOnly at *
  rw [k, h]

theorem Dev.loadOnly_of_transport (h : d.transportOnly e) : d.loadOnly e := by
  unfold Dev.loadOnly
  rw [show e = _ from h]

theorem Dev.loadOnly_of_regs (h : d.regsOnly e) : d.loadOnly e := by
  unfold Dev.loadOnly
  rw [show e = _ from h]

theorem Dev.loadOnly_of_hfm (h : d.hfmOnly e) : d.loadOnly e := by
  unfold Dev.loadOnly
  rw [show e = _ from h]

/-- The drivers are on, no channel is enabled, and the position is unset. -/
structure Dev.begunLoad (d e : Dev) : Prop where
  only : d.loadOnly e
  channels : e.chan.groupsOn = 0
  mode : e.pos.mode = .unset
  stops : e.get F.tceStatusStops = 0
  drivers : e.get F.mdrStatusGdEn = 15

theorem Dev.begunLoad_beginLoad (d : Dev) : d.begunLoad d.beginLoad := by
  unfold Dev.beginLoad
  extract_lets sent _ _ _ _ fresh shotless
  have hsent : d.loadOnly sent := Dev.loadOnly_trans (Dev.loadOnly_of_regs d.regsOnly_loadChannels) (Dev.loadOnly_of_hfm (Dev.hfmOnly_sendChannels _))
  clear_value sent
  have hfresh : d.loadOnly fresh ∧ fresh.chan.groupsOn = 0 := ⟨Dev.loadOnly_trans hsent rfl, rfl⟩
  clear_value fresh
  have hshotless : d.loadOnly shotless ∧ shotless.chan.groupsOn = 0 ∧ shotless.pos.mode = .unset ∧ shotless.get F.tceStatusStops = 0 := by
    obtain ⟨regs, hmode⟩ := (fresh.goMode_spec .unset).1
    have hstops : ((fresh.goMode .unset).set F.tceStatusStops 0).get F.tceStatusStops = 0 := Dev.get_set_same _ _ _ (by decide)
    have honly : fresh.loadOnly ((fresh.goMode .unset).set F.tceStatusStops 0) :=
      Dev.loadOnly_of_transport (Dev.transportOnly_trans (fresh.transportOnly_goMode .unset) (Dev.transportOnly_set _ _ _))
    have hchan : ((fresh.goMode .unset).set F.tceStatusStops 0).chan = fresh.chan := by rw [Dev.set_chan, hmode]
    have hunset : ((fresh.goMode .unset).set F.tceStatusStops 0).pos.mode = .unset := by rw [Dev.set_pos, hmode]
    unfold shotless
    generalize (fresh.goMode .unset).set F.tceStatusStops 0 = f at *
    obtain ⟨entries, cnt, pools, hshots⟩ := f.cancelShots_eq
    rw [hshots]
    exact ⟨Dev.loadOnly_trans hfresh.1 (Dev.loadOnly_trans honly rfl), by rw [hchan, hfresh.2], hunset, (Dev.get_shots _ _ _ _ _).trans hstops⟩
  clear_value shotless
  obtain ⟨hto, hpos, hon, hother⟩ := shotless.enableDrivers_spec
  generalize shotless.enableDrivers [0, 1, 2, 3] = e at *
  obtain ⟨honly, hchan, hmode, hstops⟩ := hshotless
  have hechan : e.chan = shotless.chan := (congrArg Dev.chan hto :)
  exact ⟨Dev.loadOnly_trans honly (Dev.loadOnly_of_transport hto), by rw [hechan, hchan], by rw [hpos, hmode], (hother _ (by decide)).trans hstops, hon⟩

/-! ## LOAD and UNLOAD where they begin, and where they find their work done -/

section
variable {s : State} {env : LoadEnv} (halone : s.dev.alone c k q) (hflag : s.dev.flag F.glbCobblerRestarting = false)
include halone hflag

theorem runs_load_begins (hbar : s.dev.motionBar = none) (hdev : s.dev.glb.dev ≠ .maintenance) (hop : c.opcode = opLoad)
    (hphase : c.phase = .dispatched) (hload : s.dev.cart.loaded = false) (hpresent : env.present = true) :
    Runs (.load c.h env) s fun t => t.dev.cqm.cmds = [{ c with phase := .started, motion := true }] ∧ t.dev.chan.groupsOn = 0
      ∧ t.dev.pos.mode = .unset ∧ t.dev.get F.tceStatusStops = 0 ∧ t.dev.get F.mdrStatusGdEn = 15 ∧ s.memoriesStand t := by
  refine ⟨_, exec_load _ _ s, ?_⟩
  have hready := Dev.ready?_alone halone (.inl hphase)
  obtain ⟨hcmds, hmem, hcalm⟩ := Dev.modCmd_begun halone
  have hbegins : s.dev.load c.h env = (s.dev.modCmd c.h Cmd.begun).beginLoad := by
    rw [Dev.load, ← hop, hready]
    simp only [hflag, hdev, hphase, hload, hpresent, hbar, Bool.false_or, beq_iff_eq, if_false, Bool.false_eq_true, Bool.not_true]
    exact congrArg Dev.beginLoad rfl
  rw [hbegins]
  generalize s.dev.modCmd c.h Cmd.begun = m at *
  obtain ⟨honly, hchan, hmode, hstops, hdrivers⟩ := m.begunLoad_beginLoad
  generalize m.beginLoad = e at *
  have hcqm : e.cqm = m.cqm := (congrArg Dev.cqm honly :)
  have hkeep : m.sameMemories e :=
    ⟨(congrArg Dev.ddr honly :), (congrArg Dev.nor honly :), (congrArg Dev.feram honly :), (congrArg Dev.cobMem honly :)⟩
  have hecalm : e.calm = true :=
    (Dev.calm_of_states (congrArg Dev.glb honly :) (congrArg (fun d : Dev => d.hpt.conns.map Conn.st) honly :)).trans hcalm
  have hhost := Dev.hostOnly_hostSettle _ hecalm
  obtain ⟨-, -, -, -, hpos, -⟩ := Dev.still_of_hostOnly hhost
  have hsettled : e.hostSettle.chan = e.chan := (congrArg Dev.chan hhost.1 :)
  refine ⟨by rw [Dev.hostOnly_cqm hhost, hcqm]; exact hcmds, by rw [hsettled, hchan], by rw [hpos, hmode],
    (Dev.hostOnly_get hhost (by decide)).trans hstops, (Dev.hostOnly_get hhost (by decide)).trans hdrivers, ?_⟩
  exact State.memoriesStand_of_same (t := { s with dev := _ })
    (Dev.sameMemories_trans hmem (Dev.sameMemories_trans hkeep (Dev.sameMemories_of_hostOnly hhost)))

theorem runs_load_done (hdev : s.dev.glb.dev ≠ .maintenance) (hop : c.opcode = opLoad) (hphase : c.phase = .dispatched)
    (hload : s.dev.cart.loaded = true) : Runs (.load c.h env) s (·.toldGood s.dev c k true s.dev.loadResult) := by
  refine ⟨_, exec_load _ _ s, ?_⟩
  have hready := Dev.ready?_alone halone (.inl hphase)
  have hdone : s.dev.load c.h env = s.dev.finish c.h stGood s.dev.loadResult true := by
    rw [Dev.load, ← hop, hready]
    simp [hflag, hdev, hphase, hload]
  rw [hdone]
  exact State.toldGood_finish halone s s.dev rfl true s.dev.loadResult

theorem runs_unload_done {zone : ZoneEnv} (hop : c.opcode = opUnload) (hphase : c.phase = .dispatched) (hload : s.dev.cart.loaded = false) :
    Runs (.unload c.h zone .arrived) s (·.toldGood s.dev c k true []) := by
  refine ⟨_, exec_unload _ _ _ s, ?_⟩
  have hready := Dev.ready?_alone halone (.inl hphase)
  have hdone : s.dev.unload c.h zone .arrived = s.dev.finish c.h stGood [] true := by
    rw [Dev.unload, ← hop, hready]
    simp [hflag, hphase, hload]
  rw [hdone]
  exact State.toldGood_finish halone s s.dev rfl true []

theorem runs_load_scans (hdev : s.dev.glb.dev ≠ .maintenance) (hop : c.opcode = opLoad) (hphase : c.phase = .started)
    (hzone : s.dev.zoneBuffer = true) (hgroups : 16 ≤ s.dev.chan.groupsOn) (hboot : s.dev.mdr.boot = []) (hreel0 : 2 ≤ s.dev.reelMode 0)
    (hreel1 : 2 ≤ s.dev.reelMode 1) (hscan : s.dev.startsScan env = true) :
    Runs (.load c.h env) s fun t => t.dev.cqm = s.dev.cqm ∧ t.dev.plc = { s.dev.plc with scanning := true } ∧ s.memoriesStand t := by
  refine ⟨_, exec_load _ _ s, ?_⟩
  have hready := Dev.ready?_alone halone (.inr hphase)
  have hscans : s.dev.load c.h env = s.dev.modPlc fun p => { p with scanning := true } := by
    rw [Dev.load, ← hop, hready]
    simp [hflag, hdev, hphase, hzone, hboot, hreel0, hreel1, hscan, Nat.not_lt.mpr hgroups]
  rw [hscans]
  have hhost := Dev.hostOnly_hostSettle (s.dev.modPlc fun p => { p with scanning := true }) (Dev.alone_calm halone)
  obtain ⟨-, -, hplc, -⟩ := Dev.still_of_hostOnly hhost
  have hkeep : s.dev.sameMemories (s.dev.modPlc fun p => { p with scanning := true }) := ⟨rfl, rfl, rfl, rfl⟩
  refine ⟨by rw [Dev.hostOnly_cqm hhost]; rfl, by rw [hplc]; rfl, ?_⟩
  exact State.memoriesStand_of_same (t := { s with dev := _ }) (Dev.sameMemories_trans hkeep (Dev.sameMemories_of_hostOnly hhost))

end

end Sys2Proof.Machine
end

section
/-!
SUPPORT. What leaves the commands, the device's state and the closed feedback loops as they stand, once LOAD has closed them (R381).
-/
namespace Sys2Proof.Machine

variable {d e f : Dev}

/-- The face, whether appending has stopped apart, and the closed loops stand. -/
def Dev.steady (d e : Dev) : Prop := e.face.appending = d.face.appending ∧ e.get F.tceLoopCtrlClosed = d.get F.tceLoopCtrlClosed

theorem Dev.steady_refl (d : Dev) : d.steady d := ⟨rfl, rfl⟩
theorem Dev.steady_trans (h : d.steady e) (k : e.steady f) : d.steady f := ⟨k.1.trans h.1, k.2.trans h.2⟩

theorem Dev.steady_of (hface : e.face = d.face) (hword : e.word F.tceLoopCtrlClosed.addr = d.word F.tceLoopCtrlClosed.addr) : d.steady e :=
  ⟨congrArg Face.appending hface, congrArg F.tceLoopCtrlClosed.of hword⟩

theorem Dev.steady_set (d : Dev) {g : Fld} (v : Nat) (hg : F.tceLoopCtrlClosed.addr ≠ g.addr) : d.steady (d.set g v) :=
  Dev.steady_of (d.face_set g v) (d.word_set_other g v hg)

theorem Dev.steady_putWord (d : Dev) {a : Nat} (w : Word) (ha : F.tceLoopCtrlClosed.addr ≠ a) : d.steady (d.putWord a w) :=
  Dev.steady_of (d.face_putWord a w) (d.word_putWord_other w ha)

theorem Dev.steady_bump (d : Dev) {a : Nat} (ha : F.tceLoopCtrlClosed.addr ≠ a) : d.steady (d.bump a) :=
  Dev.steady_of (d.face_bump a) (Dev.word_bumpBy_other d a 1 ha)

theorem Dev.steady_emit (d : Dev) (o : Out) : d.steady (d.emit o) := Dev.steady_of (d.face_emit o) (by cases d; rfl)
theorem Dev.steady_ecc (d : Dev) (t : Ecc) : d.steady { d with ecc := t } := Dev.steady_of (d.face_ecc t) (by cases d; rfl)
theorem Dev.steady_tce (d : Dev) (t : Tce) : d.steady { d with tce := t } := Dev.steady_of (d.face_tce t) (by cases d; rfl)
theorem Dev.steady_chan (d : Dev) (t : Chan) : d.steady { d with chan := t } := Dev.steady_of (d.face_chan t) (by cases d; rfl)
theorem Dev.steady_feram (d : Dev) (m : Memory) : d.steady { d with feram := m } := by cases d; exact ⟨rfl, rfl⟩
theorem Dev.steady_putFeram (d : Dev) (a : Nat) (bs : List Byte) : d.steady (d.putFeram a bs) := d.steady_feram _
theorem Dev.steady_fresh (d : Dev) : d.steady d.fresh.2 := by cases d; exact ⟨rfl, rfl⟩

theorem Dev.steady_ite {p : Prop} [Decidable p] {a b : Dev} (ha : d.steady a) (hb : d.steady b) : d.steady (if p then a else b) := by
  split
  · exact ha
  · exact hb

theorem Dev.steady_foldl {α : Type} {f : Dev → α → Dev} {l : List α} (h : ∀ d, ∀ x ∈ l, Dev.steady d (f d x)) (d : Dev) : d.steady (l.foldl f d) :=
  List.foldlRecOn (motive := fun e : Dev => d.steady e) l f d.steady_refl fun e he x hx => Dev.steady_trans he (h e x hx)

theorem Dev.steady_log (d : Dev) (y : LogEntry) : d.steady (d.log y) := Dev.steady_of (d.face_log y) (d.word_log_other y (by decide))
theorem Dev.steady_notice (d : Dev) (code : Nat) (es : List (List Byte)) : d.steady (d.notice code es) :=
  Dev.steady_of (d.face_notice code es) (d.word_notice code es _)

theorem Dev.steady_event (d : Dev) (code : Nat) : d.steady (d.event code) := Dev.steady_trans (d.steady_log _) (Dev.steady_notice _ _ _)

theorem Dev.steady_fault (d : Dev) {g : Fld} (hg : F.tceLoopCtrlClosed.addr ≠ g.addr) : d.steady (d.fault g) := by
  unfold Dev.fault
  extract_lets low set
  have hset : d.steady set := d.steady_set 1 hg
  clear_value set
  exact Dev.steady_ite (Dev.steady_trans hset (set.steady_emit _)) hset

/-! ## The dead-track limit -/

/-- No FLUSH waits and no UNLOAD has begun. -/
def Dev.unfailing (d : Dev) : Prop := d.cqm.waits = [] ∧ ∀ c ∈ d.cqm.cmds, c.opcode ≠ opUnload

theorem Dev.unfailing_congr (hwaits : e.cqm.waits = d.cqm.waits) (hcmds : e.cqm.cmds = d.cqm.cmds) (h : d.unfailing) : e.unfailing := by
  rw [Dev.unfailing, hwaits, hcmds]
  exact h

theorem Dev.unfailing_of_face (h : e.face.appending = d.face.appending) (hd : d.unfailing) : e.unfailing :=
  Dev.unfailing_congr (congrArg Face.waits h :) (congrArg Face.cmds h :) hd

theorem Dev.steady_judgeStop (h : d.unfailing) : d.steady d.judgeStop := by
  obtain ⟨hwaits, hcmds⟩ := h
  have hnone : d.failsStopped = [] := by
    rw [Dev.failsStopped, hwaits, List.map_nil, List.nil_append, List.map_eq_nil_iff, List.filter_eq_nil_iff]
    exact fun c hc => by simp [hcmds c hc]
  obtain hstop | ⟨e, st, det, -, hword, hstop⟩ := d.judgeStop_eq
  · rw [hstop]
    exact d.steady_refl
  · have hface := d.face_judgeStop hwaits hcmds
    rw [hstop, hnone] at hface ⊢
    exact Dev.steady_of hface (hword _ (by decide) (by decide))

/-- The dead-track limit, without a session (R175). -/
theorem Dev.steady_judgeDead (hsession : d.plc.session = none) (h : d.unfailing) : d.steady d.judgeDead := by
  unfold Dev.judgeDead
  split
  · exact d.steady_refl
  · extract_lets _ limited told
    have htold : d.steady told := Dev.steady_trans (d.steady_ecc _) <| Dev.steady_trans (Dev.steady_set _ _ (by decide)) <|
      Dev.steady_trans (Dev.steady_fault _ (by decide)) (Dev.steady_event _ _)
    clear_value told
    unfold Dev.stopEnding
    split
    · exact htold
    · have hses : told.plc.session = none := (congrArg Face.session htold.1 :).trans hsession
      have hfresh : told.steady (told.modPlc fun p => { p with stopped := some 0x0300, judged := false }) := ⟨rfl, rfl⟩
      dsimp only
      rw [if_neg (by simpa [Dev.modPlc] using hses)]
      generalize told.modPlc (fun p => { p with stopped := some 0x0300, judged := false }) = f at *
      have hf := Dev.steady_trans htold hfresh
      exact Dev.steady_trans hf (Dev.steady_judgeStop (Dev.unfailing_of_face hf.1 h))

theorem Dev.steady_warned (d : Dev) (w : Bool) : d.steady (d.modPlc fun p => { p with warned := w }) := by cases d; exact ⟨rfl, rfl⟩

theorem Dev.steady_checkCapacity (d : Dev) : d.steady d.checkCapacity := by
  unfold Dev.checkCapacity
  extract_lets low
  split
  · exact Dev.steady_trans (d.steady_set 1 (by decide)) (Dev.steady_trans (Dev.steady_warned _ true) (Dev.steady_event _ _))
  · exact Dev.steady_ite d.steady_refl (d.steady_warned false)

end Sys2Proof.Machine
end

section
/-!
SUPPORT. LOAD ends (R93, R242, R319, R381, R493): the insole is read, the loops close, and the tape stands.
-/
namespace Sys2Proof.Machine

variable {d e f : Dev} {c : Cmd} {k : Conn} {q : Queue}

/-! ## The self-calibration of a LOAD (R493) -/

theorem Dev.steady_store (d : Dev) {a : Nat} (v m : Word) (ha : F.tceLoopCtrlClosed.addr ≠ a) : d.steady (d.store a v m) := by
  unfold Dev.store
  split
  · exact d.steady_refl
  · exact Dev.steady_ite d.steady_refl (d.steady_putWord _ ha)

theorem Dev.steady_hfmWrite (d : Dev) (m a v : Nat) : d.steady (d.hfmWrite m a v) :=
  Dev.steady_trans (d.steady_chan _) (Dev.steady_emit _ _)

theorem Dev.steady_applyFound (d : Dev) (x : CalFound) : d.steady (d.applyFound false x) := by
  unfold Dev.applyFound
  extract_lets stored sent
  have hstored : d.steady stored := Dev.steady_foldl (fun e v hv => e.steady_store _ _ fun heq => by
    have hcal : calRegister false v.1 = true := (List.mem_filter.mp hv).2
    rw [← heq] at hcal
    exact absurd hcal (by decide)) d
  clear_value stored
  have hsent : d.steady sent := Dev.steady_trans hstored (Dev.steady_foldl (fun e v _ => e.steady_hfmWrite _ _ _) _)
  clear_value sent
  exact Dev.steady_ite hsent (Dev.steady_trans hsent (sent.steady_chan _))

theorem Dev.steady_syncCal (d : Dev) : d.steady d.syncCal :=
  Dev.steady_trans (d.steady_set _ (by decide)) <| Dev.steady_trans (Dev.steady_set _ _ (by decide)) <|
    Dev.steady_trans (Dev.steady_set _ _ (by decide)) (Dev.steady_set _ _ (by decide))

theorem Dev.steady_amend (d : Dev) : d.steady d.amend := by
  unfold Dev.amend
  extract_lets n
  generalize d.makeAmendment n = r
  have hset : d.steady (d.set F.secStatusAmend n) := d.steady_set _ (by decide)
  refine Dev.steady_trans hset ?_
  unfold Dev.logRecord
  extract_lets last i
  exact Dev.steady_trans (Dev.steady_putFeram _ _ _) (Dev.steady_trans (Dev.steady_set _ _ (by decide)) (Dev.steady_set _ _ (by decide)))

theorem Dev.steady_storeSet (d : Dev) (set : List Byte) (readBack : Bool) : d.steady (d.storeSet set readBack).2 := by
  unfold Dev.storeSet
  extract_lets put
  have hput : d.steady put := Dev.steady_trans (d.steady_putFeram 65528 (leBytes 8 0)) (Dev.steady_putFeram _ 0 (fitTo 65528 set))
  clear_value put
  split
  · have hword := put.steady_putFeram 65528 (commitWord put.calSet)
    generalize put.putFeram 65528 (commitWord put.calSet) = w at *
    dsimp only
    exact Dev.steady_trans hput (Dev.steady_trans hword (Dev.steady_trans w.steady_syncCal (Dev.steady_amend _)))
  · exact Dev.steady_trans hput put.steady_syncCal

theorem Dev.steady_storeNow (d : Dev) (source : Nat) (readBack : Bool) : d.steady (d.storeNow source readBack).2 := by
  unfold Dev.storeNow
  extract_lets old seq
  generalize makeSet source seq d.glb.bootCount d.bodiesNow = set
  exact d.steady_storeSet set readBack

/-- `storeNow` stands for an opaque function here: the kernel would evaluate the set that is stored. -/
theorem Dev.steady_loadCalibrate (d : Dev) (found : Option CalFound) : d.steady (d.loadCalibrate found) := by
  have hstore := @Dev.steady_storeNow
  obtain ⟨storeNow, hs⟩ : ∃ f, Dev.storeNow = f := ⟨_, rfl⟩
  rw [hs] at hstore
  unfold Dev.loadCalibrate
  rw [hs]
  refine Dev.steady_ite d.steady_refl ?_
  split
  · exact d.steady_refl
  next x => exact Dev.steady_trans (d.steady_applyFound x) (hstore _ 2 true)

/-! ## The tape stands -/

theorem Dev.steady_showRadii (d : Dev) : d.steady d.showRadii :=
  Dev.steady_trans (d.steady_set _ (by decide)) (Dev.steady_set _ _ (by decide))

/-! ## The insole is read -/

theorem Dev.appending_modPlc (d : Dev) {g : Plc → Plc} (h : (g d.plc).session = d.plc.session) : (d.modPlc g).face.appending = d.face.appending := by
  have hpart : (d.modPlc g).face.appending = { d.face.appending with session := (g d.plc).session } := rfl
  rw [hpart, h]
  rfl

/-- The insole gives the cartridge, and no session is open (R242, R243). -/
theorem Dev.face_readInsole (d : Dev) (env : LoadEnv) (ro : Bool) : ∃ cart : Cart, cart.loaded = true ∧ cart.readOnly = ro
    ∧ (d.readInsole env ro).face.appending = { d.face.appending with cart := cart, session := none } := by
  have hread := d.face_readZone env.parts
  unfold Dev.readInsole
  generalize d.readZone env.parts = r at *
  obtain ⟨parts, g⟩ := r
  dsimp -zeta only at hread ⊢
  extract_lets series ix last scan _ found scanned headed after set _ chosen full shown
  refine ⟨⟨true, ro, scan, env.pack⟩, rfl, rfl, ?_⟩
  have hfound : found.face.appending = { d.face.appending with cart := ⟨true, ro, scan, env.pack⟩, session := none } := by
    rw [← hread]
    rfl
  clear_value found
  have hscanned : scanned.face = found.face := Dev.face_ite (Dev.face_scan _ _) rfl
  clear_value scanned
  have hheaded : headed.face = found.face := by
    unfold headed
    split
    · exact (Dev.face_modPlc _ rfl rfl).trans hscanned
    · exact hscanned
  clear_value headed
  have hchosen : chosen.face = found.face := (Dev.face_cas _ _).trans hheaded
  clear_value chosen
  have hshown : shown.face.appending = found.face.appending := (Dev.appending_modPlc _ rfl).trans (congrArg Face.appending hchosen)
  clear_value shown
  rw [Dev.face_set, hshown, hfound]

theorem Dev.face_ensureSet (d : Dev) : d.ensureSet.face = d.face := by
  unfold Dev.ensureSet
  exact Dev.face_ite rfl ((Dev.face_cas _ _).trans ((Dev.face_fresh _).trans (Dev.face_fresh _)))

theorem Dev.appending_zoneCommit (hsession : d.plc.session = none) (h : d.unfailing) (extra : List (List Byte)) (reserve : Bool) (env : ZoneEnv) :
    (d.zoneCommit extra reserve env).face.appending = d.face.appending := by
  obtain ⟨g, hg, hcommit⟩ := Dev.zoneCommit_eq hsession extra reserve env
  obtain hcommit | hcommit := hcommit
  · rw [hcommit, hg]
  · obtain ⟨f, hf, -, hstop⟩ := Dev.stopNow_eq ((congrArg Face.session hg).trans hsession) 0x0318
    have hfd : f.face.appending = d.face.appending := hf.trans (congrArg Face.appending hg)
    rw [hcommit, hstop, (Dev.steady_judgeStop (Dev.unfailing_of_face hfd h)).1, hfd]

/-! ## The loops close, and the tape stands -/

theorem Dev.face_of_loops (h : d.loopsOnly e) : e.face = d.face := by
  rw [h.1]
  rfl

theorem Dev.steady_closeGate (d : Dev) : d.steady d.closeGate := by
  unfold Dev.closeGate
  exact Dev.steady_ite (Dev.steady_trans (d.steady_set _ (by decide)) (Dev.steady_emit _ _)) d.steady_refl

/-- A new position state shows in its mode alone. -/
theorem Dev.face_pos (d : Dev) (p : Pos) : ({ d with pos := p } : Dev).face.appending = { d.face.appending with mode := p.mode }
    ∧ ({ d with pos := p } : Dev).get F.tceLoopCtrlClosed = d.get F.tceLoopCtrlClosed := by
  cases d
  exact ⟨rfl, rfl⟩

theorem Dev.face_goMode (d : Dev) (m : PosMode) : (d.goMode m).face.appending = { d.face.appending with mode := m }
    ∧ (d.goMode m).get F.tceLoopCtrlClosed = d.get F.tceLoopCtrlClosed := by
  obtain ⟨⟨regs, hmode⟩, hword⟩ := d.goMode_spec m
  refine ⟨?_, congrArg F.tceLoopCtrlClosed.of (hword _ (by decide))⟩
  rw [hmode, ← (d.face_pos { d.pos with mode := m }).1]
  exact congrArg Face.appending (Dev.face_regs { d with pos := { d.pos with mode := m } } regs)

/-- The tape stands, position in the count state (R93, R318). -/
theorem Dev.standAt_spec (d : Dev) (at_ : Int) : (d.standAt at_).face.appending = { d.face.appending with mode := .count }
    ∧ (d.standAt at_).get F.tceLoopCtrlClosed = d.get F.tceLoopCtrlClosed := by
  unfold Dev.standAt
  extract_lets _ still _ pos clean _
  have hgate : d.steady still.closeGate := Dev.steady_trans (d.steady_tce _) still.steady_closeGate
  have hclean : clean.face.appending = { still.closeGate.face.appending with mode := pos.mode } ∧ clean.get F.tceLoopCtrlClosed = still.closeGate.get F.tceLoopCtrlClosed :=
    Dev.face_pos _ _
  generalize still.closeGate = g at *
  clear_value clean
  obtain ⟨hface, hget⟩ := clean.face_goMode .count
  generalize clean.goMode .count = m at *
  obtain ⟨hsface, hsget⟩ := Dev.steady_trans (m.steady_set (g := F.posTposTpos) (unsigned 48 (512 * at_)) (by decide)) (Dev.steady_bump _ (a := C.tcePgTarget) (by decide))
  refine ⟨hsface.trans ?_, hsget.trans (hget.trans (hclean.2.trans hgate.2))⟩
  rw [hface, hclean.1, hgate.1]

/-! ## LOAD ends -/

/-- A cartridge is loaded: the insole's, no session open, every slot closed and position in the count state. -/
structure Dev.loadedFrom (ro : Bool) (d e : Dev) : Prop where
  face : ∃ cart : Cart, cart.loaded = true ∧ cart.readOnly = ro
    ∧ e.face.appending = { d.face.appending with cart := cart, session := none, mode := .count }
  loops : e.get F.tceLoopCtrlClosed = 255

theorem Dev.endLoad_eq {env : LoadEnv} (hunfailing : d.unfailing) (hbar : d.motionBar = none) (hmotion : env.motion = .arrived)
    (hztf : env.ztf1 = true) (hset : env.setOk = true) : ∃ (e : Dev) (det : List Byte), d.loadedFrom (bitAt (c.par 16 1) 0) e
      ∧ d.endLoad c env = ((e.goState .loaded).tellMembers .load).finish c.h stGood det := by
  obtain ⟨cart, hloaded, hro, hread⟩ := d.face_readInsole env (bitAt (c.par 16 1) 0)
  have harrived : (none : Option (List Byte)).or (motionDetail .arrived) = none := rfl
  have hgood : (!env.ztf1 || (d.casMode == 2 && !env.setOk)) = false := by rw [hztf, hset, Bool.not_true, Bool.and_false, Bool.or_false]
  unfold Dev.endLoad
  rw [hbar, hmotion, harrived]
  dsimp -zeta only
  rw [hgood, if_neg Bool.false_ne_true]
  extract_lets ro read chosen extra committed closed calibrated shown judged stands
  have hread' : read.face.appending = { d.face.appending with cart := cart, session := none } := hread
  clear_value read
  have hchosen : chosen.face.appending = read.face.appending := congrArg Face.appending read.face_ensureSet
  clear_value chosen
  have hready : chosen.plc.session = none ∧ chosen.unfailing := by
    have hface := hchosen.trans hread'
    exact ⟨(congrArg Face.session hface :), Dev.unfailing_congr (congrArg Face.waits hface :) (congrArg Face.cmds hface :) hunfailing⟩
  have hcommitted : committed.face.appending = chosen.face.appending := by
    unfold committed
    split
    · exact Dev.appending_zoneCommit hready.1 hready.2 extra true env.zone
    · rfl
  clear_value committed
  obtain ⟨hloops, hclosed⟩ := Dev.foldl_setClosed_spec true closeOrder (by decide) committed
  have hshut : closed.face.appending = committed.face.appending ∧ closed.get F.tceLoopCtrlClosed = 255 :=
    ⟨congrArg Face.appending (Dev.face_of_loops hloops), hclosed.trans (closeOrder_closes _ (committed.get_lt _))⟩
  clear_value closed
  have hshown : closed.steady shown.fresh.2 := by
    have hcalibrated : closed.steady calibrated := closed.steady_loadCalibrate env.cal
    clear_value calibrated
    exact Dev.steady_trans hcalibrated <| Dev.steady_trans (Dev.steady_set _ _ (by decide)) <| Dev.steady_trans (Dev.steady_set _ _ (by decide)) <|
      Dev.steady_trans (Dev.steady_showRadii _) (Dev.steady_fresh _)
  have hstood := shown.fresh.2.standAt_spec (shown.fresh.1.toNat % 140508000)
  unfold stands judged
  generalize shown.fresh.2.standAt (shown.fresh.1.toNat % 140508000) = s at *
  have hsface : s.face.appending = { d.face.appending with cart := cart, session := none, mode := .count } := by
    rw [hstood.1, hshown.1, hshut.1, hcommitted, hchosen, hread']
  have hjudged : s.steady s.judgeDead := Dev.steady_judgeDead (congrArg Face.session hsface :)
    (Dev.unfailing_congr (congrArg Face.waits hsface :) (congrArg Face.cmds hsface :) hunfailing)
  generalize s.judgeDead = j at *
  have hlast := Dev.steady_trans hjudged (Dev.steady_trans (j.steady_set (g := F.plcCapacityRemainDs) j.remainDs (by decide)) (Dev.steady_checkCapacity _))
  generalize (j.set F.plcCapacityRemainDs j.remainDs).checkCapacity = e at *
  refine ⟨e, e.loadResult, ⟨⟨cart, hloaded, hro, ?_⟩, ?_⟩, rfl⟩
  · rw [hlast.1, hsface]
  · rw [hlast.2, hstood.2, hshown.2, hshut.2]

theorem runs_load_ends {s : State} {env : LoadEnv} (halone : s.dev.alone c k q) (hbar : s.dev.motionBar = none)
    (hflag : s.dev.flag F.glbCobblerRestarting = false) (hdev : s.dev.glb.dev ≠ .maintenance) (hop : c.opcode = opLoad)
    (hphase : c.phase = .started) (hzone : s.dev.zoneBuffer = true) (hgroups : 16 ≤ s.dev.chan.groupsOn) (hboot : s.dev.mdr.boot = [])
    (hreel0 : 2 ≤ s.dev.reelMode 0) (hreel1 : 2 ≤ s.dev.reelMode 1) (hmotion : env.motion = .arrived) (hztf : env.ztf1 = true)
    (hset : env.setOk = true) (hwaits : s.dev.cqm.waits = []) (hscan : s.dev.startsScan env = false) :
    Runs (.load c.h env) s fun t => t.dev.cqm.cmds = c.left ∧ t.dev.glb.dev = .loaded ∧ t.dev.cart.loaded = true
      ∧ t.dev.cart.readOnly = bitAt (c.par 16 1) 0 ∧ t.dev.get F.tceLoopCtrlClosed = 255 ∧ t.dev.pos.mode = .count
      ∧ t.dev.plc.session = none := by
  refine ⟨_, exec_load _ _ s, ?_⟩
  have hready := Dev.ready?_alone halone (.inr hphase)
  have hends : s.dev.load c.h env = s.dev.endLoad c env := by
    rw [Dev.load, ← hop, hready]
    simp [hflag, hdev, hphase, hzone, hboot, hreel0, hreel1, hscan, Nat.not_lt.mpr hgroups]
  have hunfailing : s.dev.unfailing := by
    refine ⟨hwaits, fun x hx => ?_⟩
    obtain ⟨hcmds, -⟩ := halone
    rw [hcmds, List.mem_singleton] at hx
    rw [hx, hop]
    decide
  obtain ⟨e, det, ⟨⟨cart, hloaded, hro, hface⟩, hloops⟩, hend⟩ := Dev.endLoad_eq (c := c) hunfailing hbar hmotion hztf hset
  have hstate := Dev.stateOnly_linkOnly (e.stateOnly_goState .loaded) (Dev.linkOnly_tellMembers _ .load)
  rw [hends, hend]
  generalize (e.goState .loaded).tellMembers .load = f at *
  obtain ⟨glb, cas, out, hf, hglb, hheld⟩ := hstate
  obtain ⟨k', hk'⟩ := Dev.alone_of_conns (e := e) halone (congrArg Face.cmds hface :) (congrArg Face.queues hface :) (congrArg Face.conns hface :)
    (congrArg Face.glb hface :)
  have hfalone : f.alone c k' q := hf ▸ Dev.alone_withState hk' hheld cas out
  have hcmds := congrArg Cqm.cmds (Dev.hostOnly_cqm (Dev.hostOnly_finish_alone hfalone false det))
  obtain ⟨hrest, hword⟩ := Dev.completed_finish hfalone false det
  generalize (f.finish c.h stGood det).hostSettle = t at *
  have hcart : e.cart = cart := (congrArg Face.cart hface :)
  have hmode : e.pos.mode = .count := (congrArg Face.mode hface :)
  have hsession : e.plc.session = none := (congrArg Face.session hface :)
  have hget : t.get F.tceLoopCtrlClosed = e.get F.tceLoopCtrlClosed := by
    rw [Dev.get, Dev.get, hword _ (by decide), hf]
    rfl
  refine ⟨hcmds, ?_, ?_, ?_, hget.trans hloops, ?_, ?_⟩
  · rw [hrest, hf]; exact hglb
  · rw [hrest, hf]; exact hcart ▸ hloaded
  · rw [hrest, hf]; exact hcart ▸ hro
  · rw [hrest, hf]; exact hmode
  · rw [hrest, hf]; exact hsession

/-! ## The cartridge comes and goes -/

/-- Settles O26: LOAD and UNLOAD by their places in the row (they begin, they end, they find their work done), the cartridge's removal by
what is left of it. An UNLOAD whose zone commit stops appending has failed with it and completed before the tape is unthreaded. -/
theorem cartridgeComesAndGoes : Obligations.CartridgeComesAndGoes := by
  unfold Obligations.CartridgeComesAndGoes
  refine ⟨fun s c k q env zone halone hbar hflag hdev => ⟨fun hop => ⟨?_, ?_, ?_, ?_⟩, fun hop => ⟨?_, ?_, ?_⟩⟩,
    fun s hload hcalm => runs_cartridgeEjected hload hcalm⟩
  · exact fun hphase hload hpresent => runs_load_begins halone hflag hbar hdev hop hphase hload hpresent
  · exact fun hphase hzone hgroups hboot h0 h1 _ _ hscan => runs_load_scans halone hflag hdev hop hphase hzone hgroups hboot h0 h1 hscan
  · exact fun hphase hzone hgroups hboot h0 h1 hmotion hztf hset hwaits hscan =>
      runs_load_ends halone hbar hflag hdev hop hphase hzone hgroups hboot h0 h1 hmotion hztf hset hwaits hscan
  · exact fun hphase hload => runs_load_done halone hflag hdev hop hphase hload
  · exact fun hphase hload hsession hstate => runs_unload_begins halone hflag hop hphase hload hsession hstate
  · intro hphase hsession hcommits hreads hzone
    obtain ⟨t, hexec, hcmds, hunloaded, hreadOnly⟩ := runs_unload_ends (zone := zone) halone hbar hflag hop hphase hsession hcommits hreads hzone
    refine ⟨t, hexec, hcmds, fun hnone => ?_, hreadOnly⟩
    obtain ⟨hidle, hcart, hloops, hdrivers, hmode, hchannels, hstreams, hctxs⟩ := hunloaded hnone
    exact ⟨hidle, hcart, hloops, hdrivers, hmode, hchannels, hstreams, hctxs⟩
  · exact fun hphase hload => runs_unload_done halone hflag hop hphase hload

end Sys2Proof.Machine
end

section
/-!
SUPPORT. A slot that passes under the name of a channel beyond 255 (R61, R112, R113, R121): what it leaves of the device, and the bit of
another register in which its loss of timing shows.
-/
namespace Sys2Proof.Machine

variable {d e : Dev}

/-! ## A bit of a field -/

/-- A one-bit field set to 1 inside another field of its register sets that bit there. -/
theorem Fld.of_into_bit (f g : Fld) (w : Word) (hlo : f.lo ≤ g.lo) (hbit : g.width = 1) (hin : g.lo < f.lo + f.width) (hfits : f.fits = true) :
    f.of (g.into w 1) = f.of w ||| 2 ^ (g.lo - f.lo) := by
  have hf : f.lo + f.width ≤ 48 := by simpa [Fld.fits] using hfits
  refine Nat.eq_of_testBit_eq fun i => ?_
  have hinto := Fld.getLsbD_into g w 1 (f.lo + i)
  rw [BitVec.getLsbD] at hinto
  rw [Fld.testBit_of, Nat.testBit_or, Fld.testBit_of, hinto, hbit, Nat.testBit_two_pow]
  by_cases hi : i < f.width
  · by_cases hg : g.lo - f.lo = i
    · have hplace : g.lo ≤ f.lo + i ∧ f.lo + i < g.lo + 1 := by omega
      have hzero : f.lo + i - g.lo = 0 := by omega
      have hword : f.lo + i < 48 := by omega
      simp [hi, hg, hplace, hzero, hword]
    · have hplace : ¬ (g.lo ≤ f.lo + i ∧ f.lo + i < g.lo + 1) := by omega
      have hword : f.lo + i < 48 := by omega
      rw [if_neg hplace]
      simp [hi, hg, hword, BitVec.getLsbD]
  · have hg : g.lo - f.lo ≠ i := by omega
    simp [hi, hg]

/-! ## Timing is lost in a defect -/

/-- Lost timing stays lost for the rest of the slot (R113). -/
theorem Front.lost_block (c : FrontCfg) (signal : List Int) (f : Front) (p : Int) (h : f.lost.isSome = true) :
    (f.block c signal p).lost.isSome = true := by
  obtain ⟨l, hl⟩ := Option.isSome_iff_exists.mp h
  unfold Front.block
  extract_lets xs all ys scan used use loop gone mag f'
  have hf' : f'.lost.isSome = true := by
    change (if gone = true then f.lost.or (some (p + 32)) else f.lost).isSome = true
    rw [hl]
    split <;> rfl
  clear_value f'
  split <;> exact hf'

/-- In a defect the loop does not move, so one that stands past 2 channel bits is lost at once (R113, R114). -/
theorem Front.lost_block_of_defect (c : FrontCfg) (signal : List Int) (f : Front) (p : Int) (hdefect : f.scan.opened.isSome = true)
    (hloop : 128 < f.loop.1.natAbs) : (f.block c signal p).lost.isSome = true := by
  unfold Front.block
  extract_lets xs all ys scan used use loop gone mag f'
  have huse : use = [] := by simp [use, hdefect]
  have hgone : gone = true := by simp [gone, loop, huse, hloop]
  have hf' : f'.lost.isSome = true := by
    change (if gone = true then f.lost.or (some (p + 32)) else f.lost).isSome = true
    rw [hgone]
    cases f.lost <;> rfl
  clear_value f'
  split <;> exact hf'

theorem Front.lost_run (c : FrontCfg) (signal : List Int) :
    ∀ (n : Nat) (p : Int) (f : Front), f.lost.isSome = true → (frontRun c signal n p f).lost.isSome = true
  | 0, _, _, h => h
  | n + 1, p, f, h => Front.lost_run c signal n (p + 32) _ (Front.lost_block c signal f p h)

theorem Front.lost_run_of_defect (c : FrontCfg) (signal : List Int) {n : Nat} (hn : n ≠ 0) (p : Int) (f : Front)
    (hdefect : f.scan.opened.isSome = true) (hloop : 128 < f.loop.1.natAbs) : (frontRun c signal n p f).lost.isSome = true := by
  obtain ⟨m, rfl⟩ := Nat.exists_eq_succ_of_ne_zero hn
  exact Front.lost_run c signal m (p + 32) _ (Front.lost_block_of_defect c signal f p hdefect hloop)

/-- A channel whose defect runs on into the slot, with a loop past 2 channel bits, has no timing in it. -/
theorem Dev.lost_sampleSlot (d : Dev) (slot : Nat) (rev : Bool) (t : TrackSignal) (hdefect : (d.scanFor t.channel slot).opened.isSome = true)
    (hloop : 128 < (d.loopOf t.channel).1.natAbs) : (d.sampleSlot slot rev t).1.lost.isSome = true := by
  unfold Dev.sampleSlot
  extract_lets c f
  have hlost : f.lost.isSome = true := Front.lost_run_of_defect c t.signal (by decide) _ _ hdefect hloop
  clear_value f
  exact hlost

/-! ## What a slot that passes leaves alone -/

/-- Read channels and registers. -/
def Dev.seesOnly (d e : Dev) : Prop := e = { d with chan := e.chan, regs := e.regs }

theorem Dev.seesOnly_refl (d : Dev) : d.seesOnly d := rfl

theorem Dev.seesOnly_trans {f : Dev} (h : d.seesOnly e) (k : e.seesOnly f) : d.seesOnly f := by rw [Dev.seesOnly, k, h]

theorem Dev.seesOnly_set (d : Dev) (f : Fld) (v : Nat) : d.seesOnly (d.set f v) := rfl
theorem Dev.seesOnly_bumpBy (d : Dev) (a n : Nat) : d.seesOnly (d.bumpBy a n) := rfl
theorem Dev.seesOnly_chan (d : Dev) (c : Chan) : d.seesOnly { d with chan := c } := rfl

theorem Dev.seesOnly_ite {a b : Dev} {p : Prop} [Decidable p] (ha : d.seesOnly a) (hb : d.seesOnly b) : d.seesOnly (if p then a else b) := by
  split
  · exact ha
  · exact hb

theorem Dev.seesOnly_foldl {α : Type} {f : Dev → α → Dev} (h : ∀ d x, Dev.seesOnly d (f d x)) (l : List α) (d : Dev) : d.seesOnly (l.foldl f d) :=
  List.foldlRecOn (motive := fun e : Dev => d.seesOnly e) l f d.seesOnly_refl fun e he x _ => Dev.seesOnly_trans he (h e x)

theorem Dev.seesOnly_channelPassed (d : Dev) (t : TrackRead) (f : Front) (r : ReadSet) (v : SegView) (slot : Nat) (rev : Bool) :
    d.seesOnly (d.channelPassed t f r v slot rev) := by
  unfold Dev.channelPassed
  extract_lets n phase shown synced timed opened holed clipped_ judged g scans loops _ kept
  have hshown : d.seesOnly shown := Dev.seesOnly_trans (d.seesOnly_set _ _) (Dev.seesOnly_set _ _ _)
  clear_value shown
  have hsynced : d.seesOnly synced :=
    Dev.seesOnly_ite (Dev.seesOnly_trans hshown (Dev.seesOnly_trans (shown.seesOnly_set _ _) (Dev.seesOnly_bumpBy _ _ _))) hshown
  clear_value synced
  have htimed : d.seesOnly timed :=
    Dev.seesOnly_ite (Dev.seesOnly_trans hsynced (Dev.seesOnly_trans (synced.seesOnly_set _ _) (Dev.seesOnly_bumpBy _ _ _))) hsynced
  clear_value timed
  have hholed : d.seesOnly holed :=
    Dev.seesOnly_ite htimed (Dev.seesOnly_trans htimed (Dev.seesOnly_trans (timed.seesOnly_set _ _) (Dev.seesOnly_bumpBy _ _ _)))
  clear_value holed
  have hjudged : d.seesOnly judged :=
    Dev.seesOnly_trans hholed (Dev.seesOnly_trans (holed.seesOnly_bumpBy _ _) (Dev.seesOnly_bumpBy _ _ _))
  clear_value judged
  have hkept : d.seesOnly kept := Dev.seesOnly_trans hjudged (judged.seesOnly_chan _)
  clear_value kept
  exact Dev.seesOnly_ite (Dev.seesOnly_trans hkept (Dev.seesOnly_foldl (fun e _ => e.seesOnly_set _ _) _ _)) hkept

theorem Dev.seesOnly_slotPassed (d : Dev) (slot : Nat) (rev : Bool) (reads : List TrackSignal) : d.seesOnly (d.slotPassed slot rev reads).2 := by
  unfold Dev.slotPassed
  extract_lets ps passed
  have hpassed : d.seesOnly passed :=
    Dev.seesOnly_foldl (f := fun (e : Dev) (p : Passed) => e.channelPassed p.read p.front p.set p.view slot rev)
      (fun e p => e.seesOnly_channelPassed p.read p.front p.set p.view slot rev) ps d
  clear_value passed
  exact Dev.seesOnly_trans hpassed (Dev.seesOnly_trans (passed.seesOnly_chan _) (Dev.seesOnly_set _ _ _))

/-- The device once what its channels made of a slot is shown and retained (R123). -/
def Dev.shows (d : Dev) (slot : Nat) (rev : Bool) (ps : List Passed) : Dev :=
  (ps.foldl (fun (e : Dev) p => e.channelPassed p.read p.front p.set p.view slot rev) d).retain slot (ps.map Passed.read)
    (ps.map fun p => (p.read.channel, p.set))

theorem Dev.slotPassed_snd (d : Dev) (slot : Nat) (rev : Bool) (reads : List TrackSignal) :
    (d.slotPassed slot rev reads).2 = d.shows slot rev ((reads.filter fun t => d.channelOn t.channel).map fun t => d.channelSees slot rev t) := rfl

/-- One enabled channel's read of a slot. -/
theorem Dev.slotPassed_single {slot : Nat} {rev : Bool} {t : TrackSignal} (hon : d.channelOn t.channel = true) :
    (d.slotPassed slot rev [t]).2 = d.shows slot rev [d.channelSees slot rev t] := by
  have hfilter : ([t].filter fun t => d.channelOn t.channel) = [t] := List.filter_cons_of_pos hon
  rw [Dev.slotPassed_snd, hfilter, List.map_singleton]

theorem Dev.read_channelSees (d : Dev) (slot : Nat) (rev : Bool) (t : TrackSignal) :
    (d.channelSees slot rev t).read = (d.sampleSlot slot rev t).1 := rfl

theorem Dev.channel_sampleSlot (d : Dev) (slot : Nat) (rev : Bool) (t : TrackSignal) : (d.sampleSlot slot rev t).1.channel = t.channel := by
  unfold Dev.sampleSlot
  extract_lets c f
  rfl

theorem Dev.get_retain (d : Dev) (slot : Nat) (reads : List TrackRead) (sets : List (Nat × ReadSet)) {x : Fld}
    (hx : x.addr ≠ F.rchRetainLatestSlot.addr) : (d.retain slot reads sets).get x = d.get x :=
  Dev.get_set_addr _ F.rchRetainLatestSlot x slot hx

/-! ## The channel whose live register would be CAS.CFG -/

/-- The number n for which RCH.LIVE[n] of R130, were the array that long, would lie at the address of CAS.CFG. -/
def strayChannel : Nat := 0xCFE00

/-- Where such a channel loses timing, width mode becomes mode 3: the latched loss is bit 1 of CAS.CFG.MODE, and what else the channel
shows leaves bit 0 of it at 1. -/
theorem Dev.mode_channelPassed_stray (d : Dev) (t : TrackRead) (f : Front) (r : ReadSet) (v : SegView) (slot : Nat) (rev : Bool)
    (hchannel : t.channel = strayChannel) (hlost : t.lost.isSome = true) (hmode : d.get F.casCfgMode = 1) :
    (d.channelPassed t f r v slot rev).get F.casCfgMode = 3 := by
  unfold Dev.channelPassed
  rw [hchannel]
  extract_lets n phase shown synced timed opened holed clipped_ judged g scans loops _ kept
  have hshown : shown.get F.casCfgMode = 1 := by
    unfold shown
    rw [Dev.get_set_other _ _ _ _ (by decide), Dev.get_set_other _ _ _ _ (by decide), hmode]
  clear_value shown
  have hsynced : synced.get F.casCfgMode = 1 := by
    unfold synced
    split
    · rw [Dev.bump, Dev.get_bumpBy _ _ _ _ (by decide), Dev.get_set_other _ _ _ _ (by decide), hshown]
    · exact hshown
  clear_value synced
  have hbit : ∀ (e : Dev) (x : Fld), x.addr = F.casCfgMode.addr → x.width = 1 → x.lo < 2 →
      (e.set x 1).get F.casCfgMode = e.get F.casCfgMode ||| 2 ^ x.lo := by
    intro e x haddr hwidth hlo
    rw [Dev.get, Dev.set, haddr, Dev.word_putWord_same]
    exact Fld.of_into_bit F.casCfgMode x _ (Nat.zero_le _) hwidth hlo (by decide)
  have htimed : timed.get F.casCfgMode = 3 := by
    unfold timed
    rw [if_pos hlost, Dev.bump, Dev.get_bumpBy _ _ _ _ (by decide), hbit _ _ (by decide) rfl (by decide), hsynced]
    decide
  clear_value timed
  have hholed : holed.get F.casCfgMode = 3 := by
    unfold holed
    split
    · exact htimed
    · rw [Dev.get_bumpBy _ _ _ _ (by decide), hbit _ _ (by decide) rfl (by decide), htimed]
      decide
  clear_value holed
  have hkept : kept.get F.casCfgMode = 3 := by
    have hjudged : judged.get F.casCfgMode = 3 := by
      unfold judged clipped_
      rw [Dev.get_bumpBy _ _ _ _ (by decide), Dev.get_bumpBy _ _ _ _ (by decide), hholed]
    exact hjudged
  clear_value kept
  split
  · refine List.foldlRecOn (motive := fun e : Dev => e.get F.casCfgMode = 3) _ _ hkept fun e he k _ => ?_
    have haddr : F.casCfgMode.addr ≠ (F.rchEqTapCoef.ix (16 * strayChannel + k.2)).addr := by
      simp only [Fld.ix, F.casCfgMode, F.rchEqTapCoef, strayChannel]
      omega
    rw [Dev.get_set_addr _ _ _ _ haddr, he]
  · exact hkept

/-- Where the slot of such a channel passes, its lost timing turns width mode into mode 3. -/
theorem Dev.mode_slotPassed_stray {slot : Nat} {rev : Bool} {t : TrackSignal} (hchannel : t.channel = strayChannel)
    (hon : d.channelOn t.channel = true) (hdefect : (d.scanFor t.channel slot).opened.isSome = true)
    (hloop : 128 < (d.loopOf t.channel).1.natAbs) (hmode : d.get F.casCfgMode = 1) :
    (d.slotPassed slot rev [t]).2.get F.casCfgMode = 3 := by
  have hlost := d.lost_sampleSlot slot rev t hdefect hloop
  have hname := (d.channel_sampleSlot slot rev t).trans hchannel
  rw [← Dev.read_channelSees] at hlost hname
  rw [Dev.slotPassed_single hon]
  generalize d.channelSees slot rev t = p at *
  rw [Dev.shows, Dev.get_retain _ _ _ _ (by decide), List.foldl_cons, List.foldl_nil]
  exact d.mode_channelPassed_stray _ _ _ _ _ _ hname hlost hmode

end Sys2Proof.Machine
end

section
/-!
SUPPORT. The verify window of `Obligations.SlotVerified` where the channels' numbers are not bounded (R61, R170, R442, R465).
-/
namespace Sys2Proof.Machine

theorem exec_verifyWindow (reads : List TrackSignal) (s : State) :
    exec (.verifyWindow reads) s = .next { s with dev := (s.dev.windowPassed reads).hostSettle } := rfl

theorem State.dev_verifyWindow {reads : List TrackSignal} {s t : State} (h : exec (.verifyWindow reads) s = .next t) :
    t.dev = (s.dev.windowPassed reads).hostSettle := by
  obtain rfl := Host.Outcome.next.inj ((exec_verifyWindow reads s).symm.trans h)
  rfl

variable {d e : Dev}

/-- A slot of a window in which no data set is awaited any more once it has passed leaves no decode (R170). -/
theorem Dev.windowPassed_unwritten {f : Dev} {x : Entry} {g h : Nat} {rev : Bool} {reads : List TrackSignal}
    (hwindow : (d.nextEntries Entry.isWindow).findSome? Entry.windowSlot = some (x, g)) (hmode : d.pos.mode = .locked)
    (hfew : (d.ecc.decodes.filter Decode.verify).length < 3) (halloc : d.allocate 3 ownVerify ownVerify = (some h, e))
    (hrev : x.reverse = rev) (hreached : ((e.reach x.target).dropEntries fun y => y == x) = f)
    (hgone : (f.slotPassed g rev reads).2.writtenAt g = none) :
    d.windowPassed reads = (f.slotPassed g rev reads).2.release h ownVerify := by
  unfold Dev.windowPassed
  rw [hwindow]
  dsimp only
  unfold Dev.verifyRead
  rw [hmode, if_neg (by decide), if_neg (by omega), halloc]
  dsimp only
  rw [hreached, hrev]
  generalize f.slotPassed g rev reads = p at *
  obtain ⟨vs, passed⟩ := p
  dsimp only at hgone ⊢
  rw [hgone]

/-- A slot that passes and whose buffer goes back leaves the decodes, and only credit follows. -/
theorem Dev.ecc_slotPassed_release (hcalm : d.calm = true) (slot h o : Nat) (rev : Bool) (reads : List TrackSignal) :
    (((d.slotPassed slot rev reads).2.release h o).hostSettle).ecc = d.ecc := by
  have hsees := d.seesOnly_slotPassed slot rev reads
  have hpools := (d.slotPassed slot rev reads).2.release_pools h o
  generalize (d.slotPassed slot rev reads).2 = f at *
  generalize f.release h o = r at *
  have hglb : r.glb = d.glb := (congrArg Dev.glb hpools :).trans (congrArg Dev.glb hsees :)
  have hhpt : r.hpt = d.hpt := (congrArg Dev.hpt hpools :).trans (congrArg Dev.hpt hsees :)
  obtain ⟨-, -, -, hecc, -⟩ := Dev.hostOnly_fields (r.hostOnly_hostSettle ((Dev.calm_congr hglb hhpt).trans hcalm))
  exact hecc.trans ((congrArg Dev.ecc hpools :).trans (congrArg Dev.ecc hsees :))

/-! ## A state -/

/-- The entry of the verify window of slot 3600. -/
def strayEntry : Entry := ⟨readStart false 3600, false, .window 3600⟩

/-- The data set written there by member 1 of a set. -/
def straySet : DSet := ⟨5, 1, false, 0, 1, 1, 0, 0, 0, 0, 0, 1, 0, 3600, noHandle, [], none, false, false, false, [Copy.at 3600 0 .written]⟩

/-- A buffer is free in pool P3. -/
def strayPools : List Pool := List.replicate 4 ⟨1, 0, [], [], [], false, false, false, 0, []⟩

/-- The channel is enabled; a defect runs on into the slot, and its timing loop stands past 2 channel bits. -/
def strayChan : Chan :=
  { Chan.reset with groupsOn := strayChannel / 16 + 1, scans := [(strayChannel, 3600, { DefectScan.zero with opened := some 0 })]
                    loops := [(strayChannel, 200, 0)] }

/-- Member 1 of a set in width mode awaits the slot for verify, and the channel is enabled. -/
def strayDev : Dev :=
  { ((Dev.reset.set F.casCfgMode 1).set (F.wchChEnEn.ix (strayChannel / 32)) 1) with
    glb := { Glb.reset with dev := .streaming, porstLow := false, straps := ⟨false, 1, false, 0⟩ }
    pools := strayPools
    plc := { Plc.reset with dsets := [straySet] }
    pos := { Pos.reset with mode := .locked, entries := [strayEntry] }
    chan := strayChan }

/-- What the read elements give of the slot. -/
def strayReads : List TrackSignal := [⟨strayChannel, []⟩]

theorem calm_strayDev : strayDev.calm = true := by decide
theorem nextWindow_strayDev : (strayDev.nextEntries Entry.isWindow).findSome? Entry.windowSlot = some (strayEntry, 3600) := by decide
theorem allocate_strayDev : (strayDev.allocate 3 ownVerify ownVerify).1 = some 0x60000001 := by decide
theorem writtenAt_strayDev : strayDev.writtenAt 3600 = some (straySet, Copy.at 3600 0 .written) := by decide

/-- The device as the slot reaches the read elements. -/
def strayReached : Dev :=
  (((strayDev.allocate 3 ownVerify ownVerify).2).reach strayEntry.target).dropEntries fun y => y == strayEntry

theorem channelOn_strayReached : strayReached.channelOn strayChannel = true := by decide
theorem mode_strayReached : strayReached.get F.casCfgMode = 1 := by decide
theorem scan_strayReached : (strayReached.scanFor strayChannel 3600).opened.isSome = true := by decide
theorem loop_strayReached : 128 < (strayReached.loopOf strayChannel).1.natAbs := by decide
theorem calm_strayReached : strayReached.calm = true := by decide
theorem dsets_strayReached : strayReached.plc.dsets = [straySet] := by decide

/-- After the slot has passed CAS.CFG.MODE is 3, which is treated as 0 (R465). -/
theorem mode_strayPassed : (strayReached.slotPassed 3600 false strayReads).2.get F.casCfgMode = 3 := by
  exact Dev.mode_slotPassed_stray rfl channelOn_strayReached scan_strayReached loop_strayReached mode_strayReached

/-- The device takes itself for no member of a set then, and awaits no data set of member 1. -/
theorem writtenAt_strayPassed : (strayReached.slotPassed 3600 false strayReads).2.writtenAt 3600 = none := by
  have hsees := strayReached.seesOnly_slotPassed 3600 false strayReads
  have hmode := mode_strayPassed
  generalize (strayReached.slotPassed 3600 false strayReads).2 = f at *
  have hself : f.self = 0 := Dev.self_of_single (by simp [Dev.casMode, hmode])
  have hdsets : f.plc.dsets = [straySet] := (congrArg (fun d : Dev => d.plc.dsets) hsees :).trans dsets_strayReached
  rw [Dev.writtenAt, hdsets, hself]
  rfl

/-- The window leaves no decode. -/
theorem decodes_strayWindow {t : State} (hexec : exec (.verifyWindow strayReads) ⟨[], strayDev⟩ = .next t) : t.dev.ecc.decodes = [] := by
  have hpassed : strayDev.windowPassed strayReads = (strayReached.slotPassed 3600 false strayReads).2.release 0x60000001 ownVerify :=
    Dev.windowPassed_unwritten nextWindow_strayDev rfl (by decide) (Prod.ext allocate_strayDev rfl) rfl rfl writtenAt_strayPassed
  rw [State.dev_verifyWindow hexec, hpassed, Dev.ecc_slotPassed_release calm_strayReached]
  rfl

/-- Refutes O39, at the verify window: the clause bounds neither the channels of its reads nor the enable groups of its state. The live
register of the channel 0xCFE00 would be CAS.CFG; where that channel loses timing, width mode becomes mode 3, the data set of member 1 is
awaited no more, and its slot gets no decode. -/
theorem not_slotVerified : ¬ Obligations.SlotVerified := by
  unfold Obligations.SlotVerified
  rintro ⟨-, hverify⟩
  obtain ⟨hwindow, -⟩ := hverify ⟨[], strayDev⟩ strayEntry 3600 0x60000001 (strayDev.allocate 3 ownVerify ownVerify).2 strayReads
    (straySet, Copy.at 3600 0 .written) (newDecode 0 0 0 true 0 []) calm_strayDev
  obtain ⟨t, hexec, ⟨z, hz, -⟩, -⟩ := hwindow nextWindow_strayDev rfl (by decide) (Prod.ext allocate_strayDev rfl) writtenAt_strayDev
  exact List.cons_ne_nil z [] (List.append_eq_nil_iff.mp (hz.symm.trans (decodes_strayWindow hexec))).2

end Sys2Proof.Machine
end

section
/-!
SUPPORT. Servo frames and welt values (R62 to R65, R125, R373).
-/
namespace Sys2Proof.Machine

variable {d e : Dev}

theorem exec_lateralSample (input : Nat) (frame : Option ServoFrame) (s : State) :
    exec (.lateralSample input frame) s = .next { s with dev := (s.dev.lateralSample input frame).hostSettle } := rfl

theorem exec_weltValue (samples : List (Nat × List Int)) (s : State) :
    exec (.weltValue samples) s = .next { s with dev := s.dev.weltValue samples } := rfl

theorem Dev.word_pos (d : Dev) (p : Pos) (x : Nat) : ({ d with pos := p } : Dev).word x = d.word x := by cases d; rfl

theorem Dev.word_tce (d : Dev) (t : Tce) (x : Nat) : ({ d with tce := t } : Dev).word x = d.word x := by cases d; rfl
theorem Dev.get_tce (d : Dev) (t : Tce) (f : Fld) : ({ d with tce := t } : Dev).get f = d.get f := by cases d; rfl

/-! ## Servo frames -/

/-- POS.LAT of an input shows a sample. -/
def Dev.showLat (d : Dev) (input y : Nat) (bit valid : Bool) : Dev :=
  (((d.set (F.posLatWordBit.ix input) (b2n bit)).set (F.posLatValid.ix input) (b2n valid)).set (F.posLatFrame.ix input)
    (unsigned 16 (d.tpos / 3200))).set (F.posLatOffset.ix input) y


theorem b2n_mod_two (b : Bool) : b2n b % 2 = b2n b := by cases b <;> rfl

theorem Dev.word_showLat (d : Dev) (input y : Nat) (bit valid : Bool) {x : Nat} (hx : x ≠ (F.posLatOffset.ix input).addr) :
    (d.showLat input y bit valid).word x = d.word x := by
  unfold Dev.showLat
  rw [Dev.word_set_other _ _ _ hx, Dev.word_set_other _ (F.posLatFrame.ix input) _ hx, Dev.word_set_other _ (F.posLatValid.ix input) _ hx,
    Dev.word_set_other _ (F.posLatWordBit.ix input) _ hx]

theorem unsigned_lt (w : Nat) (v : Int) : unsigned w v < 2 ^ w := by
  have := Int.emod_lt_of_pos v (b := ((2 ^ w : Nat) : Int)) (by positivity)
  unfold unsigned
  omega

/-- A field of an array's element just set. -/
theorem Dev.get_set_ix_same (d : Dev) (f : Fld) (k v : Nat) (h : f.fits = true) : (d.set (f.ix k) v).get (f.ix k) = v % 2 ^ f.width :=
  d.get_set_same (f.ix k) v h

/-- Another field of the same element of an array. -/
theorem Dev.get_set_ix_apart (d : Dev) (f g : Fld) (k v : Nat) (ha : g.addr = f.addr) (h : f.apart g = true) :
    (d.set (f.ix k) v).get (g.ix k) = d.get (g.ix k) :=
  d.get_set_apart (f.ix k) (g.ix k) v (congrArg (· + k) ha) h

theorem Dev.get_showLat (d : Dev) (input : Nat) (v : Int) (bit valid : Bool) :
    let e := d.showLat input (unsigned 24 v) bit valid
    e.get (F.posLatOffset.ix input) = unsigned 24 v ∧ e.get (F.posLatValid.ix input) = b2n valid
      ∧ e.get (F.posLatWordBit.ix input) = b2n bit ∧ e.get (F.posLatFrame.ix input) = unsigned 16 (d.tpos / 3200) := by
  simp (disch := decide) only [Dev.showLat, Dev.get_set_ix_same, Dev.get_set_ix_apart]
  exact ⟨Nat.mod_eq_of_lt (unsigned_lt _ _), b2n_mod_two _, b2n_mod_two _, Nat.mod_eq_of_lt (unsigned_lt _ _)⟩

/-- A frame that gives every value is shown, its direction checked and its bit gathered. -/
theorem Dev.lateralSample_some {input : Nat} {f : ServoFrame} {p m : Int} {r bit : Bool} (hinput : input < 2) (hsums : frameSums f = some (p, m))
    (hsum : p + m ≠ 0) (hbit : frameBit f = some bit) (hrev : frameReverse f = some r) :
    d.lateralSample input (some f)
      = ((d.fresh.2.showLat input (unsigned 24 (lateralOffset p m)) bit (f.flag.isSome && decide ((p + m - 147456).natAbs ≤ 1536))).checkDirection
          input r).gather input bit := by
  have htpos : ∀ v w : Nat, ((d.fresh.2.set (F.posLatWordBit.ix input) v).set (F.posLatValid.ix input) w).tpos = d.fresh.2.tpos := fun v w => by
    have hother : F.posTposTpos.addr ≠ (F.posLatValid.ix input).addr := by
      simp only [Fld.ix, F.posTposTpos, F.posLatValid]
      omega
    exact Dev.tpos_eq ((Dev.word_set_other _ (F.posLatValid.ix input) _ hother).trans (Dev.word_set_other _ (F.posLatWordBit.ix input) _ hother))
  simp only [Dev.lateralSample, Nat.not_le.mpr hinput, if_false, Option.getD_some, hsums, hsum, hbit, hrev, frameValid, Dev.showLat, htpos]

/-- A direction that agrees with the command ends the run of frames that disagree. -/
theorem Dev.checkDirection_agrees {r : Bool} (input : Nat) (h : if r then d.tce.v ≤ 0 else 0 ≤ d.tce.v) :
    ∃ n, d.checkDirection input r = { d.set F.posStatusDir (b2n r) with pos := { d.pos with wrongDir := n } } := by
  unfold Dev.checkDirection
  extract_lets shown wrong n counted
  split
  · exact ⟨d.pos.wrongDir, rfl⟩
  · have hwrong : wrong = false := by
      unfold wrong shown
      cases r
      · exact decide_eq_false (not_lt.mpr (by simpa using h))
      · exact decide_eq_false (not_lt.mpr (by simpa using h))
    have hn : n = 0 := by rw [show n = if wrong = true then _ else 0 from rfl, hwrong, if_neg Bool.false_ne_true]
    rw [if_neg (by simp [hn])]
    exact ⟨n, rfl⟩

/-- What a frame changes: its input's POS.LAT, DIR and what POS counts and gathers. -/
theorem Dev.lateralSample_spec {input : Nat} {f : ServoFrame} {p m : Int} {r bit : Bool} (hinput : input < 2) (hsums : frameSums f = some (p, m))
    (hsum : p + m ≠ 0) (hbit : frameBit f = some bit) (hrev : frameReverse f = some r) (hdir : if r then d.tce.v ≤ 0 else 0 ≤ d.tce.v) :
    ∃ n ws, d.lateralSample input (some f)
      = { (d.fresh.2.showLat input (unsigned 24 (lateralOffset p m)) bit (f.flag.isSome && decide ((p + m - 147456).natAbs ≤ 1536))).set
            F.posStatusDir (b2n r) with pos := { d.pos with wrongDir := n, words := ws } } := by
  rw [Dev.lateralSample_some hinput hsums hsum hbit hrev]
  have hpos : (d.fresh.2.showLat input (unsigned 24 (lateralOffset p m)) bit (f.flag.isSome && decide ((p + m - 147456).natAbs ≤ 1536))).pos = d.pos := rfl
  have htce : (d.fresh.2.showLat input (unsigned 24 (lateralOffset p m)) bit (f.flag.isSome && decide ((p + m - 147456).natAbs ≤ 1536))).tce = d.tce := rfl
  generalize d.fresh.2.showLat _ _ _ _ = e at *
  rw [← htce] at hdir
  obtain ⟨n, hchecked⟩ := Dev.checkDirection_agrees (d := e) input hdir
  rw [hchecked, ← hpos]
  exact ⟨n, _, rfl⟩

/-- A frame shows what it gives, and nothing follows from its direction (R62 to R65). -/
theorem runs_lateralSample {s : State} {input : Nat} {f : ServoFrame} {p m : Int} {r bit : Bool} (hinput : input < 2) (hcalm : s.dev.calm = true)
    (hsums : frameSums f = some (p, m)) (hsum : p + m ≠ 0) (hbit : frameBit f = some bit) (hrev : frameReverse f = some r)
    (hdir : if r then s.dev.tce.v ≤ 0 else 0 ≤ s.dev.tce.v) :
    Runs (.lateralSample input (some f)) s fun t =>
      t.dev.get (F.posLatOffset.ix input) = unsigned 24 (lateralOffset p m)
      ∧ t.dev.get (F.posLatValid.ix input) = b2n (f.flag.isSome && decide ((p + m - 147456).natAbs ≤ 1536))
      ∧ t.dev.get (F.posLatWordBit.ix input) = b2n bit ∧ t.dev.get (F.posLatFrame.ix input) = unsigned 16 (s.dev.tpos / 3200)
      ∧ t.dev.get F.posStatusDir = b2n r ∧ t.dev.pos.mode = s.dev.pos.mode
      ∧ s.wordsBut t [(F.posLatOffset.ix input).addr, F.posStatusDir.addr, C.hptTxSeg] ∧ s.memoriesStand t := by
  refine ⟨_, exec_lateralSample input (some f) s, ?_⟩
  obtain ⟨n, ws, hsample⟩ := Dev.lateralSample_spec hinput hsums hsum hbit hrev hdir
  rw [hsample]
  generalize hvalid : (f.flag.isSome && decide ((p + m - 147456).natAbs ≤ 1536)) = valid
  obtain ⟨hoffset, hflag, hword, hframe⟩ := s.dev.fresh.2.get_showLat input (lateralOffset p m) bit valid
  have hother := fun x => s.dev.fresh.2.word_showLat input (unsigned 24 (lateralOffset p m)) bit valid (x := x)
  have hglb : (s.dev.fresh.2.showLat input (unsigned 24 (lateralOffset p m)) bit valid).glb = s.dev.glb := rfl
  have hhpt : (s.dev.fresh.2.showLat input (unsigned 24 (lateralOffset p m)) bit valid).hpt = s.dev.hpt := rfl
  have hsame : s.dev.sameMemories (s.dev.fresh.2.showLat input (unsigned 24 (lateralOffset p m)) bit valid) := ⟨rfl, rfl, rfl, rfl⟩
  generalize s.dev.fresh.2.showLat input (unsigned 24 (lateralOffset p m)) bit valid = e at *
  generalize hset : ({ e.set F.posStatusDir (b2n r) with pos := { s.dev.pos with wrongDir := n, words := ws } } : Dev) = g
  have hgword : ∀ x, x ≠ F.posStatusDir.addr → g.word x = e.word x := fun x hx => by
    rw [← hset]
    exact (Dev.word_pos (e.set F.posStatusDir (b2n r)) _ x).trans (Dev.word_set_other e F.posStatusDir (b2n r) hx)
  have hgdir : g.get F.posStatusDir = b2n r := by
    rw [← hset]
    exact (Dev.get_pos (e.set F.posStatusDir (b2n r)) _ _).trans ((Dev.get_set_same e F.posStatusDir _ (by decide)).trans (b2n_mod_two r))
  have hgmode : g.pos.mode = s.dev.pos.mode := by rw [← hset]
  have hgsame : s.dev.sameMemories g := Dev.sameMemories_trans hsame (by rw [← hset]; exact ⟨rfl, rfl, rfl, rfl⟩)
  have hhost := g.hostOnly_hostSettle (by rw [← hcalm]; exact Dev.calm_congr (by rw [← hset]; exact hglb) (by rw [← hset]; exact hhpt))
  clear hset
  have hlat : ∀ f : Fld, f.addr = 0x010004 → g.hostSettle.get (f.ix input) = e.get (f.ix input) := fun f hf => by
    have hdirs : (f.ix input).addr ≠ F.posStatusDir.addr ∧ (f.ix input).addr ≠ C.hptTxSeg := by
      simp only [Fld.ix, hf, F.posStatusDir, C.hptTxSeg]
      omega
    rw [Dev.hostOnly_get hhost hdirs.2, Dev.get, Dev.get, hgword _ hdirs.1]
  refine ⟨(hlat _ rfl).trans hoffset, (hlat _ rfl).trans hflag, (hlat _ rfl).trans hword, (hlat _ rfl).trans hframe, ?_, ?_, fun x hx => ?_, ?_⟩
  · exact (Dev.hostOnly_get hhost (by decide)).trans hgdir
  · exact (congrArg Pos.mode (Dev.still_of_hostOnly hhost).2.2.2.2.1).trans hgmode
  · simp only [List.mem_cons, List.not_mem_nil, or_false, not_or] at hx
    exact (Dev.hostOnly_word hhost hx.2.2).trans ((hgword x hx.2.1).trans (hother x hx.1))
  · exact State.memoriesStand_of_same (t := { s with dev := _ }) (Dev.sameMemories_trans hgsame (Dev.sameMemories_of_hostOnly hhost))

/-! ## Welt values -/

/-- RCH.WELT shows the value of one channel. -/
def Dev.showWelt (d : Dev) (w : Int) : Dev :=
  (((d.set F.rchWeltContrib 1).set F.rchWeltValid 1).set F.rchWeltEyeletLo (unsigned 16 d.weltEyelet)).set F.rchWeltMean (unsigned 16 w)

theorem Dev.word_showWelt (d : Dev) (w : Int) {x : Nat} (hx : x ≠ F.rchWeltContrib.addr) : (d.showWelt w).word x = d.word x := by
  unfold Dev.showWelt
  rw [Dev.word_set_other _ F.rchWeltMean _ hx, Dev.word_set_other _ F.rchWeltEyeletLo _ hx, Dev.word_set_other _ F.rchWeltValid _ hx,
    Dev.word_set_other _ F.rchWeltContrib _ hx]

theorem Dev.get_showWelt (d : Dev) (w : Int) :
    let e := d.showWelt w
    e.get F.rchWeltContrib = 1 ∧ e.get F.rchWeltValid = 1 ∧ e.get F.rchWeltMean = unsigned 16 w
      ∧ e.get F.rchWeltEyeletLo = unsigned 16 d.weltEyelet := by
  simp (disch := decide) only [Dev.showWelt, Dev.get_set_same, Dev.get_set_other]
  exact ⟨rfl, rfl, Nat.mod_eq_of_lt (unsigned_lt _ _), Nat.mod_eq_of_lt (unsigned_lt _ _)⟩

theorem Dev.get_showWelt_other (d : Dev) (w : Int) {f : Fld} (hf : f.addr ≠ F.rchWeltContrib.addr) : (d.showWelt w).get f = d.get f := by
  rw [Dev.get, Dev.get, Dev.word_showWelt _ _ hf]

/-- A channel that reads the welt is the only one that contributes. -/
theorem Dev.weltValue_one {n : Nat} {xs : List Int} {w : Int} (hon : d.channelOn n = true) (hclean : d.weltSpoilt n d.weltEyelet = false)
    (hwelt : weltOf d.oddLane xs = some w) : d.weltValue [(n, xs)] = (d.showWelt w).trimBy w := by
  have hws : [(n, xs)].filterMap (fun s => if d.channelOn s.1 && !d.weltSpoilt s.1 d.weltEyelet then weltOf d.oddLane s.2 else none) = [w] := by
    simp [hon, hclean, hwelt]
  simp only [Dev.weltValue, hws]
  simp [b2n, Dev.showWelt]

/-- The welt trim after a welt value (R373): it moves within its limit where the device trims by welts. -/
def Dev.trimmed (d : Dev) (w : Int) : Int :=
  let step := (w - signed 16 (d.get F.tceWeltCalW0)) * (d.get F.tceWeltCalKW : Int) * (d.get F.tceWeltCalWeltGain : Int) / 4096
  let lim := (d.get F.tceWeltCalWeltLim : Int) * 65536 / 20
  if d.flag F.tceLatCfgWeltEn then satInt (-lim) lim (d.tce.weltTrim + step) else d.tce.weltTrim

theorem Dev.trimBy_eq (d : Dev) (w : Int) : d.trimBy w = { d with tce := { d.tce with weltTrim := d.trimmed w } } := by
  unfold Dev.trimBy Dev.trimmed
  generalize d.flag F.tceLatCfgWeltEn = trims
  cases trims
  · simp only [Bool.not_false, if_true, Bool.false_eq_true, if_false]
  · simp only [Bool.not_true, if_true, Bool.false_eq_true, if_false]

theorem Dev.trimmed_showWelt (d : Dev) (w : Int) : (d.showWelt w).trimmed w = d.trimmed w := by
  have htce : (d.showWelt w).tce = d.tce := rfl
  have hget := fun f => d.get_showWelt_other w (f := f)
  rw [Dev.trimmed, Dev.trimmed, Dev.flag, Dev.flag, htce, hget F.tceWeltCalW0 (by decide), hget F.tceWeltCalKW (by decide),
    hget F.tceWeltCalWeltGain (by decide), hget F.tceWeltCalWeltLim (by decide), hget F.tceLatCfgWeltEn (by decide)]

theorem Dev.regsOnly_showWelt (d : Dev) (w : Int) : d.regsOnly (d.showWelt w) :=
  Dev.regsOnly_set (Dev.regsOnly_set (Dev.regsOnly_set (Dev.regsOnly_set d.regsOnly_refl _ _) _ _) _ _) _ _

/-- A welt value shows what it gives and moves the welt trim (R125, R373). -/
theorem runs_weltValue {s : State} {n : Nat} {xs : List Int} {w : Int} (hon : s.dev.channelOn n = true)
    (hclean : s.dev.weltSpoilt n s.dev.weltEyelet = false) (hwelt : weltOf s.dev.oddLane xs = some w) :
    Runs (.weltValue [(n, xs)]) s fun t =>
      t.dev.get F.rchWeltContrib = 1 ∧ t.dev.get F.rchWeltValid = 1 ∧ t.dev.get F.rchWeltMean = unsigned 16 w
      ∧ t.dev.get F.rchWeltEyeletLo = unsigned 16 s.dev.weltEyelet ∧ s.wordsBut t [F.rchWeltContrib.addr]
      ∧ t.dev.tce = { s.dev.tce with weltTrim := s.dev.trimmed w }
      ∧ t = { s with dev := { s.dev with regs := t.dev.regs, tce := t.dev.tce } } := by
  refine ⟨_, exec_weltValue _ s, ?_⟩
  rw [Dev.weltValue_one hon hclean hwelt, Dev.trimBy_eq, Dev.trimmed_showWelt]
  obtain ⟨hcontrib, hvalid, hmean, heyelet⟩ := s.dev.get_showWelt w
  have hword : ∀ x, x ∉ [F.rchWeltContrib.addr] → (s.dev.showWelt w).word x = s.dev.word x := fun x hx =>
    s.dev.word_showWelt w (List.ne_of_not_mem_cons hx)
  have hregs := s.dev.regsOnly_showWelt w
  have htce : (s.dev.showWelt w).tce = s.dev.tce := rfl
  generalize s.dev.showWelt w = e at *
  generalize s.dev.trimmed w = trim
  rw [htce]
  have hget := e.get_tce { s.dev.tce with weltTrim := trim }
  refine ⟨(hget _).trans hcontrib, (hget _).trans hvalid, (hget _).trans hmean, (hget _).trans heyelet,
    fun x hx => (e.word_tce _ x).trans (hword x hx), rfl, ?_⟩
  rw [show e = _ from hregs]

/-- Settles O41: a frame's direction agrees with the command, so what it shows is all that follows; a welt value's only channel gives the mean. -/
theorem lateralAndWelts : Obligations.LateralAndWelts :=
  ⟨fun _ _ _ _ _ _ _ hinput hcalm hsums hsum hbit hrev hdir => runs_lateralSample hinput hcalm hsums hsum hbit hrev hdir,
    fun _ _ _ _ hon hclean hwelt => runs_weltValue hon hclean hwelt⟩

end Sys2Proof.Machine
end

section
/-!
SUPPORT. TPOS is set by signatures and band words (R66, R67).
-/
namespace Sys2Proof.Machine

variable {d e f : Dev} {p : Int}

theorem exec_signatureSeen (endSig : Bool) (s : State) : exec (.signatureSeen endSig) s = .next { s with dev := s.dev.signature endSig } := rfl

theorem exec_bandWordDecoded (lower upper : Bool) (s : State) :
    exec (.bandWordDecoded lower upper) s = .next { s with dev := (s.dev.bandWord lower upper).hostSettle } := rfl

/-! ## The position state in POS.STATUS -/

theorem PosMode.code_lt (m : PosMode) : m.code < 8 := by cases m <;> decide

/-- MODE and UNCERTAIN show the position state (R73, R87). -/
theorem Dev.get_goMode (d : Dev) (m : PosMode) :
    (d.goMode m).get F.posStatusMode = m.code ∧ (d.goMode m).get F.posStatusUncertain = b2n (m == .uncertain) := by
  unfold Dev.goMode
  constructor
  · rw [Dev.get_set_other _ _ _ _ (by decide), Dev.get_set_same _ _ _ (by decide)]
    exact Nat.mod_eq_of_lt m.code_lt
  · rw [Dev.get_set_same _ _ _ (by decide)]
    exact b2n_mod_two _

/-- Every other field of POS.STATUS stands. -/
theorem Dev.get_goMode_other (d : Dev) (m : PosMode) {g : Fld} (hmode : (g.addr != F.posStatusMode.addr || F.posStatusMode.apart g) = true)
    (huncertain : (g.addr != F.posStatusUncertain.addr || F.posStatusUncertain.apart g) = true) : (d.goMode m).get g = d.get g := by
  unfold Dev.goMode
  rw [Dev.get_set_other _ _ _ _ huncertain, Dev.get_set_other _ _ _ _ hmode, Dev.get_pos]

/-! ## TPOS is set -/

/-- The position as it is when TPOS has been set: the speed of the last eyelet interval says in which state (R67, R74). -/
def Pos.begun (p : Pos) : Pos := { p.fresh.counted p.interval with mode := if p.fast then .acquire else .count }

/-- TPOS has been set to a place. -/
structure Dev.positioned (d : Dev) (p : Int) (e : Dev) : Prop where
  tpos : e.tpos = p
  pos : e.pos = d.pos.begun
  shown : e.get F.posStatusMode = if d.pos.fast then 2 else 1
  certain : e.get F.posStatusUncertain = 0
  word : ∀ x, x ∉ [F.posTposTpos.addr, F.posStatusMode.addr] → e.word x = d.word x
  memories : d.sameMemories e
  glb : e.glb = d.glb
  hpt : e.hpt = d.hpt

theorem Dev.get_setTpos_other (d : Dev) (p : Int) {g : Fld} (hg : g.addr ≠ F.posTposTpos.addr) : (d.setTpos p).get g = d.get g :=
  d.get_set_addr _ g _ hg

theorem Dev.positioned_setPosition (d : Dev) {p : Int} (hlo : -140737488355328 ≤ p) (hhi : p < 140737488355328) :
    d.positioned p (d.setPosition p) := by
  unfold Dev.setPosition
  extract_lets moved
  have hfast : moved.pos.fast = d.pos.fast := rfl
  have hpos : moved.pos = d.pos.fresh.counted d.pos.interval := rfl
  have hsame : d.sameMemories moved ∧ moved.glb = d.glb ∧ moved.hpt = d.hpt := ⟨⟨rfl, rfl, rfl, rfl⟩, rfl, rfl⟩
  have hword : ∀ x, moved.word x = d.word x := fun x => d.word_pos _ x
  clear_value moved
  rw [hfast]
  generalize hm : (if d.pos.fast then PosMode.acquire else .count) = m
  obtain ⟨hmode, huncertain⟩ := moved.get_goMode m
  obtain ⟨⟨regs, hgo⟩, hother⟩ := moved.goMode_spec m
  have hgpos : (moved.goMode m).pos = d.pos.begun := by rw [hgo, hpos, Pos.begun, hm]
  have hgsame : moved.sameMemories (moved.goMode m) ∧ (moved.goMode m).glb = moved.glb ∧ (moved.goMode m).hpt = moved.hpt := by
    rw [hgo]
    exact ⟨⟨rfl, rfl, rfl, rfl⟩, rfl, rfl⟩
  generalize moved.goMode m = g at *
  exact {
    tpos := g.tpos_setTpos_eq hlo hhi
    pos := hgpos
    shown := by
      rw [Dev.get_setTpos_other _ _ (by decide), hmode, ← hm]
      cases d.pos.fast <;> rfl
    certain := by
      rw [Dev.get_setTpos_other _ _ (by decide), huncertain, ← hm]
      cases d.pos.fast <;> rfl
    word := fun x hx => by
      simp only [List.mem_cons, List.not_mem_nil, or_false, not_or] at hx
      rw [Dev.setTpos, Dev.word_set_other _ _ _ hx.1, hother x hx.2, hword]
    memories := Dev.sameMemories_trans hsame.1 hgsame.1
    glb := hgsame.2.1.trans hsame.2.1
    hpt := hgsame.2.2.trans hsame.2.2 }

/-- The eyelet of a signature (R67). -/
def signatureEyelet (endSig rev : Bool) : Int := if endSig then (if rev then 140508001 else 140508013) else (if rev then -14 else -2)

theorem signatureEyelet_range : ∀ endSig rev : Bool,
    -140737488355328 ≤ 512 * signatureEyelet endSig rev ∧ 512 * signatureEyelet endSig rev < 140737488355328 := by decide

/-- A complete signature sets TPOS while it is unset (R67). -/
theorem Dev.positioned_signature (hunset : d.pos.mode = .unset) (endSig : Bool) :
    d.positioned (512 * signatureEyelet endSig d.reverse) (d.signature endSig) := by
  have hplace : d.signature endSig = d.setPosition (512 * signatureEyelet endSig d.reverse) := by
    rw [Dev.signature, hunset]
    rfl
  obtain ⟨hlo, hhi⟩ := signatureEyelet_range endSig d.reverse
  rw [hplace]
  exact d.positioned_setPosition hlo hhi

/-! ## Band words -/

theorem signed_range {w : Nat} (hw : 0 < w) (v : Nat) : -(2 ^ (w - 1) : Nat) ≤ signed w v ∧ signed w v < (2 ^ (w - 1) : Nat) := by
  have hpow : 2 ^ w = 2 * 2 ^ (w - 1) := by rw [← Nat.pow_succ', Nat.succ_eq_add_one, Nat.sub_add_cancel hw]
  have hlt := Nat.mod_lt v (Nat.two_pow_pos w)
  unfold signed
  split <;> omega

/-- The place of a word's decoding lies within TPOS (R4, R30). -/
theorem decodePlace_range (rev : Bool) {y n : Int} (hy : -8388608 ≤ y ∧ y < 8388608) (hn : -268435456 ≤ n ∧ n < 268435456) :
    -140737488355328 ≤ decodePlace rev y n ∧ decodePlace rev y n < 140737488355328 := by
  unfold decodePlace slant
  cases rev <;> simp <;> omega

theorem Dev.offsetOf_range (d : Dev) (input : Nat) : -8388608 ≤ d.offsetOf input ∧ d.offsetOf input < 8388608 := by
  unfold Dev.offsetOf
  split
  · exact signed_range (by decide) _
  · decide

theorem wordNumber_range (w : Word) : -268435456 ≤ wordNumber w ∧ wordNumber w < 268435456 := signed_range (by decide) _

/-- The word bits begin afresh, and words with SYNC that are not valid are counted (R66). -/
def Dev.wordsTaken (d : Dev) (n : Nat) : Dev := ({ d with pos := { d.pos with words := (0, 0) } } : Dev).bumpBy C.posWordErr n

theorem Dev.word_wordsTaken_other (d : Dev) (n : Nat) {x : Nat} (hx : x ≠ C.posWordErr) : (d.wordsTaken n).word x = d.word x :=
  (Dev.word_bumpBy_other { d with pos := { d.pos with words := (0, 0) } } C.posWordErr n hx).trans (d.word_pos _ x)

theorem Dev.word_wordsTaken_same (d : Dev) (n : Nat) : (d.wordsTaken n).word C.posWordErr = d.word C.posWordErr + BitVec.ofNat 48 n :=
  Dev.word_putWord_same _ _ _

theorem Dev.get_wordsTaken (d : Dev) (n : Nat) {g : Fld} (hg : g.addr ≠ C.posWordErr) : (d.wordsTaken n).get g = d.get g := by
  rw [Dev.get, Dev.get, Dev.word_wordsTaken_other _ _ hg]

/-- Whether an input's word counts as an error (R66). -/
def wordErr (band : Nat) (w : Word) : Nat := b2n (hasSync w && !wordValid band w)

theorem wordErr_valid {band : Nat} {w : Word} (h : wordValid band w = true) : wordErr band w = 0 := by simp [wordErr, h, b2n]

/-- The word that an input gives for decoding (R66). -/
def Dev.wordOf (d : Dev) (on : Bool) (input : Nat) (w : Word) : Option (Nat × Word) :=
  if on then if wordValid (d.pos.dataBand + input) w then some (input, w) else none else none

/-- The word that a decoding uses (R66): of the active band's input where both inputs give one. -/
def Dev.wordUsed (d : Dev) (onLower onUpper : Bool) : Option (Nat × Word) :=
  if d.flag F.posStatusActiveBand then (d.wordOf onUpper 1 d.pos.words.2).or (d.wordOf onLower 0 d.pos.words.1)
  else (d.wordOf onLower 0 d.pos.words.1).or (d.wordOf onUpper 1 d.pos.words.2)

/-- How many words a decoding counts as errors. -/
def Dev.wordErrs (d : Dev) (onLower onUpper : Bool) : Nat :=
  (if onLower then wordErr d.pos.dataBand d.pos.words.1 else 0) + (if onUpper then wordErr (d.pos.dataBand + 1) d.pos.words.2 else 0)

theorem Dev.bandWord_eq (hfollows : d.follows = false) (onLower onUpper : Bool) :
    d.bandWord onLower onUpper = match d.wordUsed onLower onUpper with
      | some w => (d.wordsTaken (d.wordErrs onLower onUpper)).useWord w.1 (wordNumber w.2)
      | none => d.wordsTaken (d.wordErrs onLower onUpper) := by
  have hflag : (d.wordsTaken (d.wordErrs onLower onUpper)).flag F.posStatusActiveBand = d.flag F.posStatusActiveBand := by
    rw [Dev.flag, Dev.flag, Dev.get_wordsTaken _ _ (by decide)]
  rw [Dev.bandWord, if_neg (by simp [hfollows]), Dev.wordUsed, ← hflag]
  rfl

/-- The inputs that a decoding with `upper`'s word takes, with the other input's where `both` give one. -/
def inputsOf (upper both : Bool) : Bool × Bool := if upper then (both, true) else (true, both)

/-- Of the words of both inputs the one of the active band's input comes first. -/
theorem Dev.wordUsed_inputsOf {w u : Word} {upper both : Bool} (hwords : d.pos.words = if upper then (u, w) else (w, u))
    (hactive : both = true → d.flag F.posStatusActiveBand = upper) :
    d.wordUsed (inputsOf upper both).1 (inputsOf upper both).2
      = (d.wordOf true (b2n upper) w).or (d.wordOf both (b2n !upper) u) := by
  rw [Dev.wordUsed, hwords]
  cases both with
  | false =>
    have hoff : ∀ k v, d.wordOf false k v = none := fun _ _ => rfl
    cases upper with
    | false => simp only [inputsOf, hoff, Bool.false_eq_true, if_false, Option.none_or, Option.or_none, ite_self]; rfl
    | true => simp only [inputsOf, hoff, if_true, Option.none_or, Option.or_none, ite_self]; rfl
  | true =>
    rw [hactive rfl]
    cases upper with
    | false => rfl
    | true => rfl

/-- Each input's word that shows SYNC and is not valid is counted. -/
theorem Dev.wordErrs_inputsOf {w u : Word} {upper both : Bool} (hwords : d.pos.words = if upper then (u, w) else (w, u)) :
    d.wordErrs (inputsOf upper both).1 (inputsOf upper both).2
      = wordErr (d.pos.dataBand + b2n upper) w + if both then wordErr (d.pos.dataBand + 1 - b2n upper) u else 0 := by
  rw [Dev.wordErrs, hwords]
  cases upper with
  | false => rfl
  | true => exact Nat.add_comm _ _

/-- A valid word is used, and the other input's counts where it shows SYNC and is not valid. -/
theorem Dev.bandWord_valid {w u : Word} {upper both : Bool} (hfollows : d.follows = false)
    (hwords : d.pos.words = if upper then (u, w) else (w, u)) (hactive : both = true → d.flag F.posStatusActiveBand = upper)
    (hvalid : wordValid (d.pos.dataBand + b2n upper) w = true) :
    d.bandWord (inputsOf upper both).1 (inputsOf upper both).2
      = (d.wordsTaken (if both then wordErr (d.pos.dataBand + 1 - b2n upper) u else 0)).useWord (b2n upper) (wordNumber w) := by
  have hmine : d.wordOf true (b2n upper) w = some (b2n upper, w) := by rw [Dev.wordOf, if_pos rfl, if_pos hvalid]
  rw [Dev.bandWord_eq hfollows, Dev.wordUsed_inputsOf hwords hactive, hmine, Dev.wordErrs_inputsOf hwords, wordErr_valid hvalid, Nat.zero_add]
  rfl

/-- A word with SYNC that is not valid is counted, and none is used. -/
theorem Dev.bandWord_bad {w u : Word} {upper both : Bool} (hfollows : d.follows = false)
    (hwords : d.pos.words = if upper then (u, w) else (w, u)) (hactive : both = true → d.flag F.posStatusActiveBand = upper)
    (hsync : hasSync w = true)
    (hvalid : wordValid (d.pos.dataBand + b2n upper) w = false) (hother : (both && hasSync u) = false) :
    d.bandWord (inputsOf upper both).1 (inputsOf upper both).2 = d.wordsTaken 1 := by
  have hmine : d.wordOf true (b2n upper) w = none := by rw [Dev.wordOf, if_pos rfl, hvalid]; rfl
  have herr : wordErr (d.pos.dataBand + b2n upper) w = 1 := by rw [wordErr, hsync, hvalid]; rfl
  have hinvalid : ∀ k, both = true → wordValid k u = false := fun k hb => by
    rw [hb, Bool.true_and] at hother
    rw [wordValid, hother, Bool.false_and, Bool.false_and]
  have hyours : d.wordOf both (b2n !upper) u = none := by
    cases both with
    | false => rfl
    | true => rw [Dev.wordOf, if_pos rfl, hinvalid _ rfl]; rfl
  have hnoErr : (if both then wordErr (d.pos.dataBand + 1 - b2n upper) u else 0) = 0 := by
    cases both with
    | false => rfl
    | true => rw [if_pos rfl, wordErr, show hasSync u = false from hother]; rfl
  rw [Dev.bandWord_eq hfollows, Dev.wordUsed_inputsOf hwords hactive, hmine, hyours, Dev.wordErrs_inputsOf hwords, herr, hnoErr]
  rfl

/-- Inputs whose last sample is missing decode nothing. -/
theorem Dev.bandWord_none (hfollows : d.follows = false) : d.bandWord false false = d.wordsTaken 0 := by
  have hused : d.wordUsed false false = none := by simp [Dev.wordUsed, Dev.wordOf]
  rw [Dev.bandWord_eq hfollows, hused]
  rfl

/-- Two words with consecutive numbers set TPOS while it is unset (R67). -/
theorem Dev.useWord_unset {input : Nat} {n : Int} (hmode : d.pos.mode = .unset) (hlast : d.pos.lastWord = some (if d.reverse then n + 1 else n - 1)) :
    d.useWord input n = d.setPosition (decodePlace d.reverse (d.offsetOf input) n) := by
  simp only [Dev.useWord, hmode, hlast, bne_self_eq_false, Bool.and_false, Bool.false_eq_true, if_false, beq_self_eq_true, if_true]

/-- A word that agrees with a locked TPOS is noted and changes nothing else (R68). -/
theorem Dev.useWord_agrees {input : Nat} {n : Int} (hmode : d.pos.mode = .locked)
    (hzero : eyeletsOff d.reverse (decodePlace d.reverse (d.offsetOf input) n) d.tpos = 0) :
    d.useWord input n = { d with pos := { d.pos with lastDiff := none } } := by
  simp only [Dev.useWord, hmode, hzero, bne_self_eq_false, Bool.false_and, Bool.false_eq_true, if_false, if_true]

/-- What a decoding rests on stands where the word bits begin afresh. -/
theorem Dev.reverse_wordsTaken (d : Dev) (n : Nat) : (d.wordsTaken n).reverse = d.reverse := by
  rw [Dev.reverse, Dev.reverse, Dev.flag, Dev.flag, Dev.get_wordsTaken _ _ (by decide)]

theorem Dev.offsetOf_wordsTaken (d : Dev) (n : Nat) (upper : Bool) : (d.wordsTaken n).offsetOf (b2n upper) = d.offsetOf (b2n upper) := by
  have hget : ∀ g : Fld, g.addr = 0x010004 → (d.wordsTaken n).get (g.ix (b2n upper)) = d.get (g.ix (b2n upper)) := fun g hg =>
    d.get_wordsTaken n (by
      simp only [Fld.ix, hg]
      cases upper <;> decide)
  rw [Dev.offsetOf, Dev.offsetOf, Dev.flag, Dev.flag, hget _ rfl, hget _ rfl]

theorem Dev.tpos_wordsTaken (d : Dev) (n : Nat) : (d.wordsTaken n).tpos = d.tpos := Dev.tpos_eq (d.word_wordsTaken_other n (by decide))

theorem Dev.sameMemories_wordsTaken (d : Dev) (n : Nat) : d.sameMemories (d.wordsTaken n) := ⟨rfl, rfl, rfl, rfl⟩

theorem Dev.calm_wordsTaken (d : Dev) (n : Nat) : (d.wordsTaken n).calm = d.calm := Dev.calm_congr rfl rfl

/-! ## The commands -/

theorem Dev.positioned.mode (h : d.positioned p e) : e.pos.mode = if d.pos.fast then .acquire else .count := by rw [h.pos]; rfl

theorem runs_signatureSeen {s : State} (hunset : s.dev.pos.mode = .unset) (endSig : Bool) :
    Runs (.signatureSeen endSig) s fun t => (t.dev.tpos = 512 * signatureEyelet endSig s.dev.reverse
        ∧ t.dev.pos.mode = (if s.dev.pos.fast then .acquire else .count)
        ∧ t.dev.get F.posStatusMode = (if s.dev.pos.fast then 2 else 1) ∧ t.dev.get F.posStatusUncertain = 0)
      ∧ s.wordsBut t [F.posTposTpos.addr, F.posStatusMode.addr] ∧ s.memoriesStand t := by
  refine ⟨_, exec_signatureSeen endSig s, ?_⟩
  have h := Dev.positioned_signature hunset endSig
  exact ⟨⟨h.tpos, h.mode, h.shown, h.certain⟩, h.word, State.memoriesStand_of_same (t := { s with dev := _ }) h.memories⟩

theorem runs_bandWord_sets {s : State} {w u : Word} {upper both : Bool} (hfollows : s.dev.follows = false) (hcalm : s.dev.calm = true)
    (hwords : s.dev.pos.words = if upper then (u, w) else (w, u)) (hactive : both = true → s.dev.flag F.posStatusActiveBand = upper)
    (hvalid : wordValid (s.dev.pos.dataBand + b2n upper) w = true) (hunset : s.dev.pos.mode = .unset)
    (hlast : s.dev.pos.lastWord = some (if s.dev.reverse then wordNumber w + 1 else wordNumber w - 1)) :
    Runs (.bandWordDecoded (inputsOf upper both).1 (inputsOf upper both).2) s fun t =>
      (t.dev.tpos = decodePlace s.dev.reverse (s.dev.offsetOf (b2n upper)) (wordNumber w)
        ∧ t.dev.pos.mode = (if s.dev.pos.fast then .acquire else .count)
        ∧ t.dev.get F.posStatusMode = (if s.dev.pos.fast then 2 else 1) ∧ t.dev.get F.posStatusUncertain = 0)
      ∧ t.dev.pos.words = (0, 0) ∧ s.memoriesStand t := by
  refine ⟨_, exec_bandWordDecoded _ _ s, ?_⟩
  rw [Dev.bandWord_valid hfollows hwords hactive hvalid]
  generalize (if both then wordErr (s.dev.pos.dataBand + 1 - b2n upper) u else 0) = n
  have hrev := s.dev.reverse_wordsTaken n
  have hoffset := s.dev.offsetOf_wordsTaken n upper
  have hmem := s.dev.sameMemories_wordsTaken n
  have hcalm' := (s.dev.calm_wordsTaken n).trans hcalm
  have hmode : (s.dev.wordsTaken n).pos.mode = .unset := hunset
  have hfast : (s.dev.wordsTaken n).pos.fast = s.dev.pos.fast := rfl
  have hlast' : (s.dev.wordsTaken n).pos.lastWord = s.dev.pos.lastWord := rfl
  generalize s.dev.wordsTaken n = e at *
  obtain ⟨hlo, hhi⟩ := decodePlace_range s.dev.reverse (s.dev.offsetOf_range (b2n upper)) (wordNumber_range w)
  have hset := e.positioned_setPosition hlo hhi
  rw [Dev.useWord_unset hmode (by rw [hlast', hlast, hrev]), hrev, hoffset]
  generalize e.setPosition _ = f at *
  have hhost := f.hostOnly_hostSettle ((Dev.calm_congr hset.glb hset.hpt).trans hcalm')
  have hpos : f.hostSettle.pos = f.pos := (Dev.still_of_hostOnly hhost).2.2.2.2.1
  refine ⟨⟨?_, ?_, ?_, ?_⟩, ?_, ?_⟩
  · exact (Dev.tpos_eq (Dev.hostOnly_word hhost (by decide))).trans hset.tpos
  · exact (congrArg Pos.mode hpos).trans (hset.mode.trans (by rw [hfast]))
  · exact (Dev.hostOnly_get hhost (by decide)).trans (hset.shown.trans (by rw [hfast]))
  · exact (Dev.hostOnly_get hhost (by decide)).trans hset.certain
  · exact (congrArg Pos.words hpos).trans (congrArg Pos.words hset.pos)
  · exact State.memoriesStand_of_same (t := { s with dev := _ })
      (Dev.sameMemories_trans hmem (Dev.sameMemories_trans hset.memories (Dev.sameMemories_of_hostOnly hhost)))

/-- The word bits begin afresh and errors are counted, and beside that only POS's notes change. -/
theorem runs_wordsTaken {s : State} {c : Instr} {n : Nat} {p : Pos} (hcalm : s.dev.calm = true)
    (hexec : exec c s = .next { s with dev := Dev.hostSettle { s.dev.wordsTaken n with pos := p } }) :
    Runs c s fun t => t.dev.pos = p ∧ s.wordsBut t [C.posWordErr, C.hptTxSeg]
      ∧ t.dev.word C.posWordErr = s.dev.word C.posWordErr + BitVec.ofNat 48 n ∧ s.memoriesStand t := by
  refine ⟨_, hexec, ?_⟩
  have hmem := s.dev.sameMemories_wordsTaken n
  have hcalm' := (s.dev.calm_wordsTaken n).trans hcalm
  have hother := fun x => s.dev.word_wordsTaken_other n (x := x)
  have hsame := s.dev.word_wordsTaken_same n
  generalize s.dev.wordsTaken n = e at *
  have hword := e.word_pos p
  have hmem' : e.sameMemories { e with pos := p } := ⟨rfl, rfl, rfl, rfl⟩
  have hcalm'' : ({ e with pos := p } : Dev).calm = true := (Dev.calm_congr rfl rfl).trans hcalm'
  have hp : ({ e with pos := p } : Dev).pos = p := rfl
  generalize ({ e with pos := p } : Dev) = f at *
  have hhost := f.hostOnly_hostSettle hcalm''
  refine ⟨(Dev.still_of_hostOnly hhost).2.2.2.2.1.trans hp, fun x hx => ?_, ?_, ?_⟩
  · simp only [List.mem_cons, List.not_mem_nil, or_false, not_or] at hx
    exact (Dev.hostOnly_word hhost hx.2).trans ((hword x).trans (hother x hx.1))
  · exact (Dev.hostOnly_word hhost (by decide)).trans ((hword _).trans hsame)
  · exact State.memoriesStand_of_same (t := { s with dev := _ })
      (Dev.sameMemories_trans hmem (Dev.sameMemories_trans hmem' (Dev.sameMemories_of_hostOnly hhost)))

theorem runs_bandWord_agrees {s : State} {w u : Word} {upper both : Bool} (hfollows : s.dev.follows = false) (hcalm : s.dev.calm = true)
    (hwords : s.dev.pos.words = if upper then (u, w) else (w, u)) (hactive : both = true → s.dev.flag F.posStatusActiveBand = upper)
    (hvalid : wordValid (s.dev.pos.dataBand + b2n upper) w = true) (hlocked : s.dev.pos.mode = .locked)
    (hzero : eyeletsOff s.dev.reverse (decodePlace s.dev.reverse (s.dev.offsetOf (b2n upper)) (wordNumber w)) s.dev.tpos = 0) :
    Runs (.bandWordDecoded (inputsOf upper both).1 (inputsOf upper both).2) s fun t =>
      t.dev.pos = { s.dev.pos with lastDiff := none, words := (0, 0) } ∧ s.wordsBut t [C.posWordErr, C.hptTxSeg]
        ∧ t.dev.word C.posWordErr = s.dev.word C.posWordErr
          + BitVec.ofNat 48 (if both then wordErr (s.dev.pos.dataBand + 1 - b2n upper) u else 0) ∧ s.memoriesStand t := by
  refine runs_wordsTaken hcalm ?_
  rw [exec_bandWordDecoded, Dev.bandWord_valid hfollows hwords hactive hvalid]
  generalize (if both then wordErr (s.dev.pos.dataBand + 1 - b2n upper) u else 0) = n
  have hpos : (s.dev.wordsTaken n).pos = { s.dev.pos with words := (0, 0) } := rfl
  rw [Dev.useWord_agrees (by rw [hpos]; exact hlocked)
    (by rw [Dev.reverse_wordsTaken, Dev.offsetOf_wordsTaken, Dev.tpos_wordsTaken]; exact hzero), hpos]

theorem runs_bandWord_bad {s : State} {w u : Word} {upper both : Bool} (hfollows : s.dev.follows = false) (hcalm : s.dev.calm = true)
    (hwords : s.dev.pos.words = if upper then (u, w) else (w, u)) (hactive : both = true → s.dev.flag F.posStatusActiveBand = upper)
    (hsync : hasSync w = true)
    (hvalid : wordValid (s.dev.pos.dataBand + b2n upper) w = false) (hother : (both && hasSync u) = false) :
    Runs (.bandWordDecoded (inputsOf upper both).1 (inputsOf upper both).2) s fun t =>
      t.dev.word C.posWordErr = s.dev.word C.posWordErr + 1 ∧ t.dev.pos = { s.dev.pos with words := (0, 0) }
        ∧ s.wordsBut t [C.posWordErr, C.hptTxSeg] ∧ s.memoriesStand t := by
  obtain ⟨t, hexec, hpos, hword, herr, hmem⟩ := runs_wordsTaken (c := .bandWordDecoded (inputsOf upper both).1 (inputsOf upper both).2) (n := 1)
    (p := { s.dev.pos with words := (0, 0) }) hcalm (by rw [exec_bandWordDecoded, Dev.bandWord_bad hfollows hwords hactive hsync hvalid hother]; rfl)
  exact ⟨t, hexec, herr, hpos, hword, hmem⟩

theorem runs_bandWord_none {s : State} (hfollows : s.dev.follows = false) (hcalm : s.dev.calm = true) :
    Runs (.bandWordDecoded false false) s fun t => t.dev.pos = { s.dev.pos with words := (0, 0) } ∧ s.wordsBut t [C.posWordErr, C.hptTxSeg]
      ∧ t.dev.word C.posWordErr = s.dev.word C.posWordErr ∧ s.memoriesStand t := by
  obtain ⟨t, hexec, hpos, hword, herr, hmem⟩ := runs_wordsTaken (c := .bandWordDecoded false false) (n := 0)
    (p := { s.dev.pos with words := (0, 0) }) hcalm (by rw [exec_bandWordDecoded, Dev.bandWord_none hfollows]; rfl)
  exact ⟨t, hexec, hpos, hword, herr.trans (BitVec.add_zero _), hmem⟩

end Sys2Proof.Machine
end

section
/-!
SUPPORT. The course of the tape: POS, what its registers show and count of it, and the memories. What the device does beside the timebase
when an eyelet window closes or the position is lost leaves it alone.
-/
namespace Sys2Proof.Machine

variable {d e : Dev}

/-- POS but for its entries, the samples of the skew and whether eyelets are still counted. -/
def Pos.course (p : Pos) : Pos := { p with entries := [], skews := [], silent := false }

/-- The fields of POS.STATUS that the timebase keeps. -/
def statusFields : List Fld :=
  [F.posStatusMode, F.posStatusUncertain, F.posStatusUncertainSeen, F.posStatusLostSeen, F.posStatusMissLower, F.posStatusMissUpper,
    F.posStatusActiveBand, F.posStatusDir]

/-- The fields that show where the tape is. -/
def courseFields : List Fld := F.posTposTpos :: statusFields

/-- The counts of what becomes of the position. -/
def courseCounts : List Nat := [C.posUncertain, C.posLost, C.posFlywheel]

def courseWords : List Nat := [F.posTposTpos.addr, F.posStatusMode.addr] ++ courseCounts

/-- The course, with the memories and what keeps the host side calm. -/
structure Course where
  ddr : Memory
  nor : Memory
  feram : Memory
  cobMem : Memory
  states : List CState
  held : Bool
  pos : Pos
  shown : List Nat
  counts : List Word

def Dev.course (d : Dev) : Course :=
  ⟨d.ddr, d.nor, d.feram, d.cobMem, d.hpt.conns.map Conn.st, d.glb.standbyHeld, d.pos.course, courseFields.map d.get, courseCounts.map d.word⟩

/-! ## What the course says -/

theorem Dev.course_get (h : e.course = d.course) {f : Fld} (hf : f ∈ courseFields) : e.get f = d.get f :=
  List.map_inj_left.mp (congrArg Course.shown h) f hf

theorem Dev.course_word (h : e.course = d.course) {x : Nat} (hx : x ∈ courseCounts) : e.word x = d.word x :=
  List.map_inj_left.mp (congrArg Course.counts h) x hx

theorem Dev.course_tpos (h : e.course = d.course) : e.tpos = d.tpos := by
  rw [Dev.tpos, Dev.tpos, Dev.course_get h (by decide)]

theorem Dev.course_pos (h : e.course = d.course) : e.pos.course = d.pos.course := congrArg Course.pos h

theorem Dev.course_mode (h : e.course = d.course) : e.pos.mode = d.pos.mode := (congrArg Pos.mode (Dev.course_pos h) :)

theorem Dev.course_runLower (h : e.course = d.course) : e.pos.runLower = d.pos.runLower := (congrArg Pos.runLower (Dev.course_pos h) :)
theorem Dev.course_runUpper (h : e.course = d.course) : e.pos.runUpper = d.pos.runUpper := (congrArg Pos.runUpper (Dev.course_pos h) :)
theorem Dev.course_interval (h : e.course = d.course) : e.pos.interval = d.pos.interval := (congrArg Pos.interval (Dev.course_pos h) :)

theorem Dev.course_memories (h : e.course = d.course) : d.sameMemories e :=
  ⟨congrArg Course.ddr h, congrArg Course.nor h, congrArg Course.feram h, congrArg Course.cobMem h⟩

theorem Dev.calm_of_held (hheld : e.glb.standbyHeld = d.glb.standbyHeld) (hstates : e.hpt.conns.map Conn.st = d.hpt.conns.map Conn.st) :
    e.calm = d.calm := by
  have hall : ∀ l : List Conn, (l.all fun k => k.st != .closeWait) = (l.map Conn.st).all fun s => s != .closeWait := fun l => by
    rw [List.all_map]
    rfl
  rw [Dev.calm, Dev.calm, hall, hall, hstates, hheld]

theorem Dev.course_calm (h : e.course = d.course) : e.calm = d.calm :=
  Dev.calm_of_held (congrArg Course.held h) (congrArg Course.states h)

/-! ## What has the same course -/

theorem Dev.course_of (hmem : d.sameMemories e) (hpos : e.pos.course = d.pos.course) (hheld : e.glb.standbyHeld = d.glb.standbyHeld)
    (hstates : e.hpt.conns.map Conn.st = d.hpt.conns.map Conn.st) (hword : ∀ x ∈ courseWords, e.word x = d.word x) : e.course = d.course := by
  obtain ⟨hddr, hnor, hferam, hcob⟩ := hmem
  have hshown : courseFields.map e.get = courseFields.map d.get := List.map_congr_left fun f hf => by
    rw [Dev.get, Dev.get, hword _ ((by decide : ∀ f ∈ courseFields, f.addr ∈ courseWords) f hf)]
  have hcounts : courseCounts.map e.word = courseCounts.map d.word :=
    List.map_congr_left fun x hx => hword x ((by decide : ∀ x ∈ courseCounts, x ∈ courseWords) x hx)
  rw [Dev.course, Dev.course, hddr, hnor, hferam, hcob, hpos, hheld, hstates, hshown, hcounts]

theorem Dev.course_putWord (d : Dev) {a : Nat} (w : Word) (ha : a ∉ courseWords) : (d.putWord a w).course = d.course :=
  Dev.course_of ⟨rfl, rfl, rfl, rfl⟩ rfl rfl rfl fun _ hx => d.word_putWord_other w (ne_of_mem_of_not_mem hx ha)

theorem Dev.course_set (d : Dev) {f : Fld} (v : Nat) (hf : f.addr ∉ courseWords) : (d.set f v).course = d.course := d.course_putWord _ hf
theorem Dev.course_bumpBy (d : Dev) {a : Nat} (n : Nat) (ha : a ∉ courseWords) : (d.bumpBy a n).course = d.course := d.course_putWord _ ha
theorem Dev.course_bump (d : Dev) {a : Nat} (ha : a ∉ courseWords) : (d.bump a).course = d.course := d.course_bumpBy 1 ha

theorem Dev.course_strm (d : Dev) (t : Strm) : ({ d with strm := t } : Dev).course = d.course := by cases d; rfl
theorem Dev.course_plc (d : Dev) (t : Plc) : ({ d with plc := t } : Dev).course = d.course := by cases d; rfl
theorem Dev.course_cqm (d : Dev) (t : Cqm) : ({ d with cqm := t } : Dev).course = d.course := by cases d; rfl
theorem Dev.course_tce (d : Dev) (t : Tce) : ({ d with tce := t } : Dev).course = d.course := by cases d; rfl
theorem Dev.course_chan (d : Dev) (t : Chan) : ({ d with chan := t } : Dev).course = d.course := by cases d; rfl
theorem Dev.course_placing (d : Dev) (strm : Strm) (plc : Plc) (cqm : Cqm) (ecc : Ecc) (tce : Tce) :
    ({ d with strm := strm, plc := plc, cqm := cqm, ecc := ecc, tce := tce } : Dev).course = d.course := by cases d; rfl
theorem Dev.course_mdr (d : Dev) (t : Mdr) : ({ d with mdr := t } : Dev).course = d.course := by cases d; rfl
theorem Dev.course_emit (d : Dev) (o : Out) : (d.emit o).course = d.course := by cases d; rfl
theorem Dev.course_fresh (d : Dev) : d.fresh.2.course = d.course := by cases d; rfl
theorem Dev.course_nextMsg (d : Dev) (n : Nat) : ({ d with hpt := { d.hpt with nextMsg := n } } : Dev).course = d.course := by cases d; rfl
theorem Dev.course_dropEntries (d : Dev) (p : Entry → Bool) : (d.dropEntries p).course = d.course := by cases d; rfl
theorem Dev.course_modPlc (d : Dev) (f : Plc → Plc) : (d.modPlc f).course = d.course := d.course_plc _
theorem Dev.course_modSession (d : Dev) (f : Session → Session) : (d.modSession f).course = d.course := d.course_plc _
theorem Dev.course_modDset (d : Dev) (id : Nat) (f : DSet → DSet) : (d.modDset id f).course = d.course := d.course_plc _
theorem Dev.course_modCmd (d : Dev) (h : Nat) (f : Cmd → Cmd) : (d.modCmd h f).course = d.course := d.course_cqm _
theorem Dev.course_mapCmds (d : Dev) (f : Cmd → Cmd) : (d.mapCmds f).course = d.course := d.course_cqm _
theorem Dev.course_dropCmds (d : Dev) (p : Cmd → Bool) : (d.dropCmds p).course = d.course := d.course_cqm _
theorem Dev.course_modQueue (d : Dev) (q : Nat) (f : Queue → Queue) : (d.modQueue q f).course = d.course := d.course_cqm _

theorem Dev.course_ite {p : Prop} [Decidable p] {a b : Dev} (ha : a.course = d.course) (hb : b.course = d.course) :
    (if p then a else b).course = d.course := by
  split
  · exact ha
  · exact hb

theorem Dev.course_foldl {α : Type} {f : Dev → α → Dev} (h : ∀ d x, (f d x).course = d.course) (l : List α) (d : Dev) :
    (l.foldl f d).course = d.course :=
  List.foldlRecOn (motive := fun e : Dev => e.course = d.course) l f rfl fun e he x _ => (h e x).trans he

theorem Dev.course_of_linkOnly (h : d.linkOnly e) : e.course = d.course := by
  rw [h.1]
  rfl

theorem Dev.course_of_stateOnly {st : DevState} (h : d.stateOnly st e) : e.course = d.course := by
  obtain ⟨glb, cas, out, rfl, -, hheld⟩ := h
  exact Dev.course_of ⟨rfl, rfl, rfl, rfl⟩ rfl hheld rfl fun _ _ => rfl

theorem Dev.course_of_logOnly (h : d.logOnly e) : e.course = d.course := by
  obtain ⟨heq, hword⟩ := h
  have hword' : ∀ x ∈ courseWords, e.word x = d.word x := fun x hx => hword x (ne_of_mem_of_not_mem hx (by decide))
  clear hword
  generalize e.regs = regs, e.cqm.log = log, e.cqm.logSeq = seq at heq
  subst heq
  exact Dev.course_of ⟨rfl, rfl, rfl, rfl⟩ rfl rfl rfl hword'

theorem Dev.course_of_givesUp (h : d.givesUp e) : e.course = d.course := by
  obtain ⟨heq, hword⟩ := h
  have hword' : ∀ x ∈ courseWords, e.word x = d.word x := fun x hx => hword x (ne_of_mem_of_not_mem hx (by decide))
  clear hword
  generalize e.regs = regs, e.pools = pools, e.strm = strm, e.plc = plc, e.ecc = ecc at heq
  subst heq
  exact Dev.course_of ⟨rfl, rfl, rfl, rfl⟩ rfl rfl rfl hword'

theorem Dev.course_of_fifosOnly (h : d.fifosOnly e) : e.course = d.course := by
  have hword : ∀ x ∈ courseWords, e.word x = d.word x := fun x hx => h.2 x (ne_of_mem_of_not_mem hx (by decide))
  exact Dev.course_of (Dev.fifosOnly_memories h) (congrArg Pos.course (Dev.fifosOnly_pos h)) (congrArg Glb.standbyHeld (Dev.fifosOnly_glb h))
    (congrArg (fun t : Hpt => t.conns.map Conn.st) (Dev.fifosOnly_hpt h)) hword

theorem Dev.course_of_fifoSide (h : d.fifoSide e) : e.course = d.course := by
  obtain ⟨heq, hword, -⟩ := h
  have hword' : ∀ x ∈ courseWords, e.word x = d.word x := fun x hx => hword x (ne_of_mem_of_not_mem hx (by decide))
  clear hword
  generalize e.chan.high = high, e.chan.low = low, e.cas = cas, e.regs = regs, e.out = out at heq
  subst heq
  exact Dev.course_of ⟨rfl, rfl, rfl, rfl⟩ rfl rfl rfl hword'

theorem Dev.course_of_hostOnly (h : d.hostOnly e) : e.course = d.course := by
  obtain ⟨hglb, -, -, -, hpos, -⟩ := Dev.still_of_hostOnly h
  have hword : ∀ x ∈ courseWords, e.word x = d.word x := fun x hx => Dev.hostOnly_word h (ne_of_mem_of_not_mem hx (by decide))
  have hstates : ∀ l : List Conn, l.map Conn.st = (l.map Conn.core).map Conn.st := fun l => by
    rw [List.map_map]
    rfl
  refine Dev.course_of (Dev.sameMemories_of_hostOnly h) (congrArg Pos.course hpos) (congrArg Glb.standbyHeld hglb) ?_ hword
  rw [hstates, h.2.1, ← hstates]

theorem Dev.course_hostSettle (hcalm : d.calm = true) : d.hostSettle.course = d.course := Dev.course_of_hostOnly (d.hostOnly_hostSettle hcalm)

/-! ## Shared operations -/

theorem Dev.course_release (d : Dev) (h o : Nat) : (d.release h o).course = d.course := Dev.course_of_givesUp (d.givesUp_release h o)
theorem Dev.course_releaseAll (d : Dev) (hs : List Nat) (o : Nat) : (d.releaseAll hs o).course = d.course :=
  Dev.course_of_givesUp (d.givesUp_releaseAll hs o)
theorem Dev.course_freeDset (d : Dev) (x : DSet) : (d.freeDset x).course = d.course := Dev.course_of_givesUp (d.givesUp_freeDset x)
theorem Dev.course_dropDecode (d : Dev) (x : Decode) : (d.dropDecode x).course = d.course := Dev.course_of_givesUp (d.givesUp_dropDecode x)
theorem Dev.course_log (d : Dev) (y : LogEntry) : (d.log y).course = d.course := Dev.course_of_logOnly (d.logOnly_log y)
theorem Dev.course_settleFifos (d : Dev) : d.settleFifos.course = d.course := Dev.course_of_fifoSide d.fifoSide_settleFifos
theorem Dev.course_standStill (d : Dev) : d.standStill.course = d.course := by
  obtain ⟨st, h⟩ := d.stateOnly_standStill
  exact Dev.course_of_stateOnly h

theorem Dev.course_tellMaster (d : Dev) (m : LinkMsg) : (d.tellMaster m).course = d.course := by
  unfold Dev.tellMaster
  exact Dev.course_ite (Dev.course_of_linkOnly (d.linkOnly_sendLink 0 1 m)) rfl

theorem Dev.course_sendMsg (d : Dev) (c typ cls : Nat) (p : Payload) (len : Nat) (st : Option Nat) (bufs : List Nat) :
    (d.sendMsg c typ cls p len st bufs).course = d.course :=
  Dev.course_of ⟨rfl, rfl, rfl, rfl⟩ rfl rfl (d.tells_sendMsg c typ cls p len st bufs).2 fun _ _ => rfl

theorem Dev.course_notice (d : Dev) (code : Nat) (es : List (List Byte)) : (d.notice code es).course = d.course :=
  Dev.course_foldl (fun e _ => e.course_sendMsg _ _ _ _ _ _ _) _ d

/-- The write gate's level shows in no field of the course. -/
theorem Dev.course_closeGate (d : Dev) : d.closeGate.course = d.course := by
  unfold Dev.closeGate
  refine Dev.course_ite ((Dev.course_emit _ _).trans ?_) rfl
  have hshown : courseFields.map (d.set F.posStatusWriteGate 0).get = courseFields.map d.get :=
    List.map_congr_left fun f hf => d.get_set_other F.posStatusWriteGate f 0
      ((by decide : ∀ f ∈ courseFields, (f.addr != F.posStatusWriteGate.addr || F.posStatusWriteGate.apart f) = true) f hf)
  have hcounts : courseCounts.map (d.set F.posStatusWriteGate 0).word = courseCounts.map d.word :=
    List.map_congr_left fun x hx => d.word_set_other F.posStatusWriteGate 0
      ((by decide : ∀ x ∈ courseCounts, x ≠ F.posStatusWriteGate.addr) x hx)
  rw [Dev.course, hshown, hcounts]
  rfl

end Sys2Proof.Machine
end

section
/-!
SUPPORT. The course of the tape where commands complete and what the device places on tape is given up (R86, R300, R325).
-/
namespace Sys2Proof.Machine

variable {d e : Dev}

/-! ## Completion -/

theorem Dev.course_freeze (d : Dev) (c : Cmd) : (d.freeze c).course = d.course := by
  unfold Dev.freeze
  refine Dev.course_ite rfl ?_
  extract_lets frozen held y
  have hheld : held.course = d.course := (Dev.course_mapCmds _ _).trans (Dev.course_modQueue _ _ _)
  clear_value held
  exact (Dev.course_bump _ (by decide)).trans (Dev.course_ite ((Dev.course_cqm _ _).trans hheld) ((Dev.course_log _ _).trans hheld))

theorem Dev.course_sendFor (d : Dev) (c : Cmd) (typ : Nat) (p : Payload) (len : Nat) (status : Option Nat) (bufs : List Nat) :
    (d.sendFor c typ p len status bufs).course = d.course := by
  unfold Dev.sendFor
  split
  · exact Dev.course_ite (Dev.course_log _ _) (Dev.course_releaseAll _ _ _)
  · split
    · exact Dev.course_sendMsg _ _ _ _ _ _ _ _
    · exact (Dev.course_nextMsg _ _).trans (Dev.course_modQueue _ _ _)

theorem Dev.course_completeNow (d : Dev) (c : Cmd) (status : Nat) (detail : List Byte) (already : Bool) (retry : Nat) :
    (d.completeNow c status detail already retry).course = d.course := by
  unfold Dev.completeNow
  extract_lets err refusal froze logged seq told bs freed _ charged busy done sent
  have hlogged : logged.course = d.course := Dev.course_ite (Dev.course_log _ _) rfl
  clear_value logged
  have htold : told.course = d.course := Dev.course_ite ((Dev.course_freeze _ _).trans hlogged) hlogged
  clear_value told
  have hfreed : freed.course = d.course := (Dev.course_releaseAll _ _ _).trans htold
  clear_value freed
  have hcharged : charged.course = d.course := Dev.course_ite ((Dev.course_cqm _ _).trans hfreed) hfreed
  clear_value charged
  have hbusy : busy.course = d.course := Dev.course_ite ((Dev.course_bump _ (by decide)).trans hcharged) hcharged
  clear_value busy
  have hsent : sent.course = d.course := (Dev.course_sendFor _ _ _ _ _ _ _).trans ((Dev.course_modCmd _ _ _).trans hbusy)
  clear_value sent
  exact Dev.course_ite hsent ((Dev.course_dropCmds _ _).trans hsent)

theorem Dev.course_settle (n : Nat) : ∀ d : Dev, (d.settle n).course = d.course := by
  induction n with
  | zero => exact fun _ => rfl
  | succ n ih =>
    intro d
    unfold Dev.settle
    split
    · rfl
    · split
      · exact (ih _).trans (Dev.course_completeNow _ _ _ _ _ _)
      · rfl

theorem Dev.course_finish (d : Dev) (h status : Nat) (detail : List Byte) (already : Bool) :
    (d.finish h status detail already).course = d.course :=
  (Dev.course_settle _ _).trans (Dev.course_modCmd _ _ _)

/-! ## The write path's FIFOs -/

theorem Dev.course_putFifo (d : Dev) (n : Nat) (f : Fifo) : (d.putFifo n f).course = d.course := by cases d; rfl

theorem Dev.course_unmark (d : Dev) : d.unmark.course = d.course :=
  (Dev.course_of_fifosOnly d.unmark_spec.1).trans (d.course_plc _)

theorem Dev.course_takeWords (d : Dev) : d.takeWords.course = d.course := by
  unfold Dev.takeWords
  split
  · rfl
  next g n _ =>
  extract_lets m taken
  have htaken : taken.course = d.course := Dev.course_foldl (fun e c => e.course_putFifo _ _) _ _
  clear_value taken
  exact Dev.course_ite rfl ((Dev.course_settleFifos _).trans ((Dev.course_chan _ _).trans htaken))

theorem Dev.course_endTaking (d : Dev) : d.endTaking.course = d.course := by
  unfold Dev.endTaking
  split
  · rfl
  next n _ =>
  extract_lets taken
  have htaken : taken.course = d.course := Dev.course_foldl (fun e c => e.course_putFifo _ _) _ _
  clear_value taken
  exact (Dev.course_settleFifos _).trans ((Dev.course_chan _ _).trans htaken)

/-! ## Data sets are given up -/

theorem Dev.course_cancelStarts (d : Dev) : d.cancelStarts.course = d.course := by
  unfold Dev.cancelStarts
  split
  · exact Dev.course_dropEntries _ _
  · exact (Dev.course_dropEntries _ _).trans (Dev.course_modPlc _ _)

theorem Dev.course_noteDecision (d : Dev) (k : Copy) (reason : Nat) (m : Nat × Nat) : (d.noteDecision k reason m).course = d.course := by
  unfold Dev.noteDecision
  extract_lets shown counted
  have hshown : shown.course = d.course :=
    (Dev.course_set _ _ (by decide)).trans <| (Dev.course_set _ _ (by decide)).trans <| (Dev.course_set _ _ (by decide)).trans <|
      (Dev.course_set _ _ (by decide)).trans <| (Dev.course_set _ _ (by decide)).trans <| (Dev.course_set _ _ (by decide)).trans
        (Dev.course_set _ _ (by decide))
  clear_value shown
  have hcounted : counted.course = d.course := (Dev.course_bump _ (by decide)).trans hshown
  clear_value counted
  exact Dev.course_ite hcounted ((Dev.course_bump _ (by decide)).trans hcounted)

theorem Dev.course_supersede (d : Dev) (x : DSet) : (d.supersede x).course = d.course := by
  unfold Dev.supersede
  extract_lets seg counted unlisted freed again some_ clicks _ placed open_ told
  have hcounted : counted.course = d.course := (Dev.course_bump _ (by decide)).trans (Dev.course_modDset _ _ _)
  clear_value counted
  have hfreed : freed.course = d.course := (Dev.course_release _ _ _).trans ((Dev.course_modPlc _ _).trans hcounted)
  clear_value freed
  have hplaced : placed.course = d.course := (Dev.course_strm _ _).trans hfreed
  clear_value placed
  have hopen : open_.course = d.course := Dev.course_ite ((Dev.course_modSession _ _).trans hplaced) hplaced
  clear_value open_
  have htold : told.course = d.course := Dev.course_ite ((Dev.course_tellMaster _ _).trans hopen) hopen
  clear_value told
  exact Dev.course_ite htold ((Dev.course_freeDset _ _).trans htold)

theorem Dev.course_pend (d : Dev) (x : DSet) : (d.pend x).course = d.course := Dev.course_modPlc _ _

theorem Dev.course_failOver (d : Dev) (id : Nat) : (d.failOver id).course = d.course := by
  unfold Dev.failOver
  split
  · exact Dev.course_ite rfl (Dev.course_ite (Dev.course_supersede _ _) (Dev.course_pend _ _))
  · rfl

theorem Dev.course_failWritten (d : Dev) : d.failWritten.course = d.course := by
  unfold Dev.failWritten
  split
  · exact (Dev.course_closeGate _).trans (Dev.course_dropEntries _ _)
  next s _ =>
  extract_lets rev last closed s' resumed mine gone noted ids lost dropped before early kept
  have hclosed : closed.course = d.course := (Dev.course_endTaking _).trans <| (Dev.course_unmark _).trans <| (Dev.course_closeGate _).trans <|
    (Dev.course_dropEntries _ _).trans (Dev.course_cancelStarts _)
  clear_value closed
  have hresumed : resumed.course = d.course := (Dev.course_modSession _ _).trans hclosed
  clear_value resumed
  have hnoted : noted.course = d.course := (Dev.course_foldl (fun e _ => e.course_noteDecision _ _ _) _ _).trans hresumed
  clear_value noted
  have hlost : lost.course = d.course := (Dev.course_foldl (fun e _ => e.course_modDset _ _) _ _).trans hnoted
  clear_value lost
  have hdropped : dropped.course = d.course := (Dev.course_foldl (fun e _ => e.course_dropDecode _) _ _).trans hlost
  clear_value dropped
  have hkept : kept.course = d.course := (Dev.course_modPlc _ _).trans hdropped
  clear_value kept
  exact (Dev.course_foldl (fun e _ => e.course_failOver _) _ _).trans hkept

theorem Dev.course_forceHold (d : Dev) (cause : Nat) (ended : Bool) : (d.forceHold cause ended).course = d.course := by
  unfold Dev.forceHold
  exact Dev.course_ite rfl (Dev.course_modPlc _ _)

theorem Dev.course_cancelShots (d : Dev) : d.cancelShots.course = d.course := by
  obtain ⟨entries, cnt, pools, h⟩ := d.cancelShots_eq
  rw [h]
  exact Dev.course_of ⟨rfl, rfl, rfl, rfl⟩ rfl rfl rfl fun _ _ => rfl

/-! ## Appending settles -/

theorem Dev.course_giveTarget (d : Dev) (t : PgTarget) : (d.giveTarget t).course = d.course := by
  unfold Dev.giveTarget
  exact Dev.course_ite rfl (Dev.course_ite (Dev.course_tce _ _) ((Dev.course_bump _ (by decide)).trans (Dev.course_tce _ _)))

theorem Dev.course_settleTape (d : Dev) : d.settleTape.course = d.course := by
  have hretire : d.retire.course = d.course := by
    unfold Dev.retire
    extract_lets done rec_ note clicks _ _ safe keep kept
    have hsafe : safe.course = d.course := d.course_placing _ _ _ _ _
    clear_value safe
    exact (Dev.course_modPlc _ _).trans ((Dev.course_modPlc _ _).trans hsafe)
  unfold Dev.settleTape Dev.settleWaits
  extract_lets busy over_ done left
  exact (Dev.course_foldl (fun e _ => e.course_finish _ _ _ _) _ _).trans ((Dev.course_cqm _ _).trans hretire)

theorem Dev.course_beginSession (d : Dev) : d.beginSession.course = d.course := by
  unfold Dev.beginSession
  split
  · rfl
  extract_lets p room g group s _ plc ctxs _ begun
  have hbegun : begun.course = d.course := d.course_placing _ _ _ _ _
  clear_value begun
  exact (Dev.course_set _ _ (by decide)).trans ((Dev.course_set _ _ (by decide)).trans hbegun)

theorem Dev.course_dropParity (d : Dev) : d.dropParity.course = d.course :=
  (Dev.course_modPlc _ _).trans ((Dev.course_releaseAll _ _ _).trans (Dev.course_releaseAll _ _ _))

theorem Dev.course_closeSession (d : Dev) (next : Option Nat) : (d.closeSession next).course = d.course := by
  unfold Dev.closeSession
  split
  · rfl
  next s _ =>
  extract_lets quit heels freed _ lane closed stood _ _ judged
  have hquit : quit.course = d.course := (Dev.course_dropEntries _ _).trans (Dev.course_dropEntries _ _)
  clear_value quit
  have hfreed : freed.course = d.course := (Dev.course_dropParity _).trans ((Dev.course_foldl Dev.course_freeDset _ _).trans hquit)
  clear_value freed
  have hclosed : closed.course = d.course := (Dev.course_modPlc _ _).trans hfreed
  clear_value closed
  have hstood : stood.course = d.course :=
    (Dev.course_standStill _).trans ((Dev.course_settleTape _).trans ((Dev.course_giveTarget _ _).trans hclosed))
  clear_value stood
  have hjudged : judged.course = d.course :=
    Dev.course_ite ((stood.course_placing _ _ _ _ _).trans hstood) hstood
  clear_value judged
  exact Dev.course_ite (Dev.course_ite ((Dev.course_modPlc _ _).trans hjudged) ((Dev.course_beginSession _).trans hjudged)) hjudged

theorem Dev.course_settleSession (d : Dev) : d.settleSession.course = d.course := by
  unfold Dev.settleSession
  split
  · rfl
  · split
    · rfl
    next s _ x _ =>
    extract_lets rev lastCopy good now ended
    have hended : ended.course = d.course := Dev.course_ite ((Dev.course_modSession _ _).trans (Dev.course_dropEntries _ _)) rfl
    clear_value ended
    exact Dev.course_ite ((Dev.course_closeSession _ _).trans hended) hended

theorem Dev.course_judgeStop (d : Dev) : d.judgeStop.course = d.course := by
  unfold Dev.judgeStop
  split
  · rfl
  next code _ =>
  split
  · rfl
  extract_lets streams lost entries noted back hs freed idle _ cleared unstaged sets unset judged told fail_ _ unwaited
  have hnoted : noted.course = d.course := Dev.course_foldl (fun e _ => e.course_plc _) _ _
  clear_value noted
  have hcleared : cleared.course = d.course := (Dev.course_strm _ _).trans ((Dev.course_releaseAll _ _ _).trans hnoted)
  clear_value cleared
  have hunset : unset.course = d.course := (Dev.course_foldl Dev.course_freeDset _ _).trans ((Dev.course_releaseAll _ _ _).trans hcleared)
  clear_value unset
  have hjudged : judged.course = d.course := (Dev.course_modPlc _ _).trans hunset
  clear_value judged
  have htold : told.course = d.course := Dev.course_ite hjudged ((Dev.course_notice _ _ _).trans ((Dev.course_log _ _).trans hjudged))
  clear_value told
  exact (Dev.course_foldl (fun e _ => e.course_finish _ _ _ _) _ _).trans ((Dev.course_cqm _ _).trans htold)

theorem Dev.course_settleAppend (d : Dev) : d.settleAppend.course = d.course := by
  unfold Dev.settleAppend
  extract_lets settled
  have hsettled : settled.course = d.course := (Dev.course_settleSession _).trans (Dev.course_settleTape _)
  clear_value settled
  exact (Dev.course_judgeStop _).trans (Dev.course_ite ((Dev.course_closeSession _ _).trans hsettled) hsettled)

end Sys2Proof.Machine
end

section
/-!
SUPPORT. UNCERTAIN_TIMEOUT (R86), EYELET_WINDOW_CLOSE (R69, R75, R76) and EYELET_MARK_COUNTED (R74).
-/
namespace Sys2Proof.Machine

variable {d e : Dev}

theorem exec_uncertainTimeout (s : State) : exec .uncertainTimeout s = .next { s with dev := s.dev.uncertainTimeout.hostSettle } := rfl

theorem exec_eyeletWindowClose (lower upper : Marks) (s : State) :
    exec (.eyeletWindowClose lower upper) s = .next { s with dev := (s.dev.windowClose lower upper).hostSettle } := rfl

theorem exec_eyeletMarkCounted (interval : Nat) (s : State) :
    exec (.eyeletMarkCounted interval) s = .next { s with dev := s.dev.markCounted interval } := rfl

/-! ## Steps that write registers or POS alone -/

/-- The memories stand, and so does what the host side turns on. -/
def Dev.apart (d e : Dev) : Prop := d.sameMemories e ∧ e.glb = d.glb ∧ e.hpt = d.hpt

theorem Dev.apart_trans {f : Dev} (h : d.apart e) (k : e.apart f) : d.apart f :=
  ⟨Dev.sameMemories_trans h.1 k.1, k.2.1.trans h.2.1, k.2.2.trans h.2.2⟩

theorem Dev.apart_putWord (d : Dev) (a : Nat) (w : Word) : d.apart (d.putWord a w) := ⟨⟨rfl, rfl, rfl, rfl⟩, rfl, rfl⟩
theorem Dev.apart_set (d : Dev) (f : Fld) (v : Nat) : d.apart (d.set f v) := d.apart_putWord _ _
theorem Dev.apart_bump (d : Dev) (a : Nat) : d.apart (d.bump a) := d.apart_putWord _ _
theorem Dev.apart_pos (d : Dev) (p : Pos) : d.apart { d with pos := p } := ⟨⟨rfl, rfl, rfl, rfl⟩, rfl, rfl⟩

theorem Dev.apart_goMode (d : Dev) (m : PosMode) : d.apart (d.goMode m) := by
  obtain ⟨⟨regs, h⟩, -⟩ := d.goMode_spec m
  rw [h]
  exact ⟨⟨rfl, rfl, rfl, rfl⟩, rfl, rfl⟩

theorem Dev.get_bump (d : Dev) {a : Nat} {f : Fld} (hf : f.addr ≠ a) : (d.bump a).get f = d.get f := d.get_bumpBy a 1 f hf

theorem Dev.calm_of_apart (h : d.apart e) : e.calm = d.calm := Dev.calm_congr h.2.1 h.2.2

/-! ## The position is lost -/

/-- The position is lost: what the statement says of it (R86). -/
structure Dev.lost (d e : Dev) : Prop where
  mode : e.pos.mode = .unset
  shown : e.get F.posStatusMode = 0
  seen : e.get F.posStatusLostSeen = 1
  count : e.word C.posLost = d.word C.posLost + 1
  memories : d.sameMemories e
  calm : e.calm = d.calm

theorem Dev.lost_losePosition (d : Dev) : d.lost d.losePosition := by
  unfold Dev.losePosition
  extract_lets failed _ unset counted
  have hfailed : failed.course = d.course := (Dev.course_cancelShots _).trans ((Dev.course_forceHold _ _ _).trans d.course_failWritten)
  clear_value failed
  have hunset : failed.apart unset := failed.apart_pos _
  have hword : ∀ x, unset.word x = failed.word x := fun x => failed.word_pos _ x
  clear_value unset
  have hmode : counted.pos.mode = .unset := rfl
  have hcounted : unset.apart counted := Dev.apart_trans (unset.apart_goMode .unset) (Dev.apart_trans (Dev.apart_set _ _ _) (Dev.apart_bump _ _))
  have hshown : counted.get F.posStatusMode = 0 := by
    rw [show counted = ((unset.goMode .unset).set F.posStatusLostSeen 1).bump C.posLost from rfl, Dev.get_bump _ (by decide),
      Dev.get_set_other _ _ _ _ (by decide), (unset.get_goMode .unset).1]
    rfl
  have hseen : counted.get F.posStatusLostSeen = 1 := by
    rw [show counted = ((unset.goMode .unset).set F.posStatusLostSeen 1).bump C.posLost from rfl, Dev.get_bump _ (by decide),
      Dev.get_set_same _ _ _ (by decide)]
    rfl
  have hcount : counted.word C.posLost = d.word C.posLost + 1 := by
    rw [show counted = ((unset.goMode .unset).set F.posStatusLostSeen 1).bump C.posLost from rfl, Dev.word_bump_same,
      Dev.word_set_other _ F.posStatusLostSeen 1 (by decide), (unset.goMode_spec .unset).2 _ (by decide), hword,
      Dev.course_word hfailed (by decide)]
  clear_value counted
  have hafter : ((counted.giveTarget .stop).settleAppend).standStill.course = counted.course :=
    (Dev.course_standStill _).trans ((Dev.course_settleAppend _).trans (Dev.course_giveTarget _ _))
  generalize ((counted.giveTarget .stop).settleAppend).standStill = f at *
  have happart := Dev.apart_trans hunset hcounted
  exact {
    mode := (Dev.course_mode hafter).trans hmode
    shown := (Dev.course_get hafter (by decide)).trans hshown
    seen := (Dev.course_get hafter (by decide)).trans hseen
    count := (Dev.course_word hafter (by decide)).trans hcount
    memories := Dev.sameMemories_trans (Dev.course_memories hfailed) (Dev.sameMemories_trans happart.1 (Dev.course_memories hafter))
    calm := (Dev.course_calm hafter).trans ((Dev.calm_of_apart happart).trans (Dev.course_calm hfailed)) }

theorem runs_uncertainTimeout {s : State} (hcalm : s.dev.calm = true) (hmode : s.dev.pos.mode = .uncertain)
    (hlong : 1200 ≤ s.dev.pos.uncertainFor) :
    Runs .uncertainTimeout s fun t => t.dev.pos.mode = .unset ∧ t.dev.get F.posStatusMode = 0 ∧ t.dev.get F.posStatusLostSeen = 1
      ∧ t.dev.word C.posLost = s.dev.word C.posLost + 1 ∧ s.memoriesStand t := by
  refine ⟨_, exec_uncertainTimeout s, ?_⟩
  have hlose : s.dev.uncertainTimeout = s.dev.losePosition := if_pos (by simp [hmode, hlong])
  rw [hlose]
  have hlost := s.dev.lost_losePosition
  generalize s.dev.losePosition = f at *
  have hhost := Dev.course_hostSettle (hlost.calm.trans hcalm)
  exact ⟨(Dev.course_mode hhost).trans hlost.mode, (Dev.course_get hhost (by decide)).trans hlost.shown,
    (Dev.course_get hhost (by decide)).trans hlost.seen, (Dev.course_word hhost (by decide)).trans hlost.count,
    State.memoriesStand_of_same (t := { s with dev := _ }) (Dev.sameMemories_trans hlost.memories (Dev.course_memories hhost))⟩

/-! ## What a window's close does beside the timebase -/

theorem Dev.course_noteSkew (d : Dev) (l u : Option Int) : (d.noteSkew l u).course = d.course := by
  unfold Dev.noteSkew
  split
  next l u =>
    extract_lets now ss _ noted
    have hnoted : noted.course = d.course := Dev.course_of ⟨rfl, rfl, rfl, rfl⟩ rfl rfl rfl fun _ _ => rfl
    clear_value noted
    exact Dev.course_ite ((Dev.course_set _ _ (by decide)).trans ((Dev.course_set _ _ (by decide)).trans hnoted)) hnoted
  · rfl

theorem Dev.course_markProvisional (d : Dev) (b : Int) : (d.markProvisional b).course = d.course := by
  unfold Dev.markProvisional
  extract_lets rev at_ wSlot rSlot mine w r new mark
  exact (Dev.course_bumpBy _ _ (by decide)).trans (Dev.course_modPlc _ _)

theorem Dev.course_enterMode (d : Dev) (x m : Nat) (hx : x < 2) : (d.enterMode x m).course = d.course := by
  have haddr : (F.mdrReelMode.ix x).addr ∉ courseWords := (by decide : ∀ x < 2, (F.mdrReelMode.ix x).addr ∉ courseWords) x hx
  exact (Dev.course_mdr _ _).trans (d.course_set m haddr)

theorem Dev.course_eyeletCounted (d : Dev) : d.eyeletCounted.course = d.course := by
  unfold Dev.eyeletCounted
  extract_lets _ counted
  have hcounted : counted.course = d.course := Dev.course_of ⟨rfl, rfl, rfl, rfl⟩ rfl rfl rfl fun _ _ => rfl
  clear_value counted
  have hmode : ∀ (e : Dev) (x : Nat), x < 2 → (if e.reelMode x = 2 then e.enterMode x 3 else e).course = e.course :=
    fun e x hx => Dev.course_ite (e.course_enterMode x 3 hx) rfl
  exact (hmode _ 1 (by decide)).trans ((hmode _ 0 (by decide)).trans hcounted)

theorem Dev.course_sendBeacon (d : Dev) (b : Int) (fly : Bool) : (d.sendBeacon b fly).course = d.course := by
  unfold Dev.sendBeacon
  split
  · rfl
  · exact (Dev.course_foldl (fun e j => Dev.course_ite (e.course_emit _) rfl) _ _).trans d.course_fresh

theorem Dev.course_fireTraces (d : Dev) : d.fireTraces.course = d.course := by
  unfold Dev.fireTraces
  extract_lets reached passed due fired traces
  have hpassed : passed.course = d.course := Dev.course_ite (Dev.course_dropEntries _ _) rfl
  clear_value passed
  have hfired : fired.course = d.course := (Dev.course_dropEntries _ _).trans hpassed
  clear_value fired
  exact Dev.course_ite hpassed ((Dev.course_tce _ _).trans hfired)

/-! ## A window is read -/

theorem Dev.get_reach (d : Dev) (p : Int) {f : Fld} (hf : f ∈ statusFields) : (d.reach p).get f = d.get f := by
  have htpos : f.addr ≠ F.posTposTpos.addr := (by decide : ∀ f ∈ statusFields, f.addr ≠ F.posTposTpos.addr) f hf
  unfold Dev.reach
  extract_lets rev g at_ past
  rw [Dev.get_setTpos_other _ _ htpos]
  split
  · exact (Dev.course_get (Dev.course_closeGate _) (List.mem_cons_of_mem _ hf)).trans (Dev.get_setTpos_other _ _ htpos)
  · rfl

/-- TPOS has moved on to a place. -/
structure Dev.reached (d : Dev) (p : Int) (e : Dev) : Prop where
  tpos : e.tpos = p
  status : ∀ f ∈ statusFields, e.get f = d.get f
  counts : ∀ x ∈ courseCounts, e.word x = d.word x
  memories : d.sameMemories e
  calm : e.calm = d.calm

theorem Dev.reached_reach (d : Dev) {p : Int} (hp : p.natAbs < 2 ^ 47) : d.reached p (d.reach p) ∧ (d.reach p).pos = d.pos := by
  have htpos : (d.reach p).tpos = p := (d.tpos_reach p).trans (d.tpos_setTpos_eq (by omega) (by omega))
  have hget := fun f => d.get_reach p (f := f)
  have hregs := d.regsOut_reach p
  generalize d.reach p = e at *
  obtain ⟨hmem, -, -, -, hpos, -, hglb, hhpt⟩ := Dev.regsOut_fields hregs
  exact ⟨{
    tpos := htpos
    status := hget
    counts := fun x hx => hregs.2.1 x ((by decide : ∀ x ∈ courseCounts, x ∉ reachWords) x hx)
    memories := hmem
    calm := Dev.calm_congr hglb hhpt }, hpos⟩

theorem Dev.reached_pos {p : Int} (h : d.reached p e) (q : Pos) : d.reached p { e with pos := q } where
  tpos := (Dev.tpos_eq (e.word_pos q _)).trans h.tpos
  status g hg := (e.get_pos q g).trans (h.status g hg)
  counts x hx := (e.word_pos q x).trans (h.counts x hx)
  memories := Dev.sameMemories_trans h.memories (e.apart_pos q).1
  calm := (Dev.calm_of_apart (e.apart_pos q)).trans h.calm

theorem Dev.reached_course {p : Int} {f : Dev} (h : d.reached p e) (hf : f.course = e.course) : d.reached p f where
  tpos := (Dev.course_tpos hf).trans h.tpos
  status g hg := (Dev.course_get hf (List.mem_cons_of_mem _ hg)).trans (h.status g hg)
  counts x hx := (Dev.course_word hf hx).trans (h.counts x hx)
  memories := Dev.sameMemories_trans h.memories (Dev.course_memories hf)
  calm := (Dev.course_calm hf).trans h.calm

theorem Dev.reached_of_course {p : Int} {c : Dev} (hc : c.course = d.course) (h : c.reached p e) : d.reached p e where
  tpos := h.tpos
  status g hg := (h.status g hg).trans (Dev.course_get hc (List.mem_cons_of_mem _ hg))
  counts x hx := (h.counts x hx).trans (Dev.course_word hc hx)
  memories := Dev.sameMemories_trans (Dev.course_memories hc) h.memories
  calm := h.calm.trans (Dev.course_calm hc)

/-- A window has been read with the marks `l` and `u`: TPOS stands at its end, and the runs of marks go on (R75). -/
structure Dev.windowRead (d : Dev) (p : Int) (l u : Option Int) (e : Dev) : Prop where
  reached : d.reached p e
  mode : e.pos.mode = d.pos.mode
  runLower : e.pos.runLower = runAfter d.pos.runLower l false
  runUpper : e.pos.runUpper = runAfter d.pos.runUpper u false

theorem Dev.windowRead_course {p : Int} {l u : Option Int} {f : Dev} (h : d.windowRead p l u e) (hf : f.course = e.course) :
    d.windowRead p l u f where
  reached := Dev.reached_course h.reached hf
  mode := (Dev.course_mode hf).trans h.mode
  runLower := (Dev.course_runLower hf).trans h.runLower
  runUpper := (Dev.course_runUpper hf).trans h.runUpper

/-- A window's close: the window is read, the miss counts and the PLL take the marks, and of what follows only the position state and the
trace triggers touch the course (R75 to R77). -/
theorem Dev.windowClose_eq {lower upper : Marks} {l u : Option Int} {b p : Int} (hfollows : d.follows = false) (hmode : d.pos.mode = .locked)
    (hwindow : d.nextWindow = (b, p)) (hskip : omitted b = false) (hrange : p.natAbs < 2 ^ 47)
    (hl : pickMark d.reverse (Marks.centres d.pos.amps.1 lower) = (l, 0)) (hu : pickMark d.reverse (Marks.centres d.pos.amps.2 upper) = (u, 0)) :
    ∃ e f : Dev, d.windowRead p l u e ∧ f.course = (e.windowActions l u false).course
      ∧ d.windowClose lower upper = (f.windowState b).fireTraces := by
  simp -zeta only [Dev.windowClose, hfollows, hmode, hwindow, hl, hu, Bool.false_eq_true, if_false]
  extract_lets skip reached _ timed counted _ ran acted judged eyed told _ tuned
  have hskip' : skip = false := hskip
  clear_value skip
  subst hskip'
  have hbump : ((d.bumpBy C.posSpurious 0).bumpBy (C.posSpurious + 1) 0).course = d.course :=
    (Dev.course_bumpBy _ _ (by decide)).trans (Dev.course_bumpBy _ _ (by decide))
  obtain ⟨hreach, hrpos⟩ := ((d.bumpBy C.posSpurious 0).bumpBy (C.posSpurious + 1) 0).reached_reach hrange
  have hreached : d.reached p reached := Dev.reached_of_course hbump hreach
  have hpos : reached.pos = d.pos := hrpos
  clear_value reached
  have hran : d.windowRead p l u ran := {
    reached := Dev.reached_pos (Dev.reached_pos hreached _) _
    mode := (congrArg Pos.mode hpos :)
    runLower := (congrArg (fun q : Pos => runAfter q.runLower l false) hpos :)
    runUpper := (congrArg (fun q : Pos => runAfter q.runUpper u false) hpos :) }
  clear_value ran
  have hjudged : judged.course = acted.course := Dev.course_ite (Dev.course_markProvisional _ _) rfl
  have heyed : eyed.course = acted.course := Dev.course_ite ((Dev.course_eyeletCounted _).trans hjudged) hjudged
  clear_value judged eyed
  have htold : told.course = acted.course := (Dev.course_sendBeacon _ _ _).trans heyed
  clear_value told
  have htuned : tuned.course = acted.course := Dev.course_ite ((Dev.course_chan _ _).trans htold) htold
  clear_value tuned
  exact ⟨ran.noteSkew l u, tuned.takeWords, Dev.windowRead_course hran (Dev.course_noteSkew _ _ _), (Dev.course_takeWords _).trans htuned, rfl⟩

/-! ## The miss counts -/

/-- The miss count of a band. -/
def missField (upper : Bool) : Fld := if upper then F.posStatusMissUpper else F.posStatusMissLower

theorem Dev.get_set_missField (d : Dev) (k : Bool) (v : Nat) :
    (d.set (missField k) v).get (missField k) = v % 256 ∧ (d.set (missField k) v).get (missField !k) = d.get (missField !k)
      ∧ (d.set (missField k) v).get F.posStatusActiveBand = d.get F.posStatusActiveBand := by
  cases k
  · exact ⟨d.get_set_same _ _ (by decide), d.get_set_other _ _ _ (by decide), d.get_set_other _ _ _ (by decide)⟩
  · exact ⟨d.get_set_same _ _ (by decide), d.get_set_other _ _ _ (by decide), d.get_set_other _ _ _ (by decide)⟩

theorem Dev.word_set_missField (d : Dev) (k : Bool) (v : Nat) {x : Nat} (hx : x ≠ F.posStatusMode.addr) :
    (d.set (missField k) v).word x = d.word x := by
  refine d.word_set_other _ _ ?_
  cases k
  · exact hx
  · exact hx

/-- The PLL's phase is POS's alone, and leaves its state and runs (R71). -/
theorem Dev.takePhase_eq (d : Dev) (p : Int) :
    ∃ q : Pos, d.takePhase p = { d with pos := q } ∧ q.mode = d.pos.mode ∧ q.runLower = d.pos.runLower ∧ q.runUpper = d.pos.runUpper := by
  have htimed : ∀ err, (d.pos.timed err).mode = d.pos.mode ∧ (d.pos.timed err).runLower = d.pos.runLower
      ∧ (d.pos.timed err).runUpper = d.pos.runUpper := fun err => by
    unfold Pos.timed
    split
    · split <;> exact ⟨rfl, rfl, rfl⟩
    · exact ⟨rfl, rfl, rfl⟩
  unfold Dev.takePhase
  extract_lets err ff _
  exact ⟨_, rfl, htimed err⟩

/-- Both bands' miss counts stand at `m` after the close of a window, and FLYWHEEL has counted `n` (R76 steps 1 to 3). -/
structure Dev.acted (d : Dev) (m n : Nat) (e : Dev) : Prop where
  misses : ∀ k, e.get (missField k) = m
  active : e.get F.posStatusActiveBand = d.get F.posStatusActiveBand
  tpos : e.tpos = d.tpos
  uncertain : e.word C.posUncertain = d.word C.posUncertain
  flywheel : e.word C.posFlywheel = d.word C.posFlywheel + BitVec.ofNat 48 n
  mode : e.pos.mode = d.pos.mode
  runLower : e.pos.runLower = d.pos.runLower
  runUpper : e.pos.runUpper = d.pos.runUpper
  memories : d.sameMemories e
  calm : e.calm = d.calm

/-- The active band's miss count stands at `m`, the other's still stands, and FLYWHEEL has counted `n` (R76 steps 1 and 2). -/
structure Dev.actedOne (d : Dev) (up : Bool) (m n : Nat) (e : Dev) : Prop where
  miss : e.get (missField up) = m
  other : e.get (missField !up) = d.get (missField !up)
  active : e.get F.posStatusActiveBand = d.get F.posStatusActiveBand
  tpos : e.word F.posTposTpos.addr = d.word F.posTposTpos.addr
  uncertain : e.word C.posUncertain = d.word C.posUncertain
  flywheel : e.word C.posFlywheel = d.word C.posFlywheel + BitVec.ofNat 48 n
  pos : e.pos.mode = d.pos.mode ∧ e.pos.runLower = d.pos.runLower ∧ e.pos.runUpper = d.pos.runUpper
  apart : d.apart e

theorem Dev.actedOne_set {q : Pos} {m v : Nat} (up : Bool) (hv : v % 256 = m)
    (hq : q.mode = d.pos.mode ∧ q.runLower = d.pos.runLower ∧ q.runUpper = d.pos.runUpper) :
    d.actedOne up m 0 (({ d with pos := q } : Dev).set (missField up) v) := by
  have hget := d.get_pos q
  have hword := d.word_pos q
  have hpos : ({ d with pos := q } : Dev).pos = q := rfl
  have happart := d.apart_pos q
  generalize ({ d with pos := q } : Dev) = f at *
  subst hpos
  obtain ⟨hsame, hother, hband⟩ := f.get_set_missField up v
  have hword' := fun x => f.word_set_missField up v (x := x)
  exact {
    miss := hsame.trans hv
    other := hother.trans (hget _)
    active := hband.trans (hget _)
    tpos := (hword' _ (by decide)).trans (hword _)
    uncertain := (hword' _ (by decide)).trans (hword _)
    flywheel := ((hword' _ (by decide)).trans (hword _)).trans (BitVec.add_zero _).symm
    pos := hq
    apart := Dev.apart_trans happart (f.apart_set _ _) }

theorem Dev.actedOne_bump {up : Bool} {m : Nat} (h : d.actedOne up m 0 e) : d.actedOne up m 1 (e.bump C.posFlywheel) where
  miss := (e.get_bump (by cases up <;> decide)).trans h.miss
  other := (e.get_bump (by cases up <;> decide)).trans h.other
  active := (e.get_bump (by decide)).trans h.active
  tpos := (e.word_bumpBy_other _ 1 (by decide)).trans h.tpos
  uncertain := (e.word_bumpBy_other _ 1 (by decide)).trans h.uncertain
  flywheel := by
    rw [Dev.word_bump_same, h.flywheel]
    exact congrArg (· + 1) (BitVec.add_zero _)
  pos := h.pos
  apart := Dev.apart_trans h.apart (e.apart_bump _)

/-- The other band's miss count follows the active band's. -/
theorem Dev.acted_of {a : Dev} {m n v : Nat} {q : Pos} {up : Bool} (h : d.actedOne up m n a)
    (hq : q.mode = a.pos.mode ∧ q.runLower = a.pos.runLower ∧ q.runUpper = a.pos.runUpper) (hv : v % 256 = m) :
    d.acted m n (({ a with pos := q } : Dev).set (missField !up) v) := by
  obtain ⟨hmode, hlower, hupper⟩ := h.pos
  have hone := a.actedOne_set (!up) hv hq
  generalize (({ a with pos := q } : Dev).set (missField !up) v) = e at *
  have hother := hone.other
  rw [Bool.not_not] at hother
  obtain ⟨hmode', hlower', hupper'⟩ := hone.pos
  exact {
    misses := fun k => by
      rcases Bool.eq_or_eq_not k up with rfl | rfl
      · exact hother.trans h.miss
      · exact hone.miss
    active := hone.active.trans h.active
    tpos := Dev.tpos_eq (hone.tpos.trans h.tpos)
    uncertain := hone.uncertain.trans h.uncertain
    flywheel := by rw [hone.flywheel, h.flywheel, BitVec.add_zero]
    mode := hmode'.trans hmode
    runLower := hlower'.trans hlower
    runUpper := hupper'.trans hupper
    memories := Dev.sameMemories_trans h.apart.1 hone.apart.1
    calm := (Dev.calm_of_apart hone.apart).trans (Dev.calm_of_apart h.apart) }

/-- Where both bands' miss counts are alike, the active band stays (R76 step 3). -/
theorem Dev.acted_stays {m n : Nat} {g : Dev} (up : Bool) (h : d.acted m n e) :
    d.acted m n (if 2 ≤ e.get (missField up) ∧ e.get (missField !up) < 2 then g else e) := by
  rw [h.misses, h.misses, if_neg (by omega)]
  exact h

theorem missField_not (up : Bool) : (if up then F.posStatusMissLower else F.posStatusMissUpper) = missField !up := by
  cases up
  · rfl
  · rfl

/-- Marks of both bands clear the miss counts (R76 steps 1 and 3). -/
theorem Dev.acted_marks (d : Dev) (p q : Int) : d.acted 0 0 (d.windowActions (some p) (some q) false) := by
  unfold Dev.windowActions
  extract_lets up fAct fOth miss _ unphased
  have hoth : fOth = missField !up := missField_not up
  have hact : fAct = missField up := rfl
  clear_value up fAct fOth
  subst hoth hact
  obtain ⟨x, y, hpair⟩ : ∃ x y, (if up then (some q, some p) else (some p, some q)) = (some x, some y) := by
    cases up
    · exact ⟨_, _, rfl⟩
    · exact ⟨_, _, rfl⟩
  simp -zeta only [hpair]
  extract_lets flew phased _ flown both
  have hphased : d.actedOne up 0 0 phased := by
    obtain ⟨r, htake, hr⟩ := d.takePhase_eq x
    have heq : phased = (d.takePhase x).set (missField up) 0 := rfl
    rw [heq, htake]
    exact Dev.actedOne_set up rfl hr
  clear_value phased
  exact Dev.acted_stays up (Dev.acted_of hphased ⟨rfl, rfl, rfl⟩ rfl)

/-- A window without a mark in either band is a miss of both (R76 steps 2 and 3). -/
theorem Dev.acted_misses (d : Dev) (h : ∀ k, d.get (missField k) = 3) : d.acted 4 1 (d.windowActions none none false) := by
  unfold Dev.windowActions
  extract_lets up fAct fOth miss _ unphased
  have hoth : fOth = missField !up := missField_not up
  have hact : fAct = missField up := rfl
  clear_value up fAct fOth
  subst hoth hact
  simp -zeta only [ite_self]
  extract_lets flew phased _ flown both
  have hcount : min 255 (unphased.get (missField up) + 1) % 256 = 4 := by
    rw [d.get_pos _ _, h]
    decide
  have hphased : d.actedOne up 4 1 phased := Dev.actedOne_bump (Dev.actedOne_set up hcount ⟨rfl, rfl, rfl⟩)
  clear_value phased
  have hcount' : min 255 (flown.get (missField !up) + 1) % 256 = 4 := by
    rw [phased.get_pos _ _, hphased.other, h]
    decide
  exact Dev.acted_stays up (Dev.acted_of hphased ⟨rfl, rfl, rfl⟩ hcount')

/-! ## The position state after a window -/

/-- A locked position stays, or is counted where the tape has become slow (R74). -/
theorem Dev.windowState_marks (hmode : e.pos.mode = .locked) (hmiss : ∀ k, e.get (missField k) = 0) (b : Int) :
    (e.windowState b).tpos = e.tpos ∧ (∀ k, (e.windowState b).get (missField k) = 0)
      ∧ (e.windowState b).get F.posStatusActiveBand = e.get F.posStatusActiveBand ∧ (e.windowState b).pos.runLower = e.pos.runLower
      ∧ (e.windowState b).pos.runUpper = e.pos.runUpper ∧ e.sameMemories (e.windowState b) ∧ (e.windowState b).calm = e.calm := by
  have hstate : e.windowState b = if e.pos.slow then (e.goMode .count).closeGate else e := by
    have hboth : (decide (4 ≤ e.get F.posStatusMissUpper) && decide (4 ≤ e.get F.posStatusMissLower)) = false := by
      rw [show e.get F.posStatusMissUpper = 0 from hmiss true]
      rfl
    simp -zeta only [Dev.windowState, hmode, hboth]
    rfl
  rw [hstate]
  split
  · have hclose := (e.goMode .count).course_closeGate
    have hapart := e.apart_goMode .count
    have hruns : (e.goMode .count).pos.runLower = e.pos.runLower ∧ (e.goMode .count).pos.runUpper = e.pos.runUpper := ⟨rfl, rfl⟩
    have hword : (e.goMode .count).word F.posTposTpos.addr = e.word F.posTposTpos.addr := (e.goMode_spec .count).2 _ (by decide)
    have hget := fun g => e.get_goMode_other .count (g := g)
    generalize e.goMode .count = f at *
    generalize f.closeGate = g at *
    refine ⟨(Dev.course_tpos hclose).trans (Dev.tpos_eq hword), fun k => ?_, ?_, ?_, ?_, ?_, ?_⟩
    · cases k
      · exact (Dev.course_get hclose (by decide)).trans ((hget _ (by decide) (by decide)).trans (hmiss false))
      · exact (Dev.course_get hclose (by decide)).trans ((hget _ (by decide) (by decide)).trans (hmiss true))
    · exact (Dev.course_get hclose (by decide)).trans (hget _ (by decide) (by decide))
    · exact (Dev.course_runLower hclose).trans hruns.1
    · exact (Dev.course_runUpper hclose).trans hruns.2
    · exact Dev.sameMemories_trans hapart.1 (Dev.course_memories hclose)
    · exact (Dev.course_calm hclose).trans (Dev.calm_of_apart hapart)
  · exact ⟨rfl, hmiss, rfl, rfl, rfl, ⟨rfl, rfl, rfl, rfl⟩, rfl⟩

/-- What the statement says of a position that has become uncertain (R68, R76). -/
structure Dev.unsure (d e : Dev) : Prop where
  tpos : e.tpos = d.tpos
  mode : e.pos.mode = .uncertain
  shown : e.get F.posStatusUncertain = 1
  seen : e.get F.posStatusUncertainSeen = 1
  count : e.word C.posUncertain = d.word C.posUncertain + 1
  flywheel : e.word C.posFlywheel = d.word C.posFlywheel
  memories : d.sameMemories e
  calm : e.calm = d.calm

theorem Dev.unsure_becomeUncertain (d : Dev) : d.unsure d.becomeUncertain := by
  unfold Dev.becomeUncertain
  extract_lets _ begun marked
  have hbegun : d.apart begun := d.apart_pos _
  have hword : ∀ x, begun.word x = d.word x := d.word_pos _
  clear_value begun
  have hmarked : marked.course = begun.course := Dev.course_markProvisional _ _
  clear_value marked
  have happart : marked.apart (((marked.goMode .uncertain).set F.posStatusUncertainSeen 1).bump C.posUncertain) :=
    Dev.apart_trans (marked.apart_goMode _) (Dev.apart_trans (Dev.apart_set _ _ _) (Dev.apart_bump _ _))
  have hother : ∀ x, x ≠ F.posStatusMode.addr → x ≠ C.posUncertain →
      (((marked.goMode .uncertain).set F.posStatusUncertainSeen 1).bump C.posUncertain).word x = marked.word x := fun x hx hc => by
    rw [Dev.bump, Dev.word_bumpBy_other _ _ _ hc, Dev.word_set_other _ F.posStatusUncertainSeen _ hx, (marked.goMode_spec .uncertain).2 x hx]
  exact {
    tpos := (Dev.tpos_eq (hother _ (by decide) (by decide))).trans ((Dev.course_tpos hmarked).trans (Dev.tpos_eq (hword _)))
    mode := rfl
    shown := by
      rw [Dev.get_bump _ (by decide), Dev.get_set_other _ _ _ _ (by decide), (marked.get_goMode .uncertain).2]
      rfl
    seen := by
      rw [Dev.get_bump _ (by decide), Dev.get_set_same _ _ _ (by decide)]
      rfl
    count := by
      rw [Dev.word_bump_same, Dev.word_set_other _ F.posStatusUncertainSeen _ (by decide), (marked.goMode_spec .uncertain).2 _ (by decide),
        Dev.course_word hmarked (by decide), hword]
    flywheel := by rw [hother _ (by decide) (by decide), Dev.course_word hmarked (by decide), hword]
    memories := Dev.sameMemories_trans hbegun.1 (Dev.sameMemories_trans (Dev.course_memories hmarked) happart.1)
    calm := (Dev.calm_of_apart happart).trans ((Dev.course_calm hmarked).trans (Dev.calm_of_apart hbegun)) }

/-- The fourth window without a mark in either band makes a locked position uncertain (R76 step 4). -/
theorem Dev.windowState_misses (hmode : e.pos.mode = .locked) (hmiss : ∀ k, e.get (missField k) = 4) (b : Int) :
    e.windowState b = e.becomeUncertain := by
  have hboth : (decide (4 ≤ e.get F.posStatusMissUpper) && decide (4 ≤ e.get F.posStatusMissLower)) = true := by
    rw [show e.get F.posStatusMissUpper = 4 from hmiss true, show e.get F.posStatusMissLower = 4 from hmiss false]
    rfl
  simp -zeta only [Dev.windowState, hmode, hboth]
  rfl

/-! ## The marks of a window -/

/-- A mark near its prediction is used, and none is spurious (R75). -/
theorem pickMark_near (rev : Bool) {amp : Nat} {p : Pulse} {a : Int} (hcentre : Pulse.centre amp p = some a) (ha : a.natAbs ≤ 192) :
    pickMark rev (Marks.centres amp [p]) = (some a, 0) := by
  have hcentres : Marks.centres amp [p] = [a] := by simp [Marks.centres, hcentre]
  have hinside : [a].filter (fun p => decide (p.natAbs ≤ 768)) = [a] := List.filter_eq_self.mpr (by simp; omega)
  rw [hcentres, pickMark, hinside]
  rfl

theorem runAfter_near {n : Nat} {a : Int} (ha : a.natAbs ≤ 192) : runAfter n (some a) false = n + 1 := if_pos ha

theorem runs_windowClose_marks {s : State} {p q : Pulse} {a b : Int} (hfollows : s.dev.follows = false) (hcalm : s.dev.calm = true)
    (hmode : s.dev.pos.mode = .locked) (hskip : omitted s.dev.nextWindow.1 = false) (hrange : s.dev.nextWindow.2.natAbs < 2 ^ 47)
    (hp : Pulse.centre s.dev.pos.amps.1 p = some a) (ha : a.natAbs ≤ 192) (hq : Pulse.centre s.dev.pos.amps.2 q = some b) (hb : b.natAbs ≤ 192) :
    Runs (.eyeletWindowClose [p] [q]) s fun t => t.dev.tpos = s.dev.nextWindow.2
      ∧ t.dev.get F.posStatusMissLower = 0 ∧ t.dev.get F.posStatusMissUpper = 0
      ∧ t.dev.pos.runLower = s.dev.pos.runLower + 1 ∧ t.dev.pos.runUpper = s.dev.pos.runUpper + 1
      ∧ t.dev.get F.posStatusActiveBand = s.dev.get F.posStatusActiveBand ∧ s.memoriesStand t := by
  refine ⟨_, exec_eyeletWindowClose _ _ s, ?_⟩
  obtain ⟨e, f, hread, hcourse, hclose⟩ :=
    Dev.windowClose_eq hfollows hmode Prod.mk.eta.symm hskip hrange (pickMark_near s.dev.reverse hp ha) (pickMark_near s.dev.reverse hq hb)
  rw [hclose]
  have hact := e.acted_marks a b
  generalize e.windowActions (some a) (some b) false = g at *
  have hmiss : ∀ k, f.get (missField k) = 0 := fun k => by
    rw [← hact.misses k]
    cases k
    · exact Dev.course_get hcourse (by decide)
    · exact Dev.course_get hcourse (by decide)
  have hlocked : f.pos.mode = .locked := (Dev.course_mode hcourse).trans (hact.mode.trans (hread.mode.trans hmode))
  obtain ⟨htpos, hmiss', hactive, hlower, hupper, hmem, hcalm'⟩ := Dev.windowState_marks hlocked hmiss s.dev.nextWindow.1
  have hfire := (f.windowState s.dev.nextWindow.1).course_fireTraces
  generalize f.windowState s.dev.nextWindow.1 = h at *
  have hcalmed : h.fireTraces.calm = true := (Dev.course_calm hfire).trans <| hcalm'.trans <| (Dev.course_calm hcourse).trans <|
    hact.calm.trans <| hread.reached.calm.trans hcalm
  have hhost := (Dev.course_hostSettle hcalmed).trans hfire
  generalize h.fireTraces.hostSettle = t at *
  refine ⟨?_, ?_, ?_, ?_, ?_, ?_, ?_⟩
  · exact (Dev.course_tpos hhost).trans <| htpos.trans <| (Dev.course_tpos hcourse).trans <| hact.tpos.trans hread.reached.tpos
  · exact (Dev.course_get hhost (by decide)).trans (hmiss' false)
  · exact (Dev.course_get hhost (by decide)).trans (hmiss' true)
  · exact (Dev.course_runLower hhost).trans <| hlower.trans <| (Dev.course_runLower hcourse).trans <|
      hact.runLower.trans <| hread.runLower.trans (runAfter_near ha)
  · exact (Dev.course_runUpper hhost).trans <| hupper.trans <| (Dev.course_runUpper hcourse).trans <|
      hact.runUpper.trans <| hread.runUpper.trans (runAfter_near hb)
  · exact (Dev.course_get hhost (by decide)).trans <| hactive.trans <| (Dev.course_get hcourse (by decide)).trans <|
      hact.active.trans (hread.reached.status _ (by decide))
  · exact State.memoriesStand_of_same (t := { s with dev := _ }) <| Dev.sameMemories_trans hread.reached.memories <|
      Dev.sameMemories_trans hact.memories <| Dev.sameMemories_trans (Dev.course_memories hcourse) <| Dev.sameMemories_trans hmem <|
        Dev.course_memories hhost

theorem runs_windowClose_fourthMiss {s : State} (hfollows : s.dev.follows = false) (hcalm : s.dev.calm = true)
    (hmode : s.dev.pos.mode = .locked) (hskip : omitted s.dev.nextWindow.1 = false) (hrange : s.dev.nextWindow.2.natAbs < 2 ^ 47)
    (hlower : s.dev.get F.posStatusMissLower = 3) (hupper : s.dev.get F.posStatusMissUpper = 3) :
    Runs (.eyeletWindowClose [] []) s fun t => t.dev.tpos = s.dev.nextWindow.2 ∧ t.dev.pos.mode = .uncertain
      ∧ t.dev.get F.posStatusUncertain = 1 ∧ t.dev.get F.posStatusUncertainSeen = 1
      ∧ t.dev.word C.posUncertain = s.dev.word C.posUncertain + 1 ∧ t.dev.word C.posFlywheel = s.dev.word C.posFlywheel + 1
      ∧ s.memoriesStand t := by
  refine ⟨_, exec_eyeletWindowClose _ _ s, ?_⟩
  obtain ⟨e, f, hread, hcourse, hclose⟩ :=
    Dev.windowClose_eq (lower := []) (upper := []) (l := none) (u := none) hfollows hmode Prod.mk.eta.symm hskip hrange rfl rfl
  have hthree : ∀ k, e.get (missField k) = 3 := fun k => by
    cases k
    · exact (hread.reached.status _ (by decide)).trans hlower
    · exact (hread.reached.status _ (by decide)).trans hupper
  have hact := e.acted_misses hthree
  generalize e.windowActions none none false = g at *
  have hmiss : ∀ k, f.get (missField k) = 4 := fun k => by
    rw [← hact.misses k]
    cases k
    · exact Dev.course_get hcourse (by decide)
    · exact Dev.course_get hcourse (by decide)
  have hlocked : f.pos.mode = .locked := (Dev.course_mode hcourse).trans (hact.mode.trans (hread.mode.trans hmode))
  rw [hclose, Dev.windowState_misses hlocked hmiss]
  have hunsure := f.unsure_becomeUncertain
  have hfire := f.becomeUncertain.course_fireTraces
  generalize f.becomeUncertain = h at *
  have hcalmed : h.fireTraces.calm = true := (Dev.course_calm hfire).trans <| hunsure.calm.trans <| (Dev.course_calm hcourse).trans <|
    hact.calm.trans <| hread.reached.calm.trans hcalm
  have hhost := (Dev.course_hostSettle hcalmed).trans hfire
  generalize h.fireTraces.hostSettle = t at *
  refine ⟨?_, ?_, ?_, ?_, ?_, ?_, ?_⟩
  · exact (Dev.course_tpos hhost).trans <| hunsure.tpos.trans <| (Dev.course_tpos hcourse).trans <| hact.tpos.trans hread.reached.tpos
  · exact (Dev.course_mode hhost).trans hunsure.mode
  · exact (Dev.course_get hhost (by decide)).trans hunsure.shown
  · exact (Dev.course_get hhost (by decide)).trans hunsure.seen
  · rw [Dev.course_word hhost (by decide), hunsure.count, Dev.course_word hcourse (by decide), hact.uncertain, hread.reached.counts _ (by decide)]
  · rw [Dev.course_word hhost (by decide), hunsure.flywheel, Dev.course_word hcourse (by decide), hact.flywheel, hread.reached.counts _ (by decide)]
    rfl
  · exact State.memoriesStand_of_same (t := { s with dev := _ }) <| Dev.sameMemories_trans hread.reached.memories <|
      Dev.sameMemories_trans hact.memories <| Dev.sameMemories_trans (Dev.course_memories hcourse) <|
        Dev.sameMemories_trans hunsure.memories (Dev.course_memories hhost)

/-! ## Marks in the count state -/

/-- The interval between two marks shows a tape that stays in the count state (R74). -/
theorem Pos.fast_of_slow {q : Pos} (h : 800000 < q.interval * 95) : q.fast = false := by
  have : ¬ 95 * q.interval ≤ 800000 := by omega
  simp [Pos.fast, this]

/-- A clock of any frequency: the kernel would compute the quotient of `Pos.counted` by its steps. -/
theorem Pos.mode_clock (q : Pos) (i f : Nat) (g : Int) : ({ q with interval := i, freq := f, integ := g } : Pos).mode = q.mode := rfl

theorem Pos.mode_counted (q : Pos) (i : Nat) : (q.counted i).mode = q.mode := q.mode_clock i _ _

/-- A mark in the count state is noted: the channel clock follows its interval (R74). -/
def Dev.ticked (d : Dev) (i : Nat) : Dev := { d with pos := { d.pos.counted i with markTime := d.time } }

theorem Dev.ticked_stands (d : Dev) (i : Nat) : d.apart (d.ticked i) ∧ (d.ticked i).pos.mode = d.pos.mode ∧ (d.ticked i).pos.interval = i := by
  have hmode := d.pos.mode_counted i
  have hinterval : (d.pos.counted i).interval = i := rfl
  unfold Dev.ticked
  generalize d.pos.counted i = q, d.time = now at *
  exact ⟨d.apart_pos _, hmode, hinterval⟩

theorem Dev.sameMemories_timed (d : Dev) (v : Nat) (c : Prop) [Decidable c] :
    d.sameMemories (if c then d.set F.posTimeTime v else d) ∧ (if c then d.set F.posTimeTime v else d).pos = d.pos := by
  split
  · exact ⟨⟨rfl, rfl, rfl, rfl⟩, rfl⟩
  · exact ⟨⟨rfl, rfl, rfl, rfl⟩, rfl⟩

/-- In the count state a mark at the interval moves TPOS by an eyelet; a tape that is slow stays in it (R74). -/
theorem Dev.markCounted_near {interval : Nat} (hfollows : d.follows = false) (hmode : d.pos.mode = .count) (hforward : d.reverse = false)
    (hrange : d.eyelet.natAbs < 2 ^ 38 - 1) (hslow : 800000 < interval * 95)
    (hnear : 4 * (max interval d.pos.interval - min interval d.pos.interval) ≤ d.pos.interval) :
    ∃ e : Dev, d.markCounted interval = e.fireTraces ∧ e.tpos = 512 * (d.eyelet + 1) ∧ e.pos.mode = .count ∧ e.pos.interval = interval
      ∧ d.sameMemories e := by
  have hunset : (d.pos.mode == PosMode.unset) = false := by rw [hmode]; rfl
  have hcount : (d.pos.mode != PosMode.count) = false := by rw [hmode]; rfl
  simp -zeta only [Dev.markCounted, hfollows, Bool.false_eq_true, if_false]
  extract_lets p near far i n place timed _ noted moved _ kept
  have hnear' : near = true := by simp only [near, p, hnear, decide_true, Bool.or_true]
  have hi : i = interval := if_pos hnear'
  have hplace : place = 512 * (d.eyelet + 1) := by simp only [place, n, hnear', hforward, Bool.false_eq_true, if_false, if_true]
  clear_value i place near
  subst hnear'
  simp only [hunset, hcount, Bool.not_true, Bool.false_and, Bool.or_self, Bool.false_eq_true, if_false]
  have htimed : d.sameMemories timed ∧ timed.pos = d.pos := d.sameMemories_timed _ _
  clear_value timed
  have hnoted := timed.ticked_stands i
  have hticked : noted = timed.ticked i := rfl
  rw [← hticked, hi] at hnoted
  clear_value noted
  obtain ⟨happart, hnmode, hninterval⟩ := hnoted
  obtain ⟨hreached, hpos⟩ := noted.reached_reach (p := place) (by omega)
  have hmoved : moved.course = (noted.reach place).course := Dev.course_eyeletCounted _
  clear_value moved
  generalize noted.reach place = r at *
  have hinterval : moved.pos.interval = interval :=
    (Dev.course_interval hmoved).trans ((congrArg Pos.interval hpos).trans hninterval)
  have hkept : kept = moved := if_neg (by simp [Pos.fast_of_slow (hinterval ▸ hslow)])
  refine ⟨kept, rfl, ?_⟩
  rw [hkept]
  refine ⟨(Dev.course_tpos hmoved).trans (hreached.tpos.trans hplace), ?_, hinterval, ?_⟩
  · rw [Dev.course_mode hmoved, hpos, hnmode, htimed.2, hmode]
  · exact Dev.sameMemories_trans htimed.1 <| Dev.sameMemories_trans happart.1 <|
      Dev.sameMemories_trans hreached.memories (Dev.course_memories hmoved)

theorem runs_markCounted {s : State} {interval : Nat} (hfollows : s.dev.follows = false) (hmode : s.dev.pos.mode = .count)
    (hforward : s.dev.reverse = false) (hrange : s.dev.eyelet.natAbs < 2 ^ 38 - 1) (hslow : 800000 < interval * 95)
    (hnear : 4 * (max interval s.dev.pos.interval - min interval s.dev.pos.interval) ≤ s.dev.pos.interval) :
    Runs (.eyeletMarkCounted interval) s fun t => t.dev.tpos = 512 * (s.dev.eyelet + 1) ∧ t.dev.pos.mode = .count
      ∧ t.dev.pos.interval = interval ∧ s.memoriesStand t := by
  refine ⟨_, exec_eyeletMarkCounted _ s, ?_⟩
  obtain ⟨e, heq, htpos, hmode', hinterval, hmem⟩ := Dev.markCounted_near hfollows hmode hforward hrange hslow hnear
  rw [heq]
  have hfire := e.course_fireTraces
  generalize e.fireTraces = t at *
  exact ⟨(Dev.course_tpos hfire).trans htpos, (Dev.course_mode hfire).trans hmode',
    (Dev.course_interval hfire).trans hinterval,
    State.memoriesStand_of_same (t := { s with dev := _ }) (Dev.sameMemories_trans hmem (Dev.course_memories hfire))⟩

end Sys2Proof.Machine
end

section
/-!
SETTLED. Signatures, band words, eyelet windows and marks (R66, R67, R69, R74 to R76, R86).
-/
namespace Sys2Proof.Machine

theorem bandWordDecoded_inputsOf (upper both : Bool) :
    (if upper then Instr.bandWordDecoded both true else .bandWordDecoded true both)
      = .bandWordDecoded (inputsOf upper both).1 (inputsOf upper both).2 := by
  cases upper with
  | false => rfl
  | true => rfl

/-- The other input's word counts where it shows SYNC and is not valid. -/
theorem wordErr_eq (both : Bool) (k : Nat) (u : Word) :
    BitVec.ofNat 48 (if both then wordErr k u else 0) = if both && hasSync u && !wordValid k u then 1 else 0 := by
  rw [wordErr, Bool.and_assoc]
  cases both with
  | false => rfl
  | true =>
    rw [if_pos rfl, Bool.true_and]
    cases hasSync u && !wordValid k u with
    | false => rfl
    | true => rfl

/-- Settles O42: TPOS that signatures and band words set, words that agree or are wrong, the close of an eyelet window with both bands' marks and
without any, a mark in the count state, and the loss that an uncertainty ends in. -/
theorem positionFollows : Obligations.PositionFollows := by
  unfold Obligations.PositionFollows
  refine ⟨fun s endSig w u upper both => ?_, fun s p q a b interval hfollows hcalm => ?_⟩
  · intro e fast set
    refine ⟨fun hunset => runs_signatureSeen hunset endSig, fun hfollows hcalm hwords hactive => ?_⟩
    intro i runs p wrong
    have hruns : runs = Runs (.bandWordDecoded (inputsOf upper both).1 (inputsOf upper both).2) s :=
      congrArg (fun c => Runs c s) (bandWordDecoded_inputsOf upper both)
    have hwrong : wrong = BitVec.ofNat 48 (if both then wordErr (s.dev.pos.dataBand + 1 - i) u else 0) := (wordErr_eq both _ u).symm
    clear_value runs wrong
    subst hruns hwrong
    refine ⟨fun hvalid => ⟨fun hunset hlast => ?_, fun hlocked hzero => ?_⟩, fun hsync hvalid hother => ?_, ?_⟩
    · exact runs_bandWord_sets hfollows hcalm hwords hactive hvalid hunset hlast
    · exact runs_bandWord_agrees hfollows hcalm hwords hactive hvalid hlocked hzero
    · exact runs_bandWord_bad hfollows hcalm hwords hactive hsync hvalid hother
    · exact runs_bandWord_none hfollows hcalm
  · refine ⟨fun hmode hskip hrange => ⟨fun hp ha hq hb => ?_, fun hlower hupper => ?_⟩,
      fun hmode hforward hrange hslow hnear => ?_, fun hmode hlong => ?_⟩
    · exact runs_windowClose_marks hfollows hcalm hmode hskip hrange hp ha hq hb
    · exact runs_windowClose_fourthMiss hfollows hcalm hmode hskip hrange hlower hupper
    · exact runs_markCounted hfollows hmode hforward hrange hslow hnear
    · obtain ⟨t, hexec, hunset, hshown, hseen, hcount, hmem⟩ := runs_uncertainTimeout hcalm hmode hlong
      exact ⟨t, hexec, hunset, hshown, hseen, hcount, fun _ => hmem⟩

end Sys2Proof.Machine
end

section
/-!
SUPPORT. What the head's modules have shown of their faults (R136). What else the device does while it polls them leaves this as it is,
takes back no output, and goes on in a state in which the modules are polled.
-/
namespace Sys2Proof.Machine

variable {d e f : Dev}

/-- The faults that polls have shown, and what counts and latches them. -/
structure HeadFaults where
  dead : List Nat
  hot : List Nat
  count : Word
  latched : Nat

def Dev.headFaults (d : Dev) : HeadFaults := ⟨d.ecc.deadHfm, d.chan.hfmHot, d.word C.wchHfmFault, d.get F.glbFaultHfm⟩

/-- The states in which the modules are polled. -/
def Dev.polls (d : Dev) : Prop := d.glb.dev = .loaded ∨ d.glb.dev = .streaming

/-- No output is taken back, and a device that polls its modules goes on polling them. -/
def Dev.proceeds (d e : Dev) : Prop := d.out ⊆ e.out ∧ (d.polls → e.polls)

/-- The head's faults stand as well. -/
def Dev.spares (d e : Dev) : Prop := e.headFaults = d.headFaults ∧ d.proceeds e

/-- The transport stands as well. -/
def Dev.aside (d e : Dev) : Prop := d.spares e ∧ e.tce = d.tce

/-! ## Steps that follow each other -/

theorem Dev.proceeds_refl (d : Dev) : d.proceeds d := ⟨List.Subset.refl _, id⟩
theorem Dev.proceeds_trans (h : d.proceeds e) (k : e.proceeds f) : d.proceeds f := ⟨List.Subset.trans h.1 k.1, k.2 ∘ h.2⟩

theorem Dev.spares_refl (d : Dev) : d.spares d := ⟨rfl, d.proceeds_refl⟩
theorem Dev.spares_trans (h : d.spares e) (k : e.spares f) : d.spares f := ⟨k.1.trans h.1, Dev.proceeds_trans h.2 k.2⟩

theorem Dev.aside_refl (d : Dev) : d.aside d := ⟨d.spares_refl, rfl⟩
theorem Dev.aside_trans (h : d.aside e) (k : e.aside f) : d.aside f := ⟨Dev.spares_trans h.1 k.1, k.2.trans h.2⟩

theorem Dev.spares_ite {p : Prop} [Decidable p] (he : d.spares e) (hf : d.spares f) : d.spares (if p then e else f) := by
  split
  · exact he
  · exact hf

theorem Dev.aside_ite {p : Prop} [Decidable p] (he : d.aside e) (hf : d.aside f) : d.aside (if p then e else f) := by
  split
  · exact he
  · exact hf

theorem Dev.aside_foldl {α : Type} {g : Dev → α → Dev} (h : ∀ d x, Dev.aside d (g d x)) (l : List α) (d : Dev) : d.aside (l.foldl g d) :=
  List.foldlRecOn (motive := fun e : Dev => d.aside e) l g d.aside_refl fun e he x _ => Dev.aside_trans he (h e x)

/-! ## The elementary changes -/

/-- The words that count and latch faults of the head. -/
def headWords : List Nat := [C.wchHfmFault, F.glbFaultHfm.addr]

theorem Dev.aside_of (hdead : e.ecc.deadHfm = d.ecc.deadHfm) (hhot : e.chan.hfmHot = d.chan.hfmHot) (htce : e.tce = d.tce)
    (hword : ∀ x ∈ headWords, e.word x = d.word x) (hout : d.out ⊆ e.out) (hdev : e.glb.dev = d.glb.dev) : d.aside e := by
  refine ⟨⟨?_, hout, fun h => ?_⟩, htce⟩
  · rw [Dev.headFaults, Dev.headFaults, Dev.get, Dev.get, hdead, hhot, hword _ (by decide), hword _ (by decide)]
  · rwa [Dev.polls, hdev]

/-- Hosts, queues, buffers, streams, placement, position and the cascade change. -/
theorem Dev.aside_beside (h : e = { d with
    hpt := e.hpt, cqm := e.cqm, pools := e.pools, strm := e.strm, plc := e.plc, pos := e.pos, cas := e.cas }) : d.aside e := by
  rw [h]
  exact Dev.aside_of rfl rfl rfl (fun _ _ => rfl) (List.Subset.refl _) rfl

theorem Dev.aside_putWord (d : Dev) {a : Nat} (w : Word) (ha : a ∉ headWords) : d.aside (d.putWord a w) :=
  Dev.aside_of rfl rfl rfl (fun _ hx => d.word_putWord_other w (ne_of_mem_of_not_mem hx ha)) (List.Subset.refl _) rfl

theorem Dev.aside_bump (d : Dev) {a : Nat} (ha : a ∉ headWords) : d.aside (d.bump a) := d.aside_putWord _ ha

/-- A field that is not the latch of the head's fault, of its register or of another. -/
theorem Dev.aside_set (d : Dev) {g : Fld} (v : Nat)
    (hg : C.wchHfmFault ≠ g.addr ∧ (F.glbFaultHfm.addr != g.addr || g.apart F.glbFaultHfm) = true) : d.aside (d.set g v) := by
  refine ⟨⟨?_, List.Subset.refl _, id⟩, rfl⟩
  rw [Dev.headFaults, Dev.headFaults, d.word_set_other g v hg.1, d.get_set_other g F.glbFaultHfm v hg.2]
  rfl

theorem Dev.aside_emit (d : Dev) (o : Out) : d.aside (d.emit o) :=
  Dev.aside_of rfl rfl rfl (fun _ _ => rfl) (List.subset_cons_self _ _) rfl

theorem Dev.aside_of_linkOnly (h : d.linkOnly e) : d.aside e := by
  obtain ⟨heq, os, hout⟩ := h
  rw [heq]
  exact Dev.aside_of rfl rfl rfl (fun _ _ => rfl) (hout ▸ List.subset_append_right os _) rfl

theorem Dev.aside_of_hostOnly (h : d.hostOnly e) : d.aside e := by
  obtain ⟨heq, -, hword, os, hout⟩ := h
  exact Dev.aside_of (congrArg (fun t : Dev => t.ecc.deadHfm) heq :) (congrArg (fun t : Dev => t.chan.hfmHot) heq :) (congrArg Dev.tce heq :)
    (fun x hx => hword x (ne_of_mem_of_not_mem hx (by decide))) (hout ▸ List.subset_append_right os _) (congrArg (fun t : Dev => t.glb.dev) heq :)

theorem Dev.aside_modPlc (d : Dev) (g : Plc → Plc) : d.aside (d.modPlc g) := Dev.aside_beside rfl
theorem Dev.aside_modSession (d : Dev) (g : Session → Session) : d.aside (d.modSession g) := d.aside_modPlc _
theorem Dev.aside_dropEntries (d : Dev) (p : Entry → Bool) : d.aside (d.dropEntries p) := Dev.aside_beside rfl

theorem Dev.aside_release (d : Dev) (h o : Nat) : d.aside (d.release h o) := by
  rw [Dev.release_pools]
  exact Dev.aside_beside rfl

theorem Dev.aside_releaseAll (d : Dev) (hs : List Nat) (o : Nat) : d.aside (d.releaseAll hs o) := by
  rw [Dev.releaseAll_pools]
  exact Dev.aside_beside rfl

theorem Dev.aside_freeDset (d : Dev) (x : DSet) : d.aside (d.freeDset x) := by
  unfold Dev.freeDset
  exact Dev.aside_ite d.aside_refl (Dev.aside_trans (Dev.aside_foldl (fun e o => e.aside_release x.handle o) _ d) (Dev.aside_beside rfl))

theorem Dev.aside_dropParity (d : Dev) : d.aside d.dropParity :=
  Dev.aside_trans (d.aside_releaseAll _ _) (Dev.aside_trans (Dev.aside_releaseAll _ _ _) (Dev.aside_modPlc _ _))

theorem Dev.aside_log (d : Dev) (y : LogEntry) : d.aside (d.log y) := by
  obtain ⟨heq, hword⟩ := d.logOnly_log y
  exact Dev.aside_of (congrArg (fun t : Dev => t.ecc.deadHfm) heq :) (congrArg (fun t : Dev => t.chan.hfmHot) heq :) (congrArg Dev.tce heq :)
    (fun x hx => hword x (ne_of_mem_of_not_mem hx (by decide))) (by rw [(congrArg Dev.out heq :)]; exact List.Subset.refl _)
    (congrArg (fun t : Dev => t.glb.dev) heq :)

theorem Dev.aside_notice (d : Dev) (code : Nat) (es : List (List Byte)) : d.aside (d.notice code es) := by
  obtain ⟨hpt, h⟩ := d.notice_eq code es
  rw [h]
  exact Dev.aside_beside rfl

theorem Dev.aside_event (d : Dev) (code : Nat) : d.aside (d.event code) := Dev.aside_trans (d.aside_log _) (Dev.aside_notice _ _ _)

/-! ## Completion (R300, R303, R322) -/

theorem Dev.aside_freeze (d : Dev) (c : Cmd) : d.aside (d.freeze c) := by
  unfold Dev.freeze
  refine Dev.aside_ite d.aside_refl ?_
  extract_lets frozen held y
  have hheld : d.aside held := Dev.aside_beside rfl
  clear_value held
  exact Dev.aside_trans (Dev.aside_ite (Dev.aside_trans hheld (Dev.aside_beside rfl)) (Dev.aside_trans hheld (held.aside_log y)))
    (Dev.aside_bump _ (by decide))

theorem Dev.aside_sendFor (d : Dev) (c : Cmd) (typ : Nat) (p : Payload) (len : Nat) (status : Option Nat) (bufs : List Nat) :
    d.aside (d.sendFor c typ p len status bufs) := by
  unfold Dev.sendFor
  split
  · exact Dev.aside_ite (d.aside_log _) (d.aside_releaseAll _ _)
  · split
    · exact Dev.aside_beside rfl
    · exact Dev.aside_beside rfl

theorem Dev.aside_completeNow (d : Dev) (c : Cmd) (status : Nat) (detail : List Byte) (already : Bool) (retry : Nat) :
    d.aside (d.completeNow c status detail already retry) := by
  unfold Dev.completeNow
  extract_lets err refusal froze logged seq told bs freed _ charged busy done sent
  have hlogged : d.aside logged := Dev.aside_ite (d.aside_log _) d.aside_refl
  clear_value logged
  have htold : d.aside told := Dev.aside_ite (Dev.aside_trans hlogged (logged.aside_freeze c)) hlogged
  clear_value told
  have hfreed : d.aside freed := Dev.aside_trans htold (told.aside_releaseAll _ _)
  clear_value freed
  have hcharged : d.aside charged := Dev.aside_ite (Dev.aside_trans hfreed (Dev.aside_beside rfl)) hfreed
  clear_value charged
  have hbusy : d.aside busy := Dev.aside_ite (Dev.aside_trans hcharged (charged.aside_bump (by decide))) hcharged
  clear_value busy
  have hdone : d.aside done := Dev.aside_trans hbusy (Dev.aside_beside rfl)
  clear_value done
  have hsent : d.aside sent := Dev.aside_trans hdone (done.aside_sendFor _ _ _ _ _ _)
  clear_value sent
  exact Dev.aside_ite hsent (Dev.aside_trans hsent (Dev.aside_beside rfl))

theorem Dev.aside_settle (n : Nat) : ∀ d : Dev, d.aside (d.settle n) := by
  induction n with
  | zero => exact Dev.aside_refl
  | succ n ih =>
    intro d
    unfold Dev.settle
    split
    · exact d.aside_refl
    · split
      · exact Dev.aside_trans (d.aside_completeNow _ _ _ _ _) (ih _)
      · exact d.aside_refl

theorem Dev.aside_finish (d : Dev) (h status : Nat) (detail : List Byte) (already : Bool) : d.aside (d.finish h status detail already) :=
  Dev.aside_trans (e := d.modCmd h fun c => { c with phase := .finished status detail already }) (Dev.aside_beside rfl) (Dev.aside_settle _ _)

/-! ## Appending stops (R222, R325) -/

theorem Dev.aside_cutAll (d : Dev) : d.aside d.cutAll := by
  refine Dev.aside_foldl (fun d id => ?_) _ d
  unfold Dev.cut
  split
  · exact d.aside_refl
  split
  · exact d.aside_refl
  next x _ _ =>
  extract_lets n reset
  have hchosen : d.aside (if reset then d.chooseMember x.affinity else (x.member, d)).2 := by
    split
    · unfold Dev.chooseMember
      split
      · exact d.aside_refl
      · extract_lets seen
        split
        · exact d.aside_refl
        · exact Dev.aside_ite d.aside_refl (Dev.aside_beside rfl)
    · exact d.aside_refl
  generalize (if reset then d.chooseMember x.affinity else (x.member, d)) = p at *
  obtain ⟨m, g⟩ := p
  dsimp -zeta only at hchosen ⊢
  extract_lets x' c _ cut marked
  have hmarked : d.aside marked := Dev.aside_trans hchosen (Dev.aside_beside rfl)
  clear_value marked
  exact Dev.aside_ite (Dev.aside_trans hmarked (Dev.aside_of_linkOnly (e := marked.sendClick c) (marked.linkOnly_sendLink _ _ _))) hmarked

theorem Dev.aside_judgeStop (d : Dev) : d.aside d.judgeStop := by
  unfold Dev.judgeStop
  split
  · exact d.aside_refl
  next code _ =>
  split
  · exact d.aside_refl
  extract_lets streams lost entries noted back hs freed idle _ cleared unstaged sets unset judged told fail_ _ unwaited
  have hnoted : d.aside noted := Dev.aside_foldl (fun _ _ => Dev.aside_beside rfl) _ d
  clear_value noted
  have hcleared : d.aside cleared := Dev.aside_trans hnoted (Dev.aside_trans (noted.aside_releaseAll _ _) (Dev.aside_beside rfl))
  clear_value cleared
  have hunset : d.aside unset := Dev.aside_trans hcleared (Dev.aside_trans (cleared.aside_releaseAll _ _) (Dev.aside_foldl Dev.aside_freeDset _ _))
  clear_value unset
  have hjudged : d.aside judged := Dev.aside_trans hunset (unset.aside_modPlc _)
  clear_value judged
  have htold : d.aside told := Dev.aside_ite hjudged (Dev.aside_trans hjudged (Dev.aside_trans (judged.aside_log _) (Dev.aside_notice _ _ _)))
  clear_value told
  exact Dev.aside_trans (Dev.aside_trans htold (Dev.aside_beside rfl)) (Dev.aside_foldl (fun e h => e.aside_finish h _ _ _) _ _)

theorem Dev.aside_stopEnding (d : Dev) (code : Nat) : d.aside (d.stopEnding code) := by
  unfold Dev.stopEnding
  refine Dev.aside_ite d.aside_refl ?_
  extract_lets stopped ended
  have hstopped : d.aside stopped := d.aside_modPlc _
  clear_value stopped
  have hended : d.aside ended :=
    Dev.aside_ite (Dev.aside_trans hstopped (Dev.aside_trans stopped.aside_cutAll (Dev.aside_modSession _ _))) hstopped
  exact Dev.aside_trans hended (Dev.aside_judgeStop _)

theorem Dev.aside_fault (d : Dev) {g : Fld}
    (hg : C.wchHfmFault ≠ g.addr ∧ (F.glbFaultHfm.addr != g.addr || g.apart F.glbFaultHfm) = true) : d.aside (d.fault g) := by
  unfold Dev.fault
  extract_lets low set
  have hset : d.aside set := d.aside_set 1 hg
  clear_value set
  exact Dev.aside_ite (Dev.aside_trans hset (set.aside_emit _)) hset

/-- The dead-track limit is another fault than the head's (R175). -/
theorem Dev.aside_judgeDead (d : Dev) : d.aside d.judgeDead := by
  unfold Dev.judgeDead
  refine Dev.aside_ite d.aside_refl ?_
  extract_lets _ limited told
  have hlimited : d.aside limited := Dev.aside_of rfl rfl rfl (fun _ _ => rfl) (List.Subset.refl _) rfl
  clear_value limited
  have htold : d.aside told := Dev.aside_trans hlimited <| Dev.aside_trans (limited.aside_set 1 (by decide)) <|
    Dev.aside_trans (Dev.aside_fault _ (by decide)) (Dev.aside_event _ _)
  exact Dev.aside_trans htold (Dev.aside_stopEnding _ _)

/-! ## A session ends (R181) -/

theorem Dev.aside_cancelStarts (d : Dev) : d.aside d.cancelStarts := by
  unfold Dev.cancelStarts
  split
  · exact d.aside_dropEntries _
  · exact Dev.aside_trans (d.aside_modPlc _) (Dev.aside_dropEntries _ _)

theorem Dev.aside_goState (d : Dev) {st : DevState} (hst : st = .loaded ∨ st = .streaming) : d.aside (d.goState st) := by
  unfold Dev.goState
  refine Dev.aside_ite d.aside_refl ?_
  extract_lets _ gone
  have hgone : d.aside gone := ⟨⟨rfl, List.Subset.refl _, fun _ => hst⟩, rfl⟩
  clear_value gone
  exact Dev.aside_ite (Dev.aside_trans hgone (gone.aside_emit _)) hgone

theorem Dev.aside_standStill (d : Dev) : d.aside d.standStill := by
  unfold Dev.standStill
  refine Dev.aside_ite ?_ d.aside_refl
  extract_lets stood
  have hstood : d.aside stood := d.aside_goState (.inl rfl)
  clear_value stood
  exact Dev.aside_ite (Dev.aside_trans hstood (Dev.aside_of_linkOnly (stood.linkOnly_tellMembers _))) hstood

theorem Dev.aside_settleTape (d : Dev) : d.aside d.settleTape := by
  unfold Dev.settleTape Dev.settleWaits
  extract_lets busy over_ done _ left
  have hleft : d.aside left := Dev.aside_trans (e := d.retire) (Dev.aside_beside rfl) (Dev.aside_beside rfl)
  exact Dev.aside_trans hleft (Dev.aside_foldl (fun e (w : Wait) => e.aside_finish w.h _ _ _) _ _)

theorem Dev.spares_giveTarget (d : Dev) (t : PgTarget) : d.spares (d.giveTarget t) := by
  have hheld : ∀ x : Tce, d.spares { d with tce := x } := fun _ => ⟨rfl, List.Subset.refl _, id⟩
  unfold Dev.giveTarget
  exact Dev.spares_ite d.spares_refl (Dev.spares_ite (hheld _) (Dev.spares_trans (hheld _) (Dev.aside_bump _ (by decide)).1))

theorem Dev.aside_beginSession (d : Dev) : d.aside d.beginSession := by
  unfold Dev.beginSession
  refine Dev.aside_ite d.aside_refl ?_
  extract_lets p room g group s _ plc ctxs _ begun
  have hbegun : d.aside begun := Dev.aside_beside rfl
  clear_value begun
  exact Dev.aside_trans hbegun (Dev.aside_trans (begun.aside_set _ (by decide)) (Dev.aside_set _ _ (by decide)))

theorem Dev.spares_closeSession (d : Dev) (next : Option Nat) : d.spares (d.closeSession next) := by
  unfold Dev.closeSession
  split
  · exact d.spares_refl
  next s _ =>
  extract_lets quit heels freed _ lane closed stood _ _ judged
  have hquit : d.aside quit := Dev.aside_trans (d.aside_dropEntries _) (Dev.aside_dropEntries _ _)
  clear_value quit
  have hclosed : d.aside closed := Dev.aside_trans hquit <| Dev.aside_trans (Dev.aside_foldl Dev.aside_freeDset _ _) <|
    Dev.aside_trans (Dev.aside_dropParity _) (Dev.aside_modPlc _ _)
  clear_value closed
  have hstood : d.spares stood := Dev.spares_trans hclosed.1 <| Dev.spares_trans (closed.spares_giveTarget .stop) <|
    (Dev.aside_trans (Dev.aside_settleTape _) (Dev.aside_standStill _)).1
  clear_value stood
  have hjudged : d.spares judged := Dev.spares_ite (Dev.spares_trans hstood ⟨rfl, List.Subset.refl _, id⟩) hstood
  clear_value judged
  exact Dev.spares_ite (Dev.spares_ite (Dev.spares_trans hjudged (judged.aside_modPlc _).1)
    (Dev.spares_trans hjudged judged.aside_beginSession.1)) hjudged

/-- Appending that is to stop at once, with its session not yet closed. -/
def Dev.stopping (d : Dev) (code : Nat) : Dev :=
  (if d.plc.stopped.isSome then d else d.modPlc fun p => { p with stopped := some code, judged := false }).cancelStarts.modSession
    fun s => { s with ending := false }

theorem Dev.stopNow_stopping (d : Dev) (code : Nat) : d.stopNow code
    = (if (d.stopping code).writtenUndecided then d.stopping code else (d.stopping code).closeSession none).judgeStop := rfl

theorem Dev.aside_stopping (d : Dev) (code : Nat) : d.aside (d.stopping code) :=
  Dev.aside_trans (Dev.aside_ite d.aside_refl (d.aside_modPlc _)) (Dev.aside_trans (Dev.aside_cancelStarts _) (Dev.aside_modSession _ _))

theorem Dev.spares_stopNow (d : Dev) (code : Nat) : d.spares (d.stopNow code) := by
  rw [Dev.stopNow_stopping]
  have hstopping := (d.aside_stopping code).1
  exact Dev.spares_trans (Dev.spares_ite hstopping (Dev.spares_trans hstopping (Dev.spares_closeSession _ none))) (Dev.aside_judgeStop _).1

end Sys2Proof.Machine
end

section
/-!
SUPPORT. What follows on the host side while the device polls its modules (R275, R277, R278, R484): connections are reset and queues become
orphans, but no maintenance ends and no standby begins.
-/
namespace Sys2Proof.Machine

variable {d e : Dev}

theorem Dev.aside_sendCtrl (d : Dev) (s : Seg) (flow : Word) : d.aside (d.sendCtrl s flow) := by
  unfold Dev.sendCtrl
  split
  · exact Dev.aside_of_hostOnly (d.hostOnly_wire s flow 4)
  · exact Dev.aside_of_hostOnly (Dev.hostOnly_trans (d.hostOnly_ctrl _) (Dev.hostOnly_solicitIf ..))

theorem Dev.aside_discardOrphan (d : Dev) (q : Queue) : d.aside (d.discardOrphan q) := by
  unfold Dev.discardOrphan
  extract_lets told gone freed logged dropped
  have htold : d.aside told := Dev.aside_foldl (fun e _ => Dev.aside_trans (e.aside_log _) (Dev.aside_releaseAll _ _ _)) _ d
  clear_value told
  have hfreed : d.aside freed := Dev.aside_trans htold
    (Dev.aside_foldl (fun e _ => Dev.aside_trans (e.aside_releaseAll _ _) (Dev.aside_bump _ (by decide))) _ _)
  clear_value freed
  have hlogged : d.aside logged := Dev.aside_trans hfreed (freed.aside_log _)
  clear_value logged
  exact Dev.aside_trans hlogged (Dev.aside_beside rfl)

theorem Dev.aside_orphan (d : Dev) (q : Queue) (kept : List Msg) (status : Nat) : d.aside (d.orphan q kept status) := by
  unfold Dev.orphan
  extract_lets older held frozen logged now left
  have holder : d.aside older := Dev.aside_foldl Dev.aside_discardOrphan _ d
  clear_value older
  have hfrozen : d.aside frozen := Dev.aside_ite holder <| Dev.aside_trans holder <| Dev.aside_trans (e := held) (Dev.aside_beside rfl) <|
    Dev.aside_trans (Dev.aside_log _ _) (Dev.aside_bump _ (by decide))
  clear_value frozen
  have hlogged : d.aside logged := Dev.aside_trans hfrozen (Dev.aside_trans (frozen.aside_log _) (Dev.aside_bump _ (by decide)))
  clear_value logged
  have hleft : d.aside left := Dev.aside_trans hlogged (Dev.aside_beside rfl)
  clear_value left
  refine Dev.aside_ite ?_ hleft
  split
  · exact Dev.aside_trans hleft (left.aside_discardOrphan _)
  · exact hleft

/-- Maintenance does not end where the device is not in it. -/
theorem Dev.endMaint_of_polls (h : d.polls) : d.endMaint = d := by
  refine if_neg fun hmaint => ?_
  rw [Dev.polls, hmaint] at h
  simp at h

theorem Dev.aside_closeConn (hpolls : d.polls) (c status : Nat) : d.aside (d.closeConn c status) := by
  unfold Dev.closeConn
  split
  · exact d.aside_refl
  next k _ =>
  extract_lets freed other _ hpt gone ended released
  have hgone : d.aside gone := Dev.aside_trans (d.aside_releaseAll _ _) (Dev.aside_beside rfl)
  clear_value gone
  have hended : d.aside ended := Dev.aside_ite (by rwa [Dev.endMaint_of_polls (hgone.1.2.2 hpolls)]) hgone
  clear_value ended
  split
  · exact hended
  · exact Dev.aside_ite (Dev.aside_trans hended (ended.aside_orphan _ _ _))
      (Dev.aside_trans hended (Dev.aside_trans (e := released) (ended.aside_releaseAll _ _) (Dev.aside_beside rfl)))

theorem Dev.aside_resetConn (hpolls : d.polls) (c reason : Nat) : d.aside (d.resetConn c reason) := by
  unfold Dev.resetConn
  split
  · exact d.aside_refl
  next k _ =>
  have hsent : d.aside ((d.sendCtrl (d.rstSegment k reason) k.flow).bump C.hptReset) :=
    Dev.aside_trans (d.aside_sendCtrl _ _) (Dev.aside_bump _ (by decide))
  exact Dev.aside_trans hsent (Dev.aside_closeConn (hsent.1.2.2 hpolls) _ _)

theorem Dev.settleStandby_of_polls (h : d.polls) : d.settleStandby = d := by
  refine if_neg ?_
  obtain h | h := h
  · simp [h]
  · simp [h]

theorem Dev.aside_hostSettle (hpolls : d.polls) : d.aside d.hostSettle := by
  unfold Dev.hostSettle
  have hreset : d.aside ((d.hpt.conns.filter fun k => k.st == .closeWait && d.frozen k.queue).foldl (fun d k => d.resetConn k.id rsnFrozenClose) d) :=
    List.foldlRecOn (motive := fun e : Dev => d.aside e) _ _ d.aside_refl fun e he k _ =>
      Dev.aside_trans he (Dev.aside_resetConn (he.1.2.2 hpolls) _ _)
  generalize List.foldl _ d _ = e at *
  have hcredit := Dev.aside_trans hreset (Dev.aside_of_hostOnly e.hostOnly_refreshCredit)
  rwa [Dev.settleStandby_of_polls (hcredit.1.2.2 hpolls)]

end Sys2Proof.Machine
end

section
/-!
SUPPORT. HFM_FRAME_SEND and ENABLE_GROUP_STEP (R93, R133, R134, R137).
-/
namespace Sys2Proof.Machine

variable {d e : Dev}

theorem exec_hfmFrameSend (m : Nat) (v : BitVec 32) (r : BitVec 40) (s : State) :
    exec (.hfmFrameSend m v r) s = .next { s with dev := s.dev.hfmTalk m v r } := rfl

theorem exec_enableGroupStep (s : State) : exec .enableGroupStep s = .next { s with dev := s.dev.enableGroup } := rfl

/-! ## Bits of a frame -/

theorem bitsAt_lt (v hi lo : Nat) : bitsAt v hi lo < 2 ^ (hi - lo + 1) := Nat.mod_lt _ (by positivity)

/-- Bits that a mask lets through. -/
theorem bitsAt_and {k hi lo : Nat} (v : Nat) (hk : bitsAt k hi lo = 2 ^ (hi - lo + 1) - 1) : bitsAt (v &&& k) hi lo = bitsAt v hi lo := by
  have hsplit : bitsAt (v &&& k) hi lo = bitsAt v hi lo &&& bitsAt k hi lo := by
    rw [bitsAt, Nat.and_div_two_pow, Nat.and_mod_two_pow]
    rfl
  rw [hsplit, hk, Nat.and_two_pow_sub_one_eq_mod, Nat.mod_eq_of_lt (bitsAt_lt _ _ _)]

/-! ## A frame and its response -/

/-- A frame and a no-operation have gone out to a module, and WCH.HFM_RX shows the response (R134, R137). -/
structure Dev.answered (d : Dev) (m : Nat) (w : BitVec 32) (r : BitVec 40) (e : Dev) : Prop where
  out : e.out = .hfm m (hfmFrame (hfmWord true 0xFF 0)) :: .hfm m (hfmFrame w) :: d.out
  done : e.get F.wchHfmRxDone = 1
  crcErr : e.get F.wchHfmRxCrcErr = b2n (crcFails r)
  data : e.get F.wchHfmRxData = bitsAt r.toNat 23 8
  addr : e.get F.wchHfmRxAddr = bitsAt r.toNat 31 24
  flags : e.get F.wchHfmRxFlags = bitsAt r.toNat 39 32
  count : e.word C.wchHfmCrc = d.word C.wchHfmCrc + (if crcFails r then 1 else 0)
  words : ∀ x, x ∉ [F.wchHfmRxData.addr, C.wchHfmCrc] → e.word x = d.word x
  memories : d.sameMemories e

/-- WCH.HFM_RX shows a response (R137). -/
def Dev.showRx (d : Dev) (r : BitVec 40) : Dev :=
  ((((d.set F.wchHfmRxDone 1).set F.wchHfmRxCrcErr (b2n (crcFails r))).set F.wchHfmRxFlags (bitsAt r.toNat 39 32)).set F.wchHfmRxAddr
    (bitsAt r.toNat 31 24)).set F.wchHfmRxData (bitsAt r.toNat 23 8)

theorem Dev.word_showRx (d : Dev) (r : BitVec 40) {x : Nat} (hx : x ≠ F.wchHfmRxData.addr) : (d.showRx r).word x = d.word x := by
  unfold Dev.showRx
  rw [Dev.word_set_other _ _ _ hx, Dev.word_set_other _ F.wchHfmRxAddr _ hx, Dev.word_set_other _ F.wchHfmRxFlags _ hx,
    Dev.word_set_other _ F.wchHfmRxCrcErr _ hx, Dev.word_set_other _ F.wchHfmRxDone _ hx]

theorem Dev.get_showRx (d : Dev) (r : BitVec 40) :
    let e := d.showRx r
    e.get F.wchHfmRxDone = 1 ∧ e.get F.wchHfmRxCrcErr = b2n (crcFails r) ∧ e.get F.wchHfmRxData = bitsAt r.toNat 23 8
      ∧ e.get F.wchHfmRxAddr = bitsAt r.toNat 31 24 ∧ e.get F.wchHfmRxFlags = bitsAt r.toNat 39 32 := by
  simp (disch := decide) only [Dev.showRx, Dev.get_set_same, Dev.get_set_apart]
  exact ⟨rfl, b2n_mod_two _, Nat.mod_eq_of_lt (bitsAt_lt _ _ _), Nat.mod_eq_of_lt (bitsAt_lt _ _ _), Nat.mod_eq_of_lt (bitsAt_lt _ _ _)⟩

theorem Dev.hfmGo_eq (d : Dev) (m : Nat) (w : BitVec 32) (r : BitVec 40) : d.hfmGo m w r
    = (if crcFails r then ((d.hfmSend m w).hfmNop m).bump C.wchHfmCrc else (d.hfmSend m w).hfmNop m).showRx r := rfl

theorem Dev.answered_hfmGo (d : Dev) (m : Nat) (w : BitVec 32) (r : BitVec 40) : d.answered m w r (d.hfmGo m w r) := by
  rw [Dev.hfmGo_eq]
  have hout : ((d.hfmSend m w).hfmNop m).out = .hfm m (hfmFrame (hfmWord true 0xFF 0)) :: .hfm m (hfmFrame w) :: d.out := rfl
  have hword : ∀ x, ((d.hfmSend m w).hfmNop m).word x = d.word x := fun _ => rfl
  have hmem : d.sameMemories ((d.hfmSend m w).hfmNop m) := ⟨rfl, rfl, rfl, rfl⟩
  generalize (d.hfmSend m w).hfmNop m = sent at *
  generalize hcounted : (if crcFails r then sent.bump C.wchHfmCrc else sent) = counted
  have hcount : counted.out = sent.out ∧ sent.sameMemories counted ∧ counted.word C.wchHfmCrc = sent.word C.wchHfmCrc + (if crcFails r then 1 else 0)
      ∧ ∀ x, x ≠ C.wchHfmCrc → counted.word x = sent.word x := by
    rw [← hcounted]
    split
    · exact ⟨rfl, ⟨rfl, rfl, rfl, rfl⟩, Dev.word_bump_same _ _, fun _ hx => Dev.word_bumpBy_other _ _ 1 hx⟩
    · exact ⟨rfl, ⟨rfl, rfl, rfl, rfl⟩, (BitVec.add_zero _).symm, fun _ _ => rfl⟩
  clear hcounted
  obtain ⟨hcout, hcmem, hcrc, hcword⟩ := hcount
  obtain ⟨hdone, hcrcErr, hdata, haddr, hflags⟩ := counted.get_showRx r
  have hshown := fun x => counted.word_showRx r (x := x)
  exact {
    out := (show (counted.showRx r).out = counted.out from rfl).trans (hcout.trans hout)
    done := hdone
    crcErr := hcrcErr
    data := hdata
    addr := haddr
    flags := hflags
    count := by rw [hshown _ (by decide), hcrc, hword]
    words := fun x hx => by
      simp only [List.mem_cons, List.not_mem_nil, or_false, not_or] at hx
      rw [hshown x hx.1, hcword x hx.2, hword]
    memories := Dev.sameMemories_trans hmem (Dev.sameMemories_trans hcmem ⟨rfl, rfl, rfl, rfl⟩) }

/-- What the statement says of WCH.HFM_RX, where the frame went out of a device whose memories and count of CRC errors stood. -/
theorem Dev.answered.shown {m : Nat} {w : BitVec 32} {r : BitVec 40} {s t : State} (h : d.answered m w r t.dev) (hmem : s.dev.sameMemories d)
    (hcount : d.word C.wchHfmCrc = s.dev.word C.wchHfmCrc) :
    t.dev.get F.wchHfmRxDone = 1 ∧ t.dev.get F.wchHfmRxCrcErr = b2n (crcFails r) ∧ t.dev.get F.wchHfmRxData = bitsAt r.toNat 23 8
      ∧ t.dev.get F.wchHfmRxAddr = bitsAt r.toNat 31 24 ∧ t.dev.get F.wchHfmRxFlags = bitsAt r.toNat 39 32
      ∧ t.dev.word C.wchHfmCrc = s.dev.word C.wchHfmCrc + (if crcFails r then 1 else 0) ∧ s.memoriesStand t :=
  ⟨h.done, h.crcErr, h.data, h.addr, h.flags, hcount ▸ h.count, State.memoriesStand_of_same (Dev.sameMemories_trans hmem h.memories)⟩

/-! ## The commands -/

/-- WCH.HFM_TX is written with a frame (R137). -/
def Dev.putTx (d : Dev) (m w : Nat) : Dev :=
  (((d.set F.wchHfmTxModule m).set F.wchHfmTxRd (bitsAt w 31 31)).set F.wchHfmTxAddr (bitsAt w 23 16)).set F.wchHfmTxData (bitsAt w 15 0)

theorem Dev.word_putTx (d : Dev) (m w : Nat) {x : Nat} (hx : x ≠ F.wchHfmTxData.addr) : (d.putTx m w).word x = d.word x := by
  unfold Dev.putTx
  rw [Dev.word_set_other _ _ _ hx, Dev.word_set_other _ F.wchHfmTxAddr _ hx, Dev.word_set_other _ F.wchHfmTxRd _ hx,
    Dev.word_set_other _ F.wchHfmTxModule _ hx]

theorem Dev.get_putTx (d : Dev) {m : Nat} (w : Nat) (hm : m < 8) :
    let e := d.putTx m w
    e.get F.wchHfmTxModule = m ∧ e.get F.wchHfmTxData = bitsAt w 15 0 ∧ e.get F.wchHfmTxAddr = bitsAt w 23 16 := by
  simp (disch := decide) only [Dev.putTx, Dev.get_set_same, Dev.get_set_apart]
  exact ⟨Nat.mod_eq_of_lt hm, Nat.mod_eq_of_lt (bitsAt_lt _ _ _), Nat.mod_eq_of_lt (bitsAt_lt _ _ _)⟩

/-- In maintenance the command gives the frame; of its word bits 30 to 24 do not count (R133, R137). -/
theorem Dev.hfmTalk_maintenance (hmaint : d.glb.dev = .maintenance) {m : Nat} (hm : m < 8) (v : BitVec 32) (r : BitVec 40) :
    d.hfmTalk m v r = (d.putTx m (v &&& 0x80FFFFFF#32).toNat).hfmGo m
      (hfmWord v.msb (bitsAt v.toNat 23 16) (if v.msb then 0 else bitsAt v.toNat 15 0)) r := by
  have hand : (v &&& 0x80FFFFFF#32).toNat = v.toNat &&& 0x80FFFFFF := BitVec.toNat_and _ _
  have hmsb : (v &&& 0x80FFFFFF#32).msb = v.msb := by
    rw [BitVec.msb_and, show (0x80FFFFFF#32).msb = true from by decide, Bool.and_true]
  have haddr : bitsAt (v &&& 0x80FFFFFF#32).toNat 23 16 = bitsAt v.toNat 23 16 := by rw [hand, bitsAt_and _ (by decide)]
  have hdata : bitsAt (v &&& 0x80FFFFFF#32).toNat 15 0 = bitsAt v.toNat 15 0 := by rw [hand, bitsAt_and _ (by decide)]
  have hneither : (d.glb.dev != .maintenance) = false := by rw [hmaint]; rfl
  rw [Dev.hfmTalk, hneither, if_neg Bool.false_ne_true, if_neg (Nat.not_le.mpr hm)]
  dsimp only
  rw [hmsb, haddr, hdata, Dev.putTx, haddr, hdata]

theorem runs_hfmFrameSend_maintenance {s : State} (hmaint : s.dev.glb.dev = .maintenance) {m : Nat} (hm : m < 8) (v : BitVec 32) (r : BitVec 40) :
    Runs (.hfmFrameSend m v r) s fun t => ∃ e : Dev,
      e.answered m (hfmWord v.msb (bitsAt v.toNat 23 16) (if v.msb then 0 else bitsAt v.toNat 15 0)) r t.dev ∧ e.out = s.dev.out
        ∧ s.dev.sameMemories e ∧ e.get F.wchHfmTxModule = m ∧ e.get F.wchHfmTxData = bitsAt v.toNat 15 0
        ∧ e.get F.wchHfmTxAddr = bitsAt v.toNat 23 16 ∧ ∀ x, x ≠ F.wchHfmTxData.addr → e.word x = s.dev.word x := by
  refine ⟨_, exec_hfmFrameSend m v r s, s.dev.putTx m (v &&& 0x80FFFFFF#32).toNat, ?_⟩
  obtain ⟨hmodule, hdata, haddr⟩ := s.dev.get_putTx (v &&& 0x80FFFFFF#32).toNat hm
  rw [BitVec.toNat_and, bitsAt_and _ (by decide)] at hdata haddr
  rw [Dev.hfmTalk_maintenance hmaint hm]
  exact ⟨Dev.answered_hfmGo _ _ _ _, rfl, ⟨rfl, rfl, rfl, rfl⟩, hmodule, hdata, haddr, fun x hx => s.dev.word_putTx _ _ hx⟩

/-- Outside maintenance GO alone acts: the read that stands in WCH.HFM_TX goes out (R137). -/
theorem Dev.hfmTalk_go (hmaint : d.glb.dev ≠ .maintenance) (hup : d.glb.dev.hostUp = true) (hread : d.flag F.wchHfmTxRd = true)
    (m : Nat) (v : BitVec 32) (r : BitVec 40) :
    d.hfmTalk m v r = d.hfmGo (d.get F.wchHfmTxModule) (hfmWord true (d.get F.wchHfmTxAddr) 0) r := by
  rw [Dev.hfmTalk, if_pos (bne_iff_ne.mpr hmaint), hup, hread]
  rfl

theorem Dev.enableGroup_eq (hload : (d.cqm.cmds.any fun c => c.opcode == opLoad && c.phase == .started) = true) (hroom : d.chan.groupsOn < 16) :
    let g := d.chan.groupsOn
    let e := d.hfmWrite (g / 2) (4 + g % 2) (d.groupMask g)
    d.enableGroup = { e with chan := { e.chan with groupsOn := g + 1 } } := by
  unfold Dev.enableGroup
  dsimp only
  rw [hload, decide_eq_false (Nat.not_le.mpr hroom)]
  rfl

end Sys2Proof.Machine
end

section
/-!
SUPPORT. HFM_FAULT_POLL (R136): every enabled module is asked, and its answer is acted on.
-/
namespace Sys2Proof.Machine

variable {d e : Dev} {m : Nat} {r : BitVec 40} {rest : List (BitVec 40)}

theorem exec_hfmFaultPoll (rs : List (Nat × List (BitVec 40))) (s : State) :
    exec (.hfmFaultPoll rs) s = .next { s with dev := (s.dev.hfmPoll rs).hostSettle } := rfl

/-- The frame that reads a module's FAULT register. -/
def faultRead (m : Nat) : Out := .hfm m (hfmFrame (hfmWord true 0x02 0))

/-! ## A module is asked -/

theorem Dev.aside_hfmAskFault (d : Dev) (m : Nat) : d.aside (d.hfmAskFault m) :=
  have hsend : ∀ (e : Dev) (v : BitVec 32), e.aside (e.hfmSend m v) := fun _ _ =>
    Dev.aside_of rfl rfl rfl (fun _ _ => rfl) (List.subset_cons_self _ _) rfl
  Dev.aside_trans (hsend _ _) (hsend _ _)

theorem Dev.faultRead_mem_hfmAskFault (d : Dev) (m : Nat) : faultRead m ∈ (d.hfmAskFault m).out :=
  List.mem_cons_of_mem _ List.mem_cons_self

theorem Dev.aside_hfmAsk (m : Nat) : ∀ (n : Nat) (rs : List (BitVec 40)) (d : Dev), d.aside (d.hfmAsk m n rs).2
  | 0, _, d => d.aside_refl
  | n + 1, rs, d => by
    unfold Dev.hfmAsk
    extract_lets r asked
    have hasked : d.aside asked :=
      Dev.aside_ite (Dev.aside_trans (d.aside_hfmAskFault m) (Dev.aside_bump _ (by decide))) (d.aside_hfmAskFault m)
    clear_value asked
    split
    · exact hasked
    · exact Dev.aside_trans hasked (Dev.aside_hfmAsk m n _ asked)

theorem Dev.faultRead_mem_hfmAsk (d : Dev) (m n : Nat) (rs : List (BitVec 40)) : faultRead m ∈ (d.hfmAsk m (n + 1) rs).2.out := by
  unfold Dev.hfmAsk
  extract_lets r asked
  have hasked : faultRead m ∈ asked.out := by
    unfold asked
    split
    · exact d.faultRead_mem_hfmAskFault m
    · exact d.faultRead_mem_hfmAskFault m
  clear_value asked
  split
  · exact hasked
  · exact (Dev.aside_hfmAsk m n _ asked).1.2.1 hasked

/-- A response that is taken ends the asking (R136). -/
theorem Dev.hfmAsk_taken (d : Dev) (m n : Nat) (h : taken r = true) :
    d.hfmAsk m (n + 1) (r :: rest) = (some (bitsAt r.toNat 23 8), d.hfmAskFault m) := by
  have hcrc : crcFails r = false := by
    rw [taken, Bool.and_eq_true, Bool.not_eq_true'] at h
    exact h.1
  simp [Dev.hfmAsk, h, hcrc]

/-! ## A module stops the tape -/

theorem Dev.fault_hfm (d : Dev) : (d.fault F.glbFaultHfm).headFaults = { d.headFaults with latched := 1 } ∧ d.proceeds (d.fault F.glbFaultHfm) := by
  unfold Dev.fault
  extract_lets low set
  have hset : set.headFaults = { d.headFaults with latched := 1 } ∧ d.proceeds set := by
    refine ⟨?_, List.Subset.refl _, id⟩
    rw [Dev.headFaults, d.word_set_other F.glbFaultHfm 1 (by decide), d.get_set_same F.glbFaultHfm 1 (by decide)]
    rfl
  clear_value set
  split
  · have hemit := (set.aside_emit (.ibi 1)).1
    exact ⟨hemit.1.trans hset.1, Dev.proceeds_trans hset.2 hemit.2⟩
  · exact hset

theorem Dev.hfmStop_spec (d : Dev) : d.hfmStop.headFaults = { d.headFaults with latched := 1 } ∧ d.proceeds d.hfmStop := by
  obtain ⟨hfaults, hproceeds⟩ := d.fault_hfm
  have hrest := Dev.spares_trans ((d.fault F.glbFaultHfm).aside_event 0x0301).1 <|
    Dev.spares_trans (Dev.spares_stopNow _ 0x0301) (Dev.spares_giveTarget _ .stop)
  exact ⟨hrest.1.trans hfaults, Dev.proceeds_trans hproceeds hrest.2⟩

/-! ## One module's poll -/

/-- A poll acts on what a module answered, and takes back no output. -/
theorem Dev.proceeds_hfmPollOne_of_ask (d : Dev) (m : Nat) (rs : List (BitVec 40)) : (d.hfmAsk m 4 rs).2.proceeds (d.hfmPollOne m rs) := by
  have hecc : ∀ (e : Dev) (t : Ecc), e.proceeds { e with ecc := t } := fun _ _ => ⟨List.Subset.refl _, id⟩
  have hchan : ∀ (e : Dev) (t : Chan), e.proceeds { e with chan := t } := fun _ _ => ⟨List.Subset.refl _, id⟩
  have hbump : ∀ e : Dev, e.proceeds (e.bump C.wchHfmFault) := fun _ => ⟨List.Subset.refl _, id⟩
  unfold Dev.hfmPollOne
  generalize d.hfmAsk m 4 rs = p
  obtain ⟨_ | v, e⟩ := p
  · exact Dev.proceeds_trans (hbump e) <| Dev.proceeds_trans (hecc _ _) <| Dev.proceeds_trans (Dev.hfmStop_spec _).2 (Dev.aside_judgeDead _).1.2
  · dsimp -zeta only
    extract_lets n _ noted others known _ hot
    have hnoted : e.proceeds noted := by
      unfold noted
      split
      · exact e.proceeds_refl
      · exact Dev.proceeds_trans (hecc e _) (Dev.proceeds_trans (hbump _) (Dev.aside_judgeDead _).1.2)
    clear_value noted
    split
    · exact Dev.proceeds_trans hnoted (hchan _ _)
    · have hhot : e.proceeds hot := Dev.proceeds_trans hnoted (hchan _ _)
      clear_value hot
      split
      · exact hhot
      · exact Dev.proceeds_trans hhot (Dev.proceeds_trans (hbump _) (Dev.hfmStop_spec _).2)

theorem Dev.proceeds_hfmPollOne (d : Dev) (m : Nat) (rs : List (BitVec 40)) : d.proceeds (d.hfmPollOne m rs) := by
  have hask := Dev.aside_hfmAsk m 4 rs d
  exact Dev.proceeds_trans hask.1.2 (d.proceeds_hfmPollOne_of_ask m rs)

theorem Dev.faultRead_mem_hfmPollOne (d : Dev) (m : Nat) (rs : List (BitVec 40)) : faultRead m ∈ (d.hfmPollOne m rs).out :=
  (d.proceeds_hfmPollOne_of_ask m rs).1 (d.faultRead_mem_hfmAsk m 3 rs)

/-- A module shows neither over-temperature nor low supply: the next that it shows is a first one again. -/
def Dev.coolHfm (d : Dev) (m : Nat) : Dev := { d with chan := { d.chan with hfmHot := d.chan.hfmHot.filter fun x => x != m } }

/-- A channel shows its first element fault (R136). -/
def Dev.loseChannel (d : Dev) (n : Nat) : Dev := (({ d with ecc := { d.ecc with deadHfm := d.ecc.deadHfm ++ [n] } }).bump C.wchHfmFault).judgeDead

/-- A module shows over-temperature or low supply for the first time (R136). -/
def Dev.heatHfm (d : Dev) (m : Nat) : Dev :=
  ({ d with chan := { d.chan with hfmHot := m :: d.chan.hfmHot.filter fun x => x != m } }).bump C.wchHfmFault

theorem Dev.loseChannel_spec (d : Dev) (n : Nat) : (d.loseChannel n).ecc.deadHfm = d.ecc.deadHfm ++ [n]
    ∧ (d.loseChannel n).word C.wchHfmFault = d.word C.wchHfmFault + 1 ∧ (d.polls → (d.loseChannel n).polls) := by
  unfold Dev.loseChannel
  have hcount := Dev.word_bump_same { d with ecc := { d.ecc with deadHfm := d.ecc.deadHfm ++ [n] } } C.wchHfmFault
  have hjudge := (({ d with ecc := { d.ecc with deadHfm := d.ecc.deadHfm ++ [n] } } : Dev).bump C.wchHfmFault).aside_judgeDead.1
  exact ⟨(congrArg HeadFaults.dead hjudge.1 :), (congrArg HeadFaults.count hjudge.1 :).trans hcount, hjudge.2.2⟩

theorem Dev.heatHfm_spec (d : Dev) (m : Nat) : (d.heatHfm m).word C.wchHfmFault = d.word C.wchHfmFault + 1
    ∧ (d.heatHfm m).chan.hfmHot = m :: d.chan.hfmHot.filter (fun x => x != m) ∧ (d.polls → (d.heatHfm m).polls) :=
  ⟨Dev.word_bump_same _ _, rfl, id⟩

theorem Dev.hfmPollOne_good (htaken : taken r = true) (helement : bitsAt (bitsAt r.toNat 23 8) 3 0 = 0)
    (hsupply : bitsAt (bitsAt r.toNat 23 8) 5 4 = 0) : d.hfmPollOne m (r :: rest) = (d.hfmAskFault m).coolHfm m := by
  simp [Dev.hfmPollOne, Dev.hfmAsk_taken d m 3 htaken, helement, hsupply, Dev.coolHfm]

theorem Dev.hfmPollOne_element (htaken : taken r = true) (helement : bitsAt (bitsAt r.toNat 23 8) 3 0 ≠ 0)
    (hsupply : bitsAt (bitsAt r.toNat 23 8) 5 4 = 0) (hfirst : d.ecc.deadHfm.contains (32 * m + bitsAt (bitsAt r.toNat 23 8) 12 8) = false) :
    d.hfmPollOne m (r :: rest) = ((d.hfmAskFault m).loseChannel (32 * m + bitsAt (bitsAt r.toNat 23 8) 12 8)).coolHfm m := by
  have hasked : (d.hfmAskFault m).ecc = d.ecc := rfl
  have hact : (decide (bitsAt (bitsAt r.toNat 23 8) 3 0 = 0)
      || (d.hfmAskFault m).ecc.deadHfm.contains (32 * m + bitsAt (bitsAt r.toNat 23 8) 12 8)) = false := by
    rw [hasked, hfirst, decide_eq_false helement]
    rfl
  rw [Dev.hfmPollOne, Dev.hfmAsk_taken d m 3 htaken]
  dsimp only
  rw [hact, if_neg Bool.false_ne_true, if_pos hsupply]
  rfl

theorem Dev.hfmPollOne_hot (htaken : taken r = true) (helement : bitsAt (bitsAt r.toNat 23 8) 3 0 = 0)
    (hsupply : bitsAt (bitsAt r.toNat 23 8) 5 4 ≠ 0) (hfirst : d.chan.hfmHot.contains m = false) :
    d.hfmPollOne m (r :: rest) = ((d.hfmAskFault m).heatHfm m).hfmStop := by
  have hasked : (d.hfmAskFault m).chan.hfmHot.contains m = false := hfirst
  rw [Dev.hfmPollOne, Dev.hfmAsk_taken d m 3 htaken]
  dsimp only
  rw [helement, decide_eq_true rfl, Bool.true_or, if_pos rfl, if_neg hsupply, hasked, if_neg Bool.false_ne_true]
  rfl

/-! ## The poll -/

theorem Dev.hfmPoll_eq (hpolls : d.polls) (rs : List (Nat × List (BitVec 40))) : d.hfmPoll rs
    = ((List.range 8).filter d.moduleOn).foldl (fun d m => d.hfmPollOne m (((rs.find? fun r => r.1 == m).map Prod.snd).getD [])) d := by
  have hruns : (d.glb.dev != .loaded && d.glb.dev != .streaming) = false := by
    obtain h | h := hpolls
    · rw [h]; rfl
    · rw [h]; rfl
  rw [Dev.hfmPoll, hruns]
  rfl

theorem Dev.proceeds_foldl {α : Type} {g : Dev → α → Dev} (h : ∀ d x, Dev.proceeds d (g d x)) (l : List α) (d : Dev) : d.proceeds (l.foldl g d) :=
  List.foldlRecOn (motive := fun e : Dev => d.proceeds e) l g d.proceeds_refl fun e he x _ => Dev.proceeds_trans he (h e x)

/-- What one of a row of steps puts out stands at the row's end. -/
theorem Dev.mem_out_foldl {α : Type} {g : Dev → α → Dev} (hproceeds : ∀ d x, Dev.proceeds d (g d x)) {o : Out} {x : α}
    (ho : ∀ d, o ∈ (g d x).out) : ∀ {l : List α}, x ∈ l → ∀ d : Dev, o ∈ (l.foldl g d).out
  | y :: l, hx, d => by
    rcases List.mem_cons.mp hx with rfl | hx
    · exact (Dev.proceeds_foldl hproceeds l _).1 (ho d)
    · exact Dev.mem_out_foldl hproceeds ho hx _

theorem runs_hfmFaultPoll_asks {s : State} (hpolls : s.dev.polls) (rs : List (Nat × List (BitVec 40))) {k : Nat} (hk : k < 8)
    (hon : s.dev.moduleOn k = true) : Runs (.hfmFaultPoll rs) s fun t => faultRead k ∈ t.dev.out := by
  refine ⟨_, exec_hfmFaultPoll rs s, ?_⟩
  rw [Dev.hfmPoll_eq hpolls]
  have hone := fun (e : Dev) (j : Nat) => e.proceeds_hfmPollOne j (((rs.find? fun r => r.1 == j).map Prod.snd).getD [])
  have hmem := Dev.mem_out_foldl (d := s.dev) hone (fun e => e.faultRead_mem_hfmPollOne k _)
    (List.mem_filter.mpr ⟨List.mem_range.mpr hk, hon⟩)
  have hrow := Dev.proceeds_foldl hone ((List.range 8).filter s.dev.moduleOn) s.dev
  exact (Dev.aside_hostSettle (hrow.2 hpolls)).1.2.1 hmem

/-- Where one module alone is enabled, the poll is that module's. -/
theorem Dev.hfmPoll_only (hpolls : d.polls) (hm : m < 8) (honly : ∀ k, k < 8 → d.moduleOn k = decide (k = m)) (rs : List (BitVec 40)) :
    d.hfmPoll [(m, rs)] = d.hfmPollOne m rs := by
  have hfilter : (List.range 8).filter d.moduleOn = [m] := by
    rw [List.filter_congr fun k hk => honly k (List.mem_range.mp hk)]
    exact (by decide : ∀ m < 8, (List.range 8).filter (fun k => decide (k = m)) = [m]) m hm
  rw [Dev.hfmPoll_eq hpolls, hfilter]
  simp

end Sys2Proof.Machine
end

section
/-!
SUPPORT. A module stops the tape of a device without work in hand: appending stops, the tape is to stand, the memories are left alone (R136).
-/
namespace Sys2Proof.Machine

variable {d e : Dev}

/-- Nothing is in hand that a stop would end. -/
structure Dev.stopsBare (d : Dev) : Prop where
  session : d.plc.session = none
  cmds : d.cqm.cmds = []
  waits : d.cqm.waits = []
  target : d.tce.target.isPlace = false

theorem Dev.stopsBare_of_quiet (h : d.quiet = true) : d.stopsBare := by
  simp only [Dev.quiet, Bool.and_eq_true, List.isEmpty_iff, Option.isNone_iff_eq_none, Bool.not_eq_true'] at h
  obtain ⟨⟨⟨⟨⟨⟨⟨⟨⟨⟨⟨-, hcmds⟩, hwaits⟩, -⟩, -⟩, -⟩, hsession⟩, -⟩, -⟩, -⟩, -⟩, htarget⟩ := h
  exact ⟨hsession, hcmds, hwaits, htarget⟩

theorem Dev.calm_of_quiet (h : d.quiet = true) : d.calm = true := by
  simp only [Dev.quiet, Bool.and_eq_true] at h
  obtain ⟨⟨⟨⟨⟨⟨⟨⟨⟨⟨⟨hcalm, -⟩, -⟩, -⟩, -⟩, -⟩, -⟩, -⟩, -⟩, -⟩, -⟩, -⟩ := h
  exact hcalm

theorem Dev.stopsBare_congr (hface : e.face = d.face) (htce : e.tce = d.tce) (h : d.stopsBare) : e.stopsBare where
  session := (congrArg Face.session hface :).trans h.session
  cmds := (congrArg Face.cmds hface :).trans h.cmds
  waits := (congrArg Face.waits hface :).trans h.waits
  target := by rw [htce, h.target]

/-- Without a session, appending that stops at once has stopped with its code, unless it had before. -/
theorem Dev.stopped_stopNow (h : d.stopsBare) (code : Nat) :
    d.aside (d.stopNow code) ∧ (d.plc.stopped = none → (d.stopNow code).plc.stopped = some code) := by
  have haside := d.aside_stopping code
  have hstop : (d.stopping code).face.appending = d.face.appending ∧ (d.plc.stopped = none → (d.stopping code).plc.stopped = some code) := by
    have hbegun : ∀ f : Dev, f.plc.session = none → (f.cancelStarts.modSession fun s => { s with ending := false }).face = f.face := fun f hf => by
      obtain ⟨hface, hplc⟩ := f.face_cancelStarts hf
      exact (Dev.modSession_none (by rw [hplc, hf]) _).1.trans hface
    unfold Dev.stopping
    split
    next hsome =>
      refine ⟨congrArg Face.appending (hbegun d h.session), fun hnone => ?_⟩
      rw [hnone] at hsome
      exact absurd hsome Bool.false_ne_true
    next =>
      have hface := hbegun (d.modPlc fun p => { p with stopped := some code, judged := false }) h.session
      exact ⟨(congrArg Face.appending hface).trans rfl, fun _ => (congrArg Face.stopped hface :)⟩
  rw [Dev.stopNow_stopping]
  generalize d.stopping code = g at *
  obtain ⟨hface, hstopped⟩ := hstop
  have hsession : g.plc.session = none := (congrArg Face.session hface :).trans h.session
  have hcmds : g.cqm.cmds = [] := (congrArg Face.cmds hface :).trans h.cmds
  have hwaits : g.cqm.waits = [] := (congrArg Face.waits hface :).trans h.waits
  have hclose : g.closeSession none = g := by rw [Dev.closeSession, hsession]
  rw [hclose, ite_self]
  have hjudge := g.face_judgeStop hwaits (by simp [hcmds])
  exact ⟨Dev.aside_trans haside g.aside_judgeStop, fun hnone => (congrArg Face.stopped hjudge :).trans (hstopped hnone)⟩

/-! ## The memories -/

theorem Dev.course_fault_hfm (d : Dev) : (d.fault F.glbFaultHfm).course = d.course := by
  unfold Dev.fault
  extract_lets low set
  have hset : set.course = d.course := d.course_set 1 (by decide)
  clear_value set
  exact Dev.course_ite ((set.course_emit _).trans hset) hset

theorem Dev.course_stopNow (d : Dev) (code : Nat) : (d.stopNow code).course = d.course := by
  have hstopping : (d.stopping code).course = d.course :=
    (Dev.course_modSession _ _).trans ((Dev.course_cancelStarts _).trans (Dev.course_ite rfl (d.course_modPlc _)))
  rw [Dev.stopNow_stopping]
  exact (Dev.course_judgeStop _).trans (Dev.course_ite hstopping ((Dev.course_closeSession _ _).trans hstopping))

theorem Dev.course_hfmStop (d : Dev) : d.hfmStop.course = d.course :=
  (Dev.course_giveTarget _ _).trans <| (Dev.course_stopNow _ _).trans <| (Dev.course_notice _ _ _).trans <| (Dev.course_log _ _).trans
    d.course_fault_hfm

theorem Dev.course_heatHfm_asked (d : Dev) (m : Nat) : ((d.hfmAskFault m).heatHfm m).course = d.course := by
  have hsend : ∀ (e : Dev) (v : BitVec 32), (e.hfmSend m v).course = e.course := fun e _ => (Dev.course_emit _ _).trans (e.course_chan _)
  exact (Dev.course_bump _ (by decide)).trans ((Dev.course_chan _ _).trans ((hsend _ _).trans (hsend d _)))

/-! ## The tape is to stand -/

theorem Dev.giveTarget_eq (hreaction : d.tce.reaction = 0) (hplace : d.tce.target.isPlace = false) (t : PgTarget) :
    (d.giveTarget t).tce.target = t ∧ (d.giveTarget t).plc = d.plc := by
  rw [Dev.giveTarget, hreaction, hplace]
  exact ⟨rfl, rfl⟩

theorem Dev.hfmStop_bare (h : d.stopsBare) (hreaction : d.tce.reaction = 0) :
    d.hfmStop.tce.target = .stop ∧ (d.plc.stopped = none → d.hfmStop.plc.stopped = some 0x0301) := by
  have htce : ((d.fault F.glbFaultHfm).event 0x0301).tce = d.tce := by
    refine ((d.fault F.glbFaultHfm).aside_event 0x0301).2.trans ?_
    unfold Dev.fault
    dsimp only
    split
    · rfl
    · rfl
  have hface : ((d.fault F.glbFaultHfm).event 0x0301).face = d.face := (Dev.face_event _ _).trans (d.face_fault _)
  unfold Dev.hfmStop
  generalize (d.fault F.glbFaultHfm).event 0x0301 = f at *
  have hbare := Dev.stopsBare_congr hface htce h
  obtain ⟨haside, hstopped⟩ := Dev.stopped_stopNow hbare 0x0301
  generalize f.stopNow 0x0301 = g at *
  obtain ⟨htarget, hplc⟩ := Dev.giveTarget_eq (d := g) (by rw [haside.2, htce, hreaction]) (by rw [haside.2, hbare.target]) .stop
  exact ⟨htarget, fun hnone => by rw [hplc, hstopped ((congrArg Face.stopped hface :).trans hnone)]⟩

end Sys2Proof.Machine
end

section
/-!
SUPPORT. The poll of the only enabled module, by what the module answers (R136).
-/
namespace Sys2Proof.Machine

variable {s : State} {m : Nat} {r : BitVec 40} {rest : List (BitVec 40)}

/-- The poll of the one enabled module. -/
theorem exec_hfmFaultPoll_only (hpolls : s.dev.polls) (hm : m < 8) (honly : ∀ k, k < 8 → s.dev.moduleOn k = decide (k = m)) :
    exec (.hfmFaultPoll [(m, r :: rest)]) s = .next { s with dev := (s.dev.hfmPollOne m (r :: rest)).hostSettle } := by
  rw [exec_hfmFaultPoll, Dev.hfmPoll_only hpolls hm honly]

theorem runs_hfmFaultPoll_good (hpolls : s.dev.polls) (hm : m < 8) (honly : ∀ k, k < 8 → s.dev.moduleOn k = decide (k = m))
    (htaken : taken r = true) (helement : bitsAt (bitsAt r.toNat 23 8) 3 0 = 0) (hsupply : bitsAt (bitsAt r.toNat 23 8) 5 4 = 0)
    (hcalm : s.dev.calm = true) : Runs (.hfmFaultPoll [(m, r :: rest)]) s fun t =>
      t.dev.ecc = s.dev.ecc ∧ t.dev.plc = s.dev.plc ∧ t.dev.tce = s.dev.tce ∧ t.dev.chan.hfmHot = s.dev.chan.hfmHot.filter (fun x => x != m)
        ∧ s.wordsBut t [C.hptTxSeg] ∧ s.memoriesStand t := by
  refine ⟨_, exec_hfmFaultPoll_only hpolls hm honly, ?_⟩
  rw [Dev.hfmPollOne_good htaken helement hsupply]
  have hframes : s.dev.hfmOnly ((s.dev.hfmAskFault m).coolHfm m) := rfl
  have hhot : ((s.dev.hfmAskFault m).coolHfm m).chan.hfmHot = s.dev.chan.hfmHot.filter (fun x => x != m) := rfl
  generalize (s.dev.hfmAskFault m).coolHfm m = e at *
  have hword : ∀ x, e.word x = s.dev.word x := fun x => by rw [hframes]; rfl
  have hsame : s.dev.sameMemories e :=
    ⟨(congrArg Dev.ddr hframes :), (congrArg Dev.nor hframes :), (congrArg Dev.feram hframes :), (congrArg Dev.cobMem hframes :)⟩
  have hhost := e.hostOnly_hostSettle ((Dev.calm_congr (congrArg Dev.glb hframes :) (congrArg Dev.hpt hframes :)).trans hcalm)
  obtain ⟨hmem, -, hplc, hecc, -⟩ := Dev.hostOnly_fields hhost
  refine ⟨?_, ?_, ?_, ?_, fun x hx => ?_, ?_⟩
  · exact hecc.trans (congrArg Dev.ecc hframes :)
  · exact hplc.trans (congrArg Dev.plc hframes :)
  · exact (congrArg Dev.tce hhost.1 :).trans (congrArg Dev.tce hframes :)
  · exact (congrArg (fun t : Dev => t.chan.hfmHot) hhost.1 :).trans hhot
  · exact (Dev.hostOnly_word hhost (by simpa using hx)).trans (hword x)
  · exact State.memoriesStand_of_same (t := { s with dev := _ }) (Dev.sameMemories_trans hsame hmem)

theorem runs_hfmFaultPoll_element (hpolls : s.dev.polls) (hm : m < 8) (honly : ∀ k, k < 8 → s.dev.moduleOn k = decide (k = m))
    (htaken : taken r = true) (helement : bitsAt (bitsAt r.toNat 23 8) 3 0 ≠ 0) (hsupply : bitsAt (bitsAt r.toNat 23 8) 5 4 = 0)
    (hfirst : s.dev.ecc.deadHfm.contains (32 * m + bitsAt (bitsAt r.toNat 23 8) 12 8) = false) :
    Runs (.hfmFaultPoll [(m, r :: rest)]) s fun t =>
      t.dev.ecc.deadHfm = s.dev.ecc.deadHfm ++ [32 * m + bitsAt (bitsAt r.toNat 23 8) 12 8]
        ∧ t.dev.word C.wchHfmFault = s.dev.word C.wchHfmFault + 1
        ∧ t.dev.channelOn (32 * m + bitsAt (bitsAt r.toNat 23 8) 12 8) = false := by
  refine ⟨_, exec_hfmFaultPoll_only hpolls hm honly, ?_⟩
  rw [Dev.hfmPollOne_element htaken helement hsupply hfirst]
  generalize 32 * m + bitsAt (bitsAt r.toNat 23 8) 12 8 = n
  have hlost := (s.dev.hfmAskFault m).loseChannel_spec n
  generalize (s.dev.hfmAskFault m).loseChannel n = e at *
  obtain ⟨hdead, hcount, hstays⟩ := hlost
  have hhost := (Dev.aside_hostSettle (d := e.coolHfm m) (hstays hpolls)).1.1
  have hfinal : ((e.coolHfm m).hostSettle).ecc.deadHfm = s.dev.ecc.deadHfm ++ [n] := (congrArg HeadFaults.dead hhost :).trans hdead
  refine ⟨hfinal, (congrArg HeadFaults.count hhost :).trans hcount, ?_⟩
  simp [Dev.channelOn, Dev.channelFit, hfinal]

theorem runs_hfmFaultPoll_hot (hpolls : s.dev.polls) (hm : m < 8) (honly : ∀ k, k < 8 → s.dev.moduleOn k = decide (k = m))
    (htaken : taken r = true) (helement : bitsAt (bitsAt r.toNat 23 8) 3 0 = 0) (hsupply : bitsAt (bitsAt r.toNat 23 8) 5 4 ≠ 0)
    (hfirst : s.dev.chan.hfmHot.contains m = false) : Runs (.hfmFaultPoll [(m, r :: rest)]) s fun t =>
      t.dev.get F.glbFaultHfm = 1 ∧ t.dev.word C.wchHfmFault = s.dev.word C.wchHfmFault + 1 ∧ t.dev.chan.hfmHot.contains m = true
        ∧ (s.dev.quiet = true → s.dev.tce.reaction = 0 → t.dev.tce.target = .stop ∧ s.memoriesStand t
          ∧ (s.dev.plc.stopped = none → t.dev.plc.stopped = some 0x0301)) := by
  refine ⟨_, exec_hfmFaultPoll_only hpolls hm honly, ?_⟩
  rw [Dev.hfmPollOne_hot htaken helement hsupply hfirst]
  have hheat := (s.dev.hfmAskFault m).heatHfm_spec m
  have hcourse : ((s.dev.hfmAskFault m).heatHfm m).course = s.dev.course := Dev.course_heatHfm_asked _ _
  have hface : ((s.dev.hfmAskFault m).heatHfm m).face = s.dev.face := Dev.face_bump _ _
  have htce : ((s.dev.hfmAskFault m).heatHfm m).tce = s.dev.tce := rfl
  generalize (s.dev.hfmAskFault m).heatHfm m = e at *
  obtain ⟨hcount, hhot, hstays⟩ := hheat
  obtain ⟨hfaults, hon⟩ := e.hfmStop_spec
  have hstop := e.course_hfmStop.trans hcourse
  have hbare := fun h hreaction => Dev.hfmStop_bare (Dev.stopsBare_congr hface htce h) hreaction
  generalize e.hfmStop = g at *
  have hhost := (Dev.aside_hostSettle (d := g) (hon.2 (hstays hpolls))).1.1.trans hfaults
  refine ⟨(congrArg HeadFaults.latched hhost :), (congrArg HeadFaults.count hhost :).trans hcount, ?_, fun hquiet hreaction => ?_⟩
  · have hkept : g.hostSettle.chan.hfmHot = e.chan.hfmHot := (congrArg HeadFaults.hot hhost :)
    have hmem : m ∈ g.hostSettle.chan.hfmHot := by
      rw [hkept, hhot]
      exact List.mem_cons_self
    exact List.contains_iff_mem.mpr hmem
  · have hgcalm : g.calm = true := (Dev.course_calm hstop).trans (Dev.calm_of_quiet hquiet)
    obtain ⟨-, -, hplc, -, -, htce'⟩ := Dev.still_of_hostOnly (g.hostOnly_hostSettle hgcalm)
    obtain ⟨htarget, hstopped⟩ := hbare (Dev.stopsBare_of_quiet hquiet) (by rw [htce, hreaction])
    refine ⟨by rw [htce', htarget], ?_, fun hnone => by rw [hplc, hstopped ((congrArg Face.stopped hface :).trans hnone)]⟩
    exact State.memoriesStand_of_same (t := { s with dev := _ }) (Dev.course_memories ((Dev.course_hostSettle hgcalm).trans hstop))

end Sys2Proof.Machine
end

section
/-!
SETTLED. The control bus of the head modules (R93, R133 to R137).
-/
namespace Sys2Proof.Machine

/-- Settles O43: frames in maintenance and by GO, the next enable group during LOAD, and a fault poll's questions and what it does for each
kind of answer. -/
theorem hfmBusActs : Obligations.HfmBusActs := by
  unfold Obligations.HfmBusActs
  intro s m v r rest shows
  refine ⟨fun hmaint hm => ?_, fun hmaint hup hread => ?_, fun hload hroom => ?_, fun hpolls => ?_⟩
  · obtain ⟨t, hexec, e, hanswer, hout, hmem, hmodule, hdata, haddr, hword⟩ := runs_hfmFrameSend_maintenance hmaint hm v r
    have hstands : ∀ f : Fld, f.addr = F.wchHfmTxData.addr → t.dev.get f = e.get f := fun f hf => by
      rw [Dev.get, Dev.get, hanswer.words _ (by rw [hf]; decide)]
    refine ⟨t, hexec, hout ▸ hanswer.out, (hstands F.wchHfmTxModule rfl).trans hmodule,
      (hstands F.wchHfmTxData rfl).trans hdata, (hstands F.wchHfmTxAddr rfl).trans haddr, ?_, fun x hx => ?_⟩
    · exact hanswer.shown hmem (hword _ (by decide))
    · simp only [List.mem_cons, List.not_mem_nil, or_false, not_or] at hx
      exact (hanswer.words x (by simp [hx])).trans (hword x hx.1)
  · have hanswer := s.dev.answered_hfmGo (s.dev.get F.wchHfmTxModule) (hfmWord true (s.dev.get F.wchHfmTxAddr) 0) r
    rw [← Dev.hfmTalk_go hmaint hup hread m v r] at hanswer
    exact ⟨_, exec_hfmFrameSend m v r s, hanswer.out, hanswer.shown ⟨rfl, rfl, rfl, rfl⟩ rfl, hanswer.words⟩
  · intro g
    refine ⟨_, exec_enableGroupStep s, ?_⟩
    rw [Dev.enableGroup_eq hload hroom]
    exact ⟨rfl, rfl, rfl, State.memoriesStand_of_same (t := { s with dev := _ }) ⟨rfl, rfl, rfl, rfl⟩⟩
  · intro asked fault n
    refine ⟨fun rs k hk hon => runs_hfmFaultPoll_asks hpolls rs hk hon, fun hm htaken honly => ⟨?_, ?_, ?_⟩⟩
    · exact runs_hfmFaultPoll_good hpolls hm honly htaken
    · exact runs_hfmFaultPoll_element hpolls hm honly htaken
    · exact runs_hfmFaultPoll_hot hpolls hm honly htaken

end Sys2Proof.Machine
end

section
/-!
SUPPORT. What the ladder's steps leave alone while no read waits (R156 to R162): the Last, the position, the tape, the memories that keep
their bytes, what waits on the host side, the count of a group's re-reads, and the fields of registers that they do not write.
-/
namespace Sys2Proof.Machine

/-- What the ladder stands on, with the values of some fields. -/
structure Bench where
  plc : Plc
  pos : Pos
  tce : Tce
  nor : Memory
  feram : Memory
  strm : Strm
  held : Bool
  states : List CState
  rereads : Nat
  shown : List Nat

def Dev.bench (fs : List Fld) (d : Dev) : Bench :=
  ⟨d.plc, d.pos, d.tce, d.nor, d.feram, d.strm, d.glb.standbyHeld, d.hpt.conns.map Conn.st, d.ecc.rereads, fs.map d.get⟩

/-- Counters of decoding, and what a poisoned buffer shows (R151, R337). -/
def decodeWords : List Nat :=
  [C.eccC2Sym, C.eccC2Fail, C.eccMiscorrect, C.memUe, F.memStatusUeSeen.addr, F.memUeAddrAddr.addr, F.glbFaultMemory.addr, C.cqmLogLost]

/-- What a class shows (R160, R163). -/
def classWords : List Nat := [C.eccUnrecovered, F.eccLastFailClass.addr, F.rchRetainPinValid.addr]

/-- No field lies in one of some registers. -/
abbrev Fld.outside (fs : List Fld) (as : List Nat) : Prop := ∀ f ∈ fs, f.addr ∉ as

theorem Fld.outside_nil (as : List Nat) : Fld.outside [] as := fun _ h => absurd h List.not_mem_nil

variable {d e : Dev} {fs : List Fld}

/-! ## What the bench says -/

theorem Dev.bench_get (h : e.bench fs = d.bench fs) {f : Fld} (hf : f ∈ fs) : e.get f = d.get f :=
  List.map_inj_left.mp (congrArg Bench.shown h) f hf

theorem Dev.bench_calm (h : e.bench fs = d.bench fs) : e.calm = d.calm :=
  Dev.calm_of_held (congrArg Bench.held h) (congrArg Bench.states h)

theorem Dev.bench_plc (h : e.bench fs = d.bench fs) : e.plc = d.plc := congrArg Bench.plc h
theorem Dev.bench_pos (h : e.bench fs = d.bench fs) : e.pos = d.pos := congrArg Bench.pos h
theorem Dev.bench_tce (h : e.bench fs = d.bench fs) : e.tce = d.tce := congrArg Bench.tce h
theorem Dev.bench_nor (h : e.bench fs = d.bench fs) : e.nor = d.nor := congrArg Bench.nor h
theorem Dev.bench_feram (h : e.bench fs = d.bench fs) : e.feram = d.feram := congrArg Bench.feram h
theorem Dev.bench_reads (h : e.bench fs = d.bench fs) : e.strm.reads = d.strm.reads := congrArg (fun b => b.strm.reads) h
theorem Dev.bench_rereads (h : e.bench fs = d.bench fs) : e.ecc.rereads = d.ecc.rereads := congrArg Bench.rereads h

/-! ## The elementary changes -/

theorem Dev.bench_putWord (d : Dev) {a : Nat} (w : Word) (h : ∀ f ∈ fs, f.addr ≠ a) : (d.putWord a w).bench fs = d.bench fs := by
  have hshown : fs.map (d.putWord a w).get = fs.map d.get :=
    List.map_congr_left fun f hf => by rw [Dev.get, Dev.get, d.word_putWord_other w (h f hf)]
  rw [Dev.bench, hshown]
  rfl

theorem Dev.bench_set (d : Dev) {f : Fld} (v : Nat) (h : ∀ g ∈ fs, g.addr ≠ f.addr) : (d.set f v).bench fs = d.bench fs :=
  d.bench_putWord _ h
theorem Dev.bench_bumpBy (d : Dev) {a : Nat} (n : Nat) (h : ∀ f ∈ fs, f.addr ≠ a) : (d.bumpBy a n).bench fs = d.bench fs :=
  d.bench_putWord _ h
theorem Dev.bench_bump (d : Dev) {a : Nat} (h : ∀ f ∈ fs, f.addr ≠ a) : (d.bump a).bench fs = d.bench fs := d.bench_bumpBy 1 h

theorem Dev.bench_pools (d : Dev) (ps : List Pool) : ({ d with pools := ps } : Dev).bench fs = d.bench fs := by cases d; rfl
theorem Dev.bench_chan (d : Dev) (t : Chan) : ({ d with chan := t } : Dev).bench fs = d.bench fs := by cases d; rfl
theorem Dev.bench_cqm (d : Dev) (t : Cqm) : ({ d with cqm := t } : Dev).bench fs = d.bench fs := by cases d; rfl
theorem Dev.bench_emit (d : Dev) (o : Out) : (d.emit o).bench fs = d.bench fs := by cases d; rfl
theorem Dev.bench_putDdr (d : Dev) (a : Nat) (bs : List Byte) : (d.putDdr a bs).bench fs = d.bench fs := by cases d; rfl
theorem Dev.bench_ecc (d : Dev) {t : Ecc} (h : t.rereads = d.ecc.rereads) : ({ d with ecc := t } : Dev).bench fs = d.bench fs := by
  cases d
  simp only [Dev.bench] at h ⊢
  rw [h]
  rfl
theorem Dev.bench_modDecode (d : Dev) (h : Nat) (f : Decode → Decode) : (d.modDecode h f).bench fs = d.bench fs := d.bench_ecc rfl
theorem Dev.bench_addDecode (d : Dev) (x : Decode) : (d.addDecode x).bench fs = d.bench fs := d.bench_ecc rfl

theorem Dev.bench_release (d : Dev) (h o : Nat) : (d.release h o).bench fs = d.bench fs := by rw [Dev.release_pools, Dev.bench_pools]

theorem Dev.bench_dropDecode (d : Dev) (x : Decode) : (d.dropDecode x).bench fs = d.bench fs := by
  unfold Dev.dropDecode
  exact (Dev.bench_release _ _ _).trans (Dev.bench_ecc d rfl)

theorem Dev.bench_unpin (d : Dev) (h : ∀ f ∈ fs, f.addr ≠ F.rchRetainPinValid.addr) : d.unpin.bench fs = d.bench fs :=
  (Dev.bench_set _ _ h).trans (Dev.bench_ecc d rfl)

theorem Dev.bench_ite {p : Prop} [Decidable p] {a b : Dev} (ha : a.bench fs = d.bench fs) (hb : b.bench fs = d.bench fs) :
    (if p then a else b).bench fs = d.bench fs := by
  split
  · exact ha
  · exact hb

theorem Dev.bench_foldl {α : Type} {f : Dev → α → Dev} {l : List α} (h : ∀ x ∈ l, ∀ d, (f d x).bench fs = d.bench fs) (d : Dev) :
    (l.foldl f d).bench fs = d.bench fs :=
  List.foldlRecOn (motive := fun e : Dev => e.bench fs = d.bench fs) l f rfl fun e he x hx => (h x hx e).trans he

/-! ## Shared operations -/

theorem Dev.bench_memoryError (d : Dev) (a : Nat) (h : Fld.outside fs decodeWords) : (d.memoryError a).bench fs = d.bench fs := by
  have hother : ∀ x ∈ decodeWords, ∀ f ∈ fs, f.addr ≠ x := fun x hx f hf => ne_of_mem_of_not_mem hx (h f hf) |>.symm
  have hnotice : ∀ (e : Dev) (code : Nat) (es : List (List Byte)), (e.notice code es).bench fs = e.bench fs := fun e code es =>
    Dev.bench_foldl (fun _ _ f => by
      rw [Dev.bench, (Dev.tells_sendMsg f _ _ _ _ _ _ _).2]
      rfl) e
  have hlog : ∀ (e : Dev) (y : LogEntry), (e.log y).bench fs = e.bench fs := fun e y => by
    unfold Dev.log
    extract_lets seq y full cqm written
    have hwritten : written.bench fs = e.bench fs := e.bench_cqm _
    clear_value written
    exact Dev.bench_ite ((Dev.bench_bump _ (hother _ (by decide))).trans hwritten) hwritten
  have hfault : ∀ e : Dev, (e.fault F.glbFaultMemory).bench fs = e.bench fs := fun e => by
    unfold Dev.fault
    extract_lets low shown
    have hshown : shown.bench fs = e.bench fs := e.bench_set _ (hother _ (by decide))
    clear_value shown
    exact Dev.bench_ite ((Dev.bench_emit _ _).trans hshown) hshown
  unfold Dev.memoryError Dev.event Dev.eventWith
  rw [hnotice, hlog, hfault, Dev.bench_set _ _ (hother _ (by decide)), Dev.bench_set _ _ (hother _ (by decide)),
    Dev.bench_bump _ (hother _ (by decide))]

theorem Dev.bench_hostSettle (hcalm : d.calm = true) (h : ∀ f ∈ fs, f.addr ≠ C.hptTxSeg) : d.hostSettle.bench fs = d.bench fs := by
  have hhost := d.hostOnly_hostSettle hcalm
  have hcourse := Dev.course_of_hostOnly hhost
  obtain ⟨hglb, hstrm, hplc, -, hpos, htce⟩ := Dev.still_of_hostOnly hhost
  obtain ⟨-, hnor, hferam, -⟩ := Dev.sameMemories_of_hostOnly hhost
  obtain ⟨-, -, -, hecc, -⟩ := Dev.hostOnly_fields hhost
  have hshown : fs.map d.hostSettle.get = fs.map d.get :=
    List.map_congr_left fun f hf => by rw [Dev.get, Dev.get, Dev.hostOnly_word hhost (h f hf)]
  have hstates : d.hostSettle.hpt.conns.map Conn.st = d.hpt.conns.map Conn.st := congrArg Course.states hcourse
  rw [Dev.bench, Dev.bench, hshown, hstates, hglb, hstrm, hplc, hpos, htce, hnor, hferam, hecc]

end Sys2Proof.Machine
end

section
/-!
SUPPORT. The ladder's steps and the tidying after them on the bench (R149 to R163).
-/
namespace Sys2Proof.Machine

variable {d e : Dev} {fs : List Fld}

/-! ## Decoding -/

theorem Dev.bench_putTracks (d : Dev) (h : Nat) (ts : List (List Nat)) : (d.putTracks h ts).bench fs = d.bench fs :=
  Dev.bench_foldl (fun _ _ e => e.bench_putDdr _ _) d

theorem Dev.bench_runC2 (d : Dev) (x : Decode) (first : Bool) (h : Fld.outside fs decodeWords) :
    (d.runC2 x first).bench fs = d.bench fs := by
  have hother : ∀ x ∈ decodeWords, ∀ f ∈ fs, f.addr ≠ x := fun x hx f hf => (ne_of_mem_of_not_mem hx (h f hf)).symm
  unfold Dev.runC2
  extract_lets r poison told bad put counted failed typ content judged bad'
  have htold : told.bench fs = d.bench fs := by
    unfold told
    cases poison with
    | none => rfl
    | some a => exact Dev.bench_memoryError _ _ h
  clear_value told bad r
  have hcounted : counted.bench fs = d.bench fs :=
    (Dev.bench_bumpBy _ _ (hother _ (by decide))).trans ((Dev.bench_putTracks _ _ _).trans htold)
  clear_value counted
  have hfailed : failed.bench fs = d.bench fs :=
    Dev.bench_ite ((Dev.bench_bumpBy _ _ (hother _ (by decide))).trans hcounted) hcounted
  clear_value failed typ content
  have hjudged : judged.bench fs = d.bench fs := Dev.bench_ite hfailed ((Dev.bench_bump _ (hother _ (by decide))).trans hfailed)
  clear_value judged
  exact (Dev.bench_modDecode _ _ _).trans hjudged

theorem Dev.bench_redecode (d : Dev) (x : Decode) (s : Retained) (again : Bool) (h : Fld.outside fs decodeWords) :
    (d.redecode x s again).bench fs = d.bench fs := by
  unfold Dev.redecode
  extract_lets failed decoded
  have hdecoded : decoded.bench fs = d.bench fs := Dev.bench_foldl (fun f _ e => by
    dsimp only
    split
    · rw [Dev.bench_modDecode]
      split
      · exact Dev.bench_putDdr _ _ _
      · rfl
    · rfl) _
  clear_value decoded
  split
  · exact (Dev.bench_runC2 _ _ _ h).trans hdecoded
  · exact hdecoded

theorem Dev.bench_mergeInto (d : Dev) (y : Decode) (tracks : List (List Nat)) (bad : List Nat) (copy : Nat) (h : Fld.outside fs decodeWords) :
    (d.mergeInto y tracks bad copy).bench fs = d.bench fs := by
  unfold Dev.mergeInto
  extract_lets old mineCopy from_ good left put ok judged new merged
  have hput : put.bench fs = d.bench fs := Dev.bench_putTracks _ _ _
  clear_value put
  have hjudged : judged.bench fs = d.bench fs :=
    Dev.bench_ite hput ((Dev.bench_bump _ fun f hf => (ne_of_mem_of_not_mem (by decide) (h f hf)).symm).trans hput)
  clear_value judged
  exact (Dev.bench_modDecode _ _ _).trans hjudged

theorem Dev.bench_mergeRead (d : Dev) (x y : Decode) (h : Fld.outside fs decodeWords) : (d.mergeRead x y).bench fs = d.bench fs :=
  (Dev.bench_dropDecode _ _).trans (Dev.bench_ite (Dev.bench_mergeInto _ _ _ _ _ h) rfl)

/-- C3 counts a group the first time, and shows nothing else on the bench. -/
theorem Dev.bench_c3Decode (d : Dev) (e : GroupEntry) (tMax : Nat) (h : Fld.outside fs decodeWords) :
    (d.c3Decode e tMax).bench fs = (if d.ecc.c3Seen.contains (e.wrap, e.group) then d else d.bump C.eccC3Decode).bench fs := by
  unfold Dev.c3Decode
  extract_lets ds at_ order absent rows bad words key _ counted lost
  have hcounted : counted.bench fs = (if d.ecc.c3Seen.contains (e.wrap, e.group) then d else d.bump C.eccC3Decode).bench fs := by
    unfold counted
    split
    · rfl
    · have hshown : ∀ t : Ecc, t.rereads = d.ecc.rereads →
          (({ d with ecc := t } : Dev).bump C.eccC3Decode).bench fs = (d.bump C.eccC3Decode).bench fs := fun t ht =>
        Dev.bench_ecc (d.bump C.eccC3Decode) ht
      exact hshown _ rfl
  clear_value counted lost rows bad words
  refine (Dev.bench_foldl (fun x _ f => ?_) counted).trans hcounted
  extract_lets i old new left put ok judged
  have hput : put.bench fs = f.bench fs := Dev.bench_putDdr _ _ _
  clear_value put
  have hjudged : judged.bench fs = f.bench fs :=
    Dev.bench_ite hput ((Dev.bench_bump _ fun f hf => (ne_of_mem_of_not_mem (by decide) (h f hf)).symm).trans hput)
  clear_value judged
  exact (Dev.bench_modDecode _ _ _).trans hjudged

/-! ## Classes -/

theorem Dev.bench_classify (d : Dev) (x : Decode) (k : Nat) (h : Fld.outside fs classWords) : (d.classify x k).bench fs = d.bench fs := by
  have hother : ∀ x ∈ classWords, ∀ f ∈ fs, f.addr ≠ x := fun x hx f hf => (ne_of_mem_of_not_mem hx (h f hf)).symm
  unfold Dev.classify
  extract_lets classed free counted
  have hclassed : classed.bench fs = d.bench fs := Dev.bench_modDecode _ _ _
  clear_value classed
  have hfree : free.bench fs = d.bench fs :=
    Dev.bench_ite ((Dev.bench_unpin _ (hother _ (by decide))).trans hclassed) hclassed
  clear_value free
  have hcounted : counted.bench fs = d.bench fs := Dev.bench_ite ((Dev.bench_bump _ (hother _ (by decide))).trans hfree) hfree
  clear_value counted
  have hlast : ∀ f ∈ fs, f.addr ≠ F.eccLastFailClass.addr := hother _ (by decide)
  refine Dev.bench_ite ?_ hcounted
  rw [Dev.bench_set (f := F.eccLastFailSlot) _ _ hlast, Dev.bench_set (f := F.eccLastFailGroup) _ _ hlast,
    Dev.bench_set (f := F.eccLastFailIndex) _ _ hlast, Dev.bench_set (f := F.eccLastFailClass) _ _ hlast, hcounted]

theorem Dev.bench_stepDone (d : Dev) (x : Decode) (k : Nat) (h : Fld.outside fs classWords) : (d.stepDone x k).bench fs = d.bench fs := by
  unfold Dev.stepDone
  extract_lets stepped
  have hstepped : stepped.bench fs = d.bench fs := Dev.bench_modDecode _ _ _
  clear_value stepped
  exact Dev.bench_ite hstepped (Dev.bench_ite ((Dev.bench_classify _ _ _ h).trans hstepped) hstepped)

theorem Dev.bench_classPassed (d : Dev) (e : GroupEntry) (k : Nat) (h : Fld.outside fs classWords) : (d.classPassed e k).bench fs = d.bench fs :=
  Dev.bench_foldl (fun _ _ f => f.bench_classify _ _ h) d

theorem Dev.bench_groupStep (d : Dev) (e : GroupEntry) (k : Nat) (h : Fld.outside fs classWords) : (d.groupStep e k).bench fs = d.bench fs := by
  unfold Dev.groupStep
  extract_lets failing stepped
  have hstepped : stepped.bench fs = d.bench fs := Dev.bench_foldl (fun _ _ f => f.bench_stepDone _ _ h) d
  clear_value stepped
  exact Dev.bench_ite ((Dev.bench_ecc _ rfl).trans hstepped) hstepped

/-! ## Tidying where no read waits (R158) -/

theorem Dev.bench_giveUp (d : Dev) (x : Decode) : (d.giveUp x).bench fs = d.bench fs := by
  unfold Dev.giveUp
  extract_lets dropped
  have hdropped : dropped.bench fs = d.bench fs := Dev.bench_dropDecode _ _
  clear_value dropped
  exact Dev.bench_ite ((Dev.bench_ecc _ rfl).trans hdropped) hdropped

theorem Dev.decodes_giveUp (d : Dev) (x : Decode) : (d.giveUp x).ecc.decodes = d.ecc.decodes.filter fun y => y.handle != x.handle := by
  have hdrop : (d.dropDecode x).ecc.decodes = d.ecc.decodes.filter fun y => y.handle != x.handle := by
    unfold Dev.dropDecode
    rw [Dev.release_pools]
  unfold Dev.giveUp
  extract_lets dropped
  split
  · exact hdrop
  · exact hdrop

theorem Dev.bench_tidyReads (d : Dev) (h : ∀ f ∈ fs, f.addr ≠ F.rchRetainPinValid.addr) : d.tidyReads.bench fs = d.bench fs := by
  unfold Dev.tidyReads
  extract_lets none_ open_ gone left here _ tidied
  have hleft : left.bench fs = d.bench fs := Dev.bench_foldl (fun _ _ e => e.bench_giveUp _) d
  clear_value left
  have htidied : tidied.bench fs = d.bench fs := (Dev.bench_ecc _ rfl).trans hleft
  clear_value tidied
  exact Dev.bench_ite ((Dev.bench_unpin _ h).trans htidied) htidied

theorem Dev.decodes_foldl_giveUp : ∀ (l : List Decode) (d : Dev), (∀ y ∈ d.ecc.decodes, y ∈ l) → (l.foldl Dev.giveUp d).ecc.decodes = []
  | [], _, h => List.eq_nil_iff_forall_not_mem.mpr fun y hy => List.not_mem_nil (h y hy)
  | x :: l, d, h => by
    refine Dev.decodes_foldl_giveUp l (d.giveUp x) fun y hy => ?_
    rw [Dev.decodes_giveUp] at hy
    obtain ⟨hmem, hother⟩ := List.mem_filter.mp hy
    exact List.mem_of_ne_of_mem (fun hxy => by simp [hxy] at hother) (h y hmem)

/-- Where no read waits, no data set of read mode stays, and no slot is pinned. -/
theorem Dev.ecc_tidyReads (hreads : d.strm.reads = []) (hread : ∀ x ∈ d.ecc.decodes, x.verify = false) :
    d.tidyReads.ecc.decodes = [] ∧ d.tidyReads.ecc.pin = none := by
  unfold Dev.tidyReads
  extract_lets none_ open_ gone left here _ tidied
  have hnone : none_ = true := by simp [none_, hreads]
  have htidied : tidied.ecc.decodes = [] :=
    Dev.decodes_foldl_giveUp gone d fun y hy => List.mem_filter.mpr ⟨hy, by simp [hread y hy, hnone]⟩
  clear_value tidied none_
  subst hnone
  cases hpin : tidied.ecc.pin with
  | none => simpa [hpin] using htidied
  | some slot => simpa [Dev.unpin] using htidied

theorem Dev.settleReads_of_idle (h : d.strm.reads = []) : d.settleReads = d.tidyReads := by
  rw [Dev.settleReads, h]
  rfl

end Sys2Proof.Machine
end

section
/-!
SUPPORT. Steps 1 and 3 of the ladder (R158, R160, R162), the first two clauses of `Obligations.LadderStepsTaken`.
-/
namespace Sys2Proof.Machine

theorem exec_reDecode (s : State) : exec .reDecode s = .next { s with dev := s.dev.reDecode.hostSettle } := rfl
theorem exec_c3ErasureDecode (s : State) : exec .c3ErasureDecode s = .next { s with dev := s.dev.c3Step.hostSettle } := rfl
theorem exec_groupReread (reads : List (Nat × List TrackSignal)) (s : State) :
    exec (.groupReread reads) s = .next { s with dev := (s.dev.groupReread reads).hostSettle } := rfl

variable {d e : Dev} {fs : List Fld}

/-- A register as one field. -/
def wordField (a : Nat) : Fld := ⟨a, 0, 48⟩

theorem Dev.word_of_get {a : Nat} (h : e.get (wordField a) = d.get (wordField a)) : e.word a = d.word a := by
  have hget : ∀ f : Dev, f.get (wordField a) = (f.word a).toNat := fun f => by
    have hlt := (f.word a).isLt
    simp only [Dev.get, Fld.of, wordField, Nat.pow_zero, Nat.div_one]
    exact Nat.mod_eq_of_lt hlt
  exact BitVec.eq_of_toNat_eq (by rw [← hget, ← hget, h])

/-- What a step of the ladder leaves on the bench once reads are settled and credit has followed, where no read waits. -/
theorem Dev.bench_settled (hreads : d.strm.reads = []) (hcalm : d.calm = true) (hpin : ∀ f ∈ fs, f.addr ≠ F.rchRetainPinValid.addr)
    (hsent : ∀ f ∈ fs, f.addr ≠ C.hptTxSeg) : d.settleReads.hostSettle.bench fs = d.bench fs := by
  have htidy := fun gs : List Fld => Dev.bench_tidyReads (fs := gs) d
  rw [Dev.settleReads_of_idle hreads]
  exact (Dev.bench_hostSettle ((Dev.bench_calm (htidy [] (by simp))).trans hcalm) hsent).trans (htidy fs hpin)

/-! ## Step 1 -/

theorem Dev.get_classify_lastFail (d : Dev) (x : Decode) {k : Nat} (hk : 2 ≤ k) :
    (d.classify x k).get F.eccLastFailClass = k % 8 ∧ (d.classify x k).get F.eccLastFailIndex = x.index % 64
      ∧ (d.classify x k).get F.eccLastFailGroup = x.group % 2 ^ 14 ∧ (d.classify x k).get F.eccLastFailSlot = x.slot % 2 ^ 20 := by
  unfold Dev.classify
  extract_lets classed free counted
  clear_value counted
  rw [if_pos hk]
  refine ⟨?_, ?_, ?_, ?_⟩ <;> simp (disch := decide) [Dev.get_set_same, Dev.get_set_other] <;> rfl

/-! ## Decodes of read mode -/

/-- No decode is one of verify. -/
def Dev.readsOnly (d : Dev) : Prop := ∀ x ∈ d.ecc.decodes, x.verify = false

theorem Dev.readsOnly_congr (h : e.ecc.decodes = d.ecc.decodes) (hd : d.readsOnly) : e.readsOnly := fun x hx => hd x (h ▸ hx)

theorem Dev.readsOnly_modDecode {f : Decode → Decode} (h : Nat) (hf : ∀ x, (f x).verify = x.verify) (hd : d.readsOnly) :
    (d.modDecode h f).readsOnly := fun y hy => by
  obtain ⟨x, hx, rfl⟩ := List.mem_map.mp hy
  split
  · exact (hf x).trans (hd x hx)
  · exact hd x hx

theorem Dev.readsOnly_ite {p : Prop} [Decidable p] {a b : Dev} (ha : a.readsOnly) (hb : b.readsOnly) : (if p then a else b).readsOnly := by
  split
  · exact ha
  · exact hb

theorem Dev.ecc_putTracks (d : Dev) (h : Nat) (ts : List (List Nat)) : (d.putTracks h ts).ecc = d.ecc :=
  List.foldlRecOn (motive := fun e : Dev => e.ecc = d.ecc) _ _ rfl fun _ he _ _ => (Dev.putDdr_ecc _ _ _).trans he

theorem Dev.ecc_ite {p : Prop} [Decidable p] {a b : Dev} (ha : a.ecc = d.ecc) (hb : b.ecc = d.ecc) : (if p then a else b).ecc = d.ecc := by
  split
  · exact ha
  · exact hb

theorem Dev.ecc_memoryError (d : Dev) (a : Nat) : (d.memoryError a).ecc = d.ecc := by
  have hfault : ∀ e : Dev, (e.fault F.glbFaultMemory).ecc = e.ecc := fun e => by
    unfold Dev.fault
    extract_lets low shown
    split <;> rfl
  have hevent : ∀ (e : Dev) (code : Nat), (e.event code).ecc = e.ecc := fun e code =>
    (congrArg Dev.ecc (Dev.tells_notice _ _ _).1 :).trans (congrArg Dev.ecc (e.logOnly_log (eventEntry code [])).1 :)
  unfold Dev.memoryError
  rw [hevent, hfault]
  rfl

theorem Dev.readsOnly_runC2 (x : Decode) (first : Bool) (hd : d.readsOnly) : (d.runC2 x first).readsOnly := by
  unfold Dev.runC2
  extract_lets r poison told bad put counted failed typ content judged bad'
  have htold : told.ecc = d.ecc := by
    unfold told
    cases poison with
    | none => rfl
    | some a => exact d.ecc_memoryError a
  clear_value told bad r
  have hcounted : counted.ecc = d.ecc := (Dev.bumpBy_ecc _ _ _).trans ((Dev.ecc_putTracks _ _ _).trans htold)
  clear_value counted
  have hfailed : failed.ecc = d.ecc := Dev.ecc_ite ((Dev.bumpBy_ecc _ _ _).trans hcounted) hcounted
  clear_value failed typ content
  have hjudged : judged.ecc = d.ecc := Dev.ecc_ite hfailed ((Dev.bump_ecc _ _).trans hfailed)
  clear_value judged bad'
  exact Dev.readsOnly_modDecode _ (fun _ => rfl) (Dev.readsOnly_congr (congrArg Ecc.decodes hjudged) hd)

theorem Dev.readsOnly_redecode (x : Decode) (s : Retained) (again : Bool) (hd : d.readsOnly) : (d.redecode x s again).readsOnly := by
  unfold Dev.redecode
  extract_lets failed decoded
  have hdecoded : decoded.readsOnly := List.foldlRecOn (motive := Dev.readsOnly) _ _ hd fun e he f _ => by
    dsimp only
    split
    · refine Dev.readsOnly_modDecode _ (fun _ => rfl) ?_
      split
      · exact Dev.readsOnly_congr rfl he
      · exact he
    · exact he
  clear_value decoded
  split
  · exact Dev.readsOnly_runC2 _ _ hdecoded
  · exact hdecoded

theorem Dev.readsOnly_classify (x : Decode) (k : Nat) (hd : d.readsOnly) : (d.classify x k).readsOnly := by
  unfold Dev.classify
  extract_lets classed free counted
  have hclassed : classed.readsOnly := Dev.readsOnly_modDecode _ (fun _ => rfl) hd
  clear_value classed
  have hfree : free.readsOnly := Dev.readsOnly_ite (fun y hy => hclassed y hy) hclassed
  clear_value free
  have hcounted : counted.readsOnly := Dev.readsOnly_congr (congrArg Ecc.decodes (Dev.ecc_ite (Dev.bump_ecc _ _) rfl)) hfree
  clear_value counted
  refine Dev.readsOnly_congr (congrArg Ecc.decodes (Dev.ecc_ite ?_ rfl)) hcounted
  rw [Dev.set_ecc, Dev.set_ecc, Dev.set_ecc, Dev.set_ecc]

/-! ## Step 1 on the data set that holds the pin -/

/-- Step 1 has been tried on a data set of a retained slot (R162). -/
def Dev.retried (d : Dev) (x : Decode) (r : Retained) : Dev :=
  let e := d.redecode x r false
  if e.passesC2 x.handle then e.classify x 2 else e.modDecode x.handle fun y => { y with step := 1 }

theorem Dev.stepOn_congr (h : e.get F.eccLadderStepEn = d.get F.eccLadderStepEn) (k : Nat) : e.stepOn k = d.stepOn k := by
  rw [Dev.stepOn, Dev.stepOn, h]

theorem Dev.tryStep_retained {x : Decode} {r : Retained} (hretained : (d.chan.retained.find? fun y => y.slot == x.slot) = some r)
    (hstep : d.stepOn 2 = true) : d.tryStep x 1 = d.retried x r := by
  have hladder : (d.redecode x r false).get F.eccLadderStepEn = d.get F.eccLadderStepEn :=
    Dev.bench_get (fs := [F.eccLadderStepEn]) (d.bench_redecode x r false (by decide)) (List.mem_singleton_self _)
  have hnext : (d.redecode x r false).stepDone x 1 = (d.redecode x r false).modDecode x.handle fun y => { y with step := 1 } := by
    unfold Dev.stepDone
    extract_lets stepped
    refine if_pos (List.any_eq_true.mpr ⟨0, by decide, ?_⟩)
    exact (Dev.stepOn_congr hladder 2).trans hstep
  unfold Dev.tryStep
  rw [hretained]
  dsimp only
  rw [show (1 == 2) = false from rfl, hnext]
  rfl

theorem Dev.ladderStep_pinned {x : Decode} {r : Retained} (hstep : x.step = 0) (hpin : d.ecc.pin = some x.slot) (hreports : x.reports ≠ [])
    (hfew : (x.reports.countP fun r => !r.ok) ≤ d.get F.eccLadderRetryCw) (hon : d.stepOn 1 = true) (hnext : d.stepOn 2 = true)
    (hretained : (d.chan.retained.find? fun y => y.slot == x.slot) = some r) :
    d.ladderStep x = d.retried x r ∨ d.ladderStep x = (d.retried x r).unpin := by
  have hshort : (x.reports.isEmpty || decide (d.get F.eccLadderRetryCw < x.reports.countP fun r => !r.ok)) = false := by
    simp [hreports, hfew]
  unfold Dev.ladderStep
  extract_lets k failed
  have hk : k = 1 := by simp [k, hstep]
  clear_value k
  subst hk
  rw [if_neg (by simp [failed, hshort]), if_neg (by simp [hon]), hpin]
  simp only [beq_self_eq_true, if_true, Bool.not_true, Bool.false_eq_true, if_false]
  rw [Dev.tryStep_retained hretained hnext]
  split
  · exact .inr rfl
  · exact .inl rfl

/-- What trying step 1 leaves on the bench, and what LAST_FAIL shows of it. -/
theorem Dev.retried_spec (d : Dev) (x : Decode) (r : Retained) :
    (d.retried x r).bench [] = d.bench []
      ∧ (d.readsOnly → (d.retried x r).readsOnly)
      ∧ (if (d.redecode x r false).passesC2 x.handle then
          (d.retried x r).get F.eccLastFailClass = 2 ∧ (d.retried x r).get F.eccLastFailIndex = x.index % 64
            ∧ (d.retried x r).get F.eccLastFailGroup = x.group % 2 ^ 14 ∧ (d.retried x r).get F.eccLastFailSlot = x.slot % 2 ^ 20
        else (d.retried x r).word F.eccLastFailClass.addr = d.word F.eccLastFailClass.addr) := by
  have hbench := d.bench_redecode (fs := []) x r false (by decide)
  have hlast := d.bench_redecode (fs := [wordField F.eccLastFailClass.addr]) x r false (by decide)
  have hreads := fun hd : d.readsOnly => Dev.readsOnly_redecode x r false hd
  unfold Dev.retried
  generalize d.redecode x r false = e at *
  dsimp only
  split
  · exact ⟨(e.bench_classify x 2 (Fld.outside_nil _)).trans hbench, fun hd => Dev.readsOnly_classify x 2 (hreads hd), e.get_classify_lastFail x (Nat.le_refl 2)⟩
  · refine ⟨(e.bench_modDecode _ _).trans hbench, fun hd => Dev.readsOnly_modDecode _ (fun _ => rfl) (hreads hd), ?_⟩
    exact Dev.word_of_get (Dev.bench_get ((e.bench_modDecode _ _).trans hlast) (List.mem_singleton_self _))

theorem Dev.readsOnly_of_failing {x : Decode} (hdecodes : d.ecc.decodes = [x]) (hfailing : x.failing = true) : d.readsOnly := by
  simp only [Decode.failing, Decode.done, Bool.and_eq_true, Bool.not_eq_true'] at hfailing
  intro y hy
  rw [hdecodes, List.mem_singleton] at hy
  exact hy ▸ hfailing.1.1

/-- RE_DECODE tries the data set that holds the pin. -/
theorem Dev.reDecode_of_pinned {x : Decode} (hdecodes : d.ecc.decodes = [x]) (hfailing : x.failing = true) (hstep : x.step = 0)
    (hpin : d.ecc.pin = some x.slot) : d.reDecode = (d.ladderStep x).settleReads := by
  unfold Dev.reDecode
  simp [hdecodes, hfailing, hstep, hpin]

/-- Where no read waits, nothing of read mode is left in the decoder once reads are settled and credit has followed. -/
theorem Dev.ecc_settled (hreads : d.strm.reads = []) (hcalm : d.calm = true) (hread : d.readsOnly) :
    d.settleReads.hostSettle.ecc.pin = none ∧ d.settleReads.hostSettle.ecc.decodes = [] := by
  rw [Dev.settleReads_of_idle hreads]
  have htidycalm : d.tidyReads.calm = true := (Dev.bench_calm (Dev.bench_tidyReads (fs := []) d (by simp))).trans hcalm
  obtain ⟨-, -, -, hecc, -⟩ := Dev.hostOnly_fields (d.tidyReads.hostOnly_hostSettle htidycalm)
  obtain ⟨hgone, hfree⟩ := Dev.ecc_tidyReads hreads hread
  exact ⟨(congrArg Ecc.pin hecc).trans hfree, (congrArg Ecc.decodes hecc).trans hgone⟩

/-- The pin that may be given up after step 1 shows in RCH.RETAIN alone. -/
theorem Dev.ladderStep_bench {x : Decode} {r : Retained} (h : d.ladderStep x = d.retried x r ∨ d.ladderStep x = (d.retried x r).unpin)
    (hread : (d.retried x r).readsOnly) :
    (d.ladderStep x).readsOnly
      ∧ ∀ fs, (∀ f ∈ fs, f.addr ≠ F.rchRetainPinValid.addr) → (d.ladderStep x).bench fs = (d.retried x r).bench fs := by
  obtain h | h := h <;> rw [h]
  · exact ⟨hread, fun _ _ => rfl⟩
  · exact ⟨fun y hy => hread y hy, fun _ hfs => Dev.bench_unpin _ hfs⟩

theorem runs_reDecode_step1 {s : State} {x : Decode} {r : Retained} (hcalm : s.dev.calm = true) (hreads : s.dev.strm.reads = [])
    (hdecodes : s.dev.ecc.decodes = [x]) (hfailing : x.failing = true) (hstep : x.step = 0) (hpin : s.dev.ecc.pin = some x.slot)
    (hreports : x.reports ≠ []) (hfew : (x.reports.countP fun r => !r.ok) ≤ s.dev.get F.eccLadderRetryCw) (hon : s.dev.stepOn 1 = true)
    (hnext : s.dev.stepOn 2 = true) (hretained : (s.dev.chan.retained.find? fun y => y.slot == x.slot) = some r) :
    Runs .reDecode s fun t =>
      (if (s.dev.redecode x r false).passesC2 x.handle then
        t.dev.get F.eccLastFailClass = 2 ∧ t.dev.get F.eccLastFailIndex = x.index % 64
          ∧ t.dev.get F.eccLastFailGroup = x.group % 2 ^ 14 ∧ t.dev.get F.eccLastFailSlot = x.slot % 2 ^ 20
      else t.dev.word F.eccLastFailClass.addr = s.dev.word F.eccLastFailClass.addr)
      ∧ t.dev.ecc.pin = none ∧ t.dev.ecc.decodes = [] ∧ t.dev.plc = s.dev.plc ∧ t.dev.pos = s.dev.pos ∧ t.dev.tce = s.dev.tce := by
  obtain ⟨hbench, hkept, hshown⟩ := s.dev.retried_spec x r
  obtain ⟨hread, hsame⟩ := Dev.ladderStep_bench (Dev.ladderStep_pinned hstep hpin hreports hfew hon hnext hretained)
    (hkept (Dev.readsOnly_of_failing hdecodes hfailing))
  refine ⟨_, exec_reDecode s, ?_⟩
  rw [Dev.reDecode_of_pinned hdecodes hfailing hstep hpin]
  dsimp only
  generalize s.dev.ladderStep x = e at *
  have hbare := (hsame [] (by simp)).trans hbench
  have hereads : e.strm.reads = [] := (Dev.bench_reads hbare).trans hreads
  have hecalm : e.calm = true := (Dev.bench_calm hbare).trans hcalm
  obtain ⟨hfree, hgone⟩ := Dev.ecc_settled hereads hecalm hread
  have hsettled := fun fs hpin hsent => Dev.bench_settled (fs := fs) hereads hecalm hpin hsent
  have hall := (hsettled [] (by simp) (by simp)).trans hbare
  have hstands : ∀ f : Fld, f.addr = F.eccLastFailClass.addr → e.settleReads.hostSettle.get f = (s.dev.retried x r).get f := fun f hf => by
    have hpin : ∀ g ∈ [f], g.addr ≠ F.rchRetainPinValid.addr := by simp [hf]; decide
    have hsent : ∀ g ∈ [f], g.addr ≠ C.hptTxSeg := by simp [hf]; decide
    exact Dev.bench_get ((hsettled [f] hpin hsent).trans (hsame [f] hpin)) (List.mem_singleton_self _)
  refine ⟨?_, hfree, hgone, Dev.bench_plc hall, Dev.bench_pos hall, Dev.bench_tce hall⟩
  rw [hstands F.eccLastFailClass rfl, hstands F.eccLastFailIndex rfl, hstands F.eccLastFailGroup rfl, hstands F.eccLastFailSlot rfl,
    Dev.word_of_get (hstands (wordField F.eccLastFailClass.addr) rfl)]
  exact hshown

/-! ## Step 3 -/

theorem runs_c3ErasureDecode_step3 {s : State} {e : GroupEntry} (hcalm : s.dev.calm = true) (hreads : s.dev.strm.reads = [])
    (hgroup : s.dev.groupAt 2 = some e) (hon : s.dev.stepOn 3 = true) (hparity : e.noC3 = false) :
    Runs .c3ErasureDecode s fun t =>
      t.dev.word C.eccC3Decode = s.dev.word C.eccC3Decode + (if s.dev.ecc.c3Seen.contains (e.wrap, e.group) then 0 else 1)
        ∧ t.dev.plc = s.dev.plc ∧ t.dev.pos = s.dev.pos ∧ t.dev.tce = s.dev.tce ∧ t.dev.nor = s.dev.nor ∧ t.dev.feram = s.dev.feram := by
  have hstep : s.dev.c3Step = (((s.dev.c3Decode e 0).classPassed e 3).groupStep e 3).settleReads := by
    simp [Dev.c3Step, hgroup, hon, hparity]
  refine ⟨_, exec_c3ErasureDecode s, ?_⟩
  rw [hstep]
  have hdecoded := fun fs (hfs : Fld.outside fs decodeWords) => s.dev.bench_c3Decode e 0 hfs
  have hclassed := fun fs (hfs : Fld.outside fs classWords) =>
    (Dev.bench_groupStep _ e 3 hfs).trans ((s.dev.c3Decode e 0).bench_classPassed e 3 hfs)
  generalize ((s.dev.c3Decode e 0).classPassed e 3).groupStep e 3 = f at *
  have hcounted : (if s.dev.ecc.c3Seen.contains (e.wrap, e.group) then s.dev else s.dev.bump C.eccC3Decode).bench [] = s.dev.bench [] :=
    Dev.bench_ite rfl (Dev.bench_bump _ (by simp))
  have hbare : f.bench [] = s.dev.bench [] := (hclassed [] (Fld.outside_nil _)).trans ((hdecoded [] (Fld.outside_nil _)).trans hcounted)
  have hsettled := fun fs hpin hsent =>
    Dev.bench_settled (d := f) (fs := fs) ((Dev.bench_reads hbare).trans hreads) ((Dev.bench_calm hbare).trans hcalm) hpin hsent
  have hall := (hsettled [] (by simp) (by simp)).trans hbare
  refine ⟨?_, Dev.bench_plc hall, Dev.bench_pos hall, Dev.bench_tce hall, Dev.bench_nor hall, Dev.bench_feram hall⟩
  have hword := Dev.word_of_get (Dev.bench_get ((hsettled [wordField C.eccC3Decode] (by decide) (by decide)).trans
    ((hclassed _ (by decide)).trans (hdecoded _ (by decide)))) (List.mem_singleton_self _))
  rw [hword]
  split
  · simp
  · exact s.dev.word_bump_same _

end Sys2Proof.Machine
end

section
/-!
SUPPORT. A further read of a group on the bench (R112 to R116, R156, R162): all that its slots show lies in the registers of their channels.
-/
namespace Sys2Proof.Machine

variable {d e : Dev} {fs : List Fld}

/-! ## A slot passes -/

/-- What a slot that passes shows of a channel beside its gain (R116, R130). -/
def channelFields : List Fld :=
  [F.rchLivePhaseNow, F.rchLiveSyncMissSeen, F.rchLiveTimingLostSeen, F.rchLiveDefectSeen, F.rchEqTapCoef]

/-- Counters of the read channels, and the slots retained. -/
def channelWords : List Nat := [C.rchSyncMiss, C.rchTimingLost, C.rchDefect, C.rchClip, C.rchModInvalid, F.rchRetainLatestSlot.addr]

/-- Fields that no slot writes, whatever its channels are called, unless it is their gain. -/
def offChannels (fs : List Fld) : Prop := Fld.outside fs channelWords ∧ ∀ g ∈ fs, ∀ x ∈ channelFields, g.addr < x.addr ∨ x.apart g = true

/-- The gain that a channel's slot ends with, shown, leaves the bench alone. -/
def Dev.gainStands (fs : List Fld) (d : Dev) (slot : Nat) (rev : Bool) (t : TrackSignal) : Prop :=
  ∀ e : Dev, e.bench fs = d.bench fs → (e.set (F.rchLiveVgaNow.ix t.channel) (d.sampleSlot slot rev t).2.gain).bench fs = e.bench fs

theorem Dev.bench_set_apart (d : Dev) {f : Fld} (v : Nat) (h : ∀ g ∈ fs, (g.addr != f.addr || f.apart g) = true) :
    (d.set f v).bench fs = d.bench fs := by
  have hshown : fs.map (d.set f v).get = fs.map d.get := List.map_congr_left fun g hg => d.get_set_other f g v (h g hg)
  rw [Dev.bench, hshown]
  rfl

theorem Dev.bench_setChannel (d : Dev) (hoff : offChannels fs) {x : Fld} (hx : x ∈ channelFields) (k v : Nat) :
    (d.set (x.ix k) v).bench fs = d.bench fs := by
  refine d.bench_set_apart v fun g hg => ?_
  obtain hbelow | hapart := hoff.2 g hg x hx
  · have hne : g.addr ≠ (x.ix k).addr := by
      simp only [Fld.ix]
      omega
    simp [hne]
  · have hix : (x.ix k).apart g = true := hapart
    simp [hix]

/-- On the bench a channel's slot shows its gain alone. -/
theorem Dev.bench_channelPassed (d : Dev) (t : TrackRead) (f : Front) (r : ReadSet) (v : SegView) (slot : Nat) (rev : Bool) (hoff : offChannels fs)
    {b : Bench} (hgain : ∀ e : Dev, e.bench fs = d.bench fs → (e.set (F.rchLiveVgaNow.ix t.channel) f.gain).bench fs = b) :
    (d.channelPassed t f r v slot rev).bench fs = b := by
  have hother : ∀ x ∈ channelWords, ∀ f ∈ fs, f.addr ≠ x := fun x hx f hf => (ne_of_mem_of_not_mem hx (hoff.1 f hf)).symm
  unfold Dev.channelPassed
  extract_lets n phase shown synced timed opened holed clipped_ judged g scans loops _ kept
  have hshown : shown.bench fs = b := hgain _ (d.bench_setChannel hoff (by decide) _ _)
  subst hshown
  clear_value shown
  have hsynced : synced.bench fs = shown.bench fs :=
    Dev.bench_ite ((Dev.bench_bump _ (hother _ (by decide))).trans (Dev.bench_setChannel _ hoff (by decide) _ _)) rfl
  clear_value synced
  have htimed : timed.bench fs = shown.bench fs :=
    Dev.bench_ite ((Dev.bench_bump _ (hother _ (by decide))).trans ((Dev.bench_setChannel _ hoff (by decide) _ _).trans hsynced)) hsynced
  clear_value timed
  have hholed : holed.bench fs = shown.bench fs :=
    Dev.bench_ite htimed ((Dev.bench_bumpBy _ _ (hother _ (by decide))).trans ((Dev.bench_setChannel _ hoff (by decide) _ _).trans htimed))
  clear_value holed
  have hjudged : judged.bench fs = shown.bench fs :=
    (Dev.bench_bumpBy _ _ (hother _ (by decide))).trans ((Dev.bench_bumpBy _ _ (hother _ (by decide))).trans hholed)
  clear_value judged
  have hkept : kept.bench fs = shown.bench fs := (Dev.bench_chan judged _).trans hjudged
  clear_value kept
  exact Dev.bench_ite ((Dev.bench_foldl (fun _ _ e => e.bench_setChannel hoff (by decide) _ _) _).trans hkept) hkept

theorem Dev.bench_slotPassed (d : Dev) (slot : Nat) (rev : Bool) (reads : List TrackSignal) (hoff : offChannels fs)
    (hgain : ∀ t ∈ reads, d.gainStands fs slot rev t) : (d.slotPassed slot rev reads).2.bench fs = d.bench fs := by
  rw [Dev.slotPassed_snd, Dev.shows]
  have hpassed : ∀ ps : List Passed, (∀ p ∈ ps, ∃ t ∈ reads, p = d.channelSees slot rev t) →
      (ps.foldl (fun (e : Dev) p => e.channelPassed p.read p.front p.set p.view slot rev) d).bench fs = d.bench fs := fun ps hps =>
    List.foldlRecOn (motive := fun e : Dev => e.bench fs = d.bench fs) ps _ rfl fun e he p hp => by
      obtain ⟨t, ht, rfl⟩ := hps p hp
      refine e.bench_channelPassed _ _ _ _ _ _ hoff fun f hf => ?_
      rw [Dev.read_channelSees, Dev.channel_sampleSlot]
      exact (hgain t ht f (hf.trans he)).trans (hf.trans he)
  refine (Dev.bench_set _ _ fun f hf => (ne_of_mem_of_not_mem (by decide) (hoff.1 f hf)).symm).trans
    ((Dev.bench_chan _ _).trans (hpassed _ fun p hp => ?_))
  obtain ⟨t, ht, rfl⟩ := List.mem_map.mp hp
  exact ⟨t, (List.mem_filter.mp ht).1, rfl⟩

/-! ## A slot is read again -/

/-- What a further read writes beside its channels. -/
def rereadWords : List Nat := decodeWords ++ classWords ++ [C.eccC3Decode, (F.bpmPoolStatusEmptySeen.ix 3).addr, C.bpmEmpty + 3]

theorem Dev.bench_allocate3 (d : Dev) (owner port : Nat) (h : Fld.outside fs rereadWords) : (d.allocate 3 owner port).2.bench fs = d.bench fs := by
  have hother : ∀ x ∈ rereadWords, ∀ f ∈ fs, f.addr ≠ x := fun x hx f hf => (ne_of_mem_of_not_mem hx (h f hf)).symm
  unfold Dev.allocate
  split
  · rfl
  split
  · rfl
  extract_lets barred
  split
  · exact (Dev.bench_bump _ (hother _ (by decide))).trans ((Dev.bench_set _ _ (hother _ (by decide))).trans (Dev.bench_pools _ _))
  · exact Dev.bench_pools _ _

/-- Beside the slot that passes a further read changes decodes and buffers alone. -/
theorem Dev.bench_readAgain (d : Dev) (wrap group g h : Nat) (reads : List TrackSignal) :
    (d.readAgain wrap group g h reads).bench fs = (d.slotPassed g (wrapReverse wrap) reads).2.bench fs := by
  unfold Dev.readAgain
  generalize d.slotPassed g (wrapReverse wrap) reads = p
  obtain ⟨vs, passed⟩ := p
  dsimp -zeta only
  extract_lets _ x cfg decoded
  have hdecoded : decoded.bench fs = passed.bench fs := (Dev.bench_foldl (fun v _ e => Dev.bench_foldl (fun c _ f => by
    dsimp only
    rw [Dev.bench_modDecode]
    split
    · exact Dev.bench_putDdr _ _ _
    · rfl) e) _).trans (Dev.bench_addDecode _ _)
  clear_value decoded
  rw [Dev.bench_modDecode, hdecoded]

theorem Dev.bench_rereadSlot (d : Dev) (e : GroupEntry) (g : Nat) (reads : List TrackSignal) (hfs : Fld.outside fs rereadWords)
    (hoff : offChannels fs) (hgain : ∀ t ∈ reads, ∀ d : Dev, d.gainStands fs g (wrapReverse e.wrap) t) :
    (d.rereadSlot e g reads).bench fs = d.bench fs := by
  have hdecode : Fld.outside fs decodeWords := fun f hf hm => hfs f hf (by simp [rereadWords, hm])
  obtain ⟨decodeIn, hd⟩ : ∃ f, Dev.decodeIn = f := ⟨_, rfl⟩
  unfold Dev.rereadSlot
  rw [hd]
  have halloc := d.bench_allocate3 ownVerify ownVerify hfs
  split
  next f hf => rwa [hf] at halloc
  next h f hf =>
  rw [hf] at halloc
  extract_lets again
  have hagain : again.bench fs = d.bench fs := (f.bench_readAgain _ _ _ _ _).trans ((f.bench_slotPassed _ _ _ hoff fun t ht => hgain t ht f).trans halloc)
  clear_value again
  split
  · exact hagain
  split
  · exact (Dev.bench_dropDecode _ _).trans hagain
  extract_lets run
  have hrun : run.bench fs = d.bench fs := (Dev.bench_runC2 _ _ _ hdecode).trans hagain
  clear_value run
  split
  · exact (Dev.bench_mergeRead _ _ _ hdecode).trans hrun
  · exact (Dev.bench_dropDecode _ _).trans hrun

theorem Dev.bench_mergeReads (d : Dev) (e : GroupEntry) (reads : List (Nat × List TrackSignal)) (hfs : Fld.outside fs rereadWords)
    (hoff : offChannels fs) (hgain : ∀ r ∈ reads, ∀ t ∈ r.2, ∀ d : Dev, d.gainStands fs r.1 (wrapReverse e.wrap) t) :
    (d.mergeReads e reads).bench fs = d.bench fs := by
  have hdecode : Fld.outside fs decodeWords := fun f hf hm => hfs f hf (by simp [rereadWords, hm])
  have hclass : Fld.outside fs classWords := fun f hf hm => hfs f hf (by simp [rereadWords, hm])
  unfold Dev.mergeReads
  extract_lets merged
  have hmerged : merged.bench fs = d.bench fs :=
    (Dev.bench_classPassed _ _ _ hclass).trans (Dev.bench_foldl (fun r hr f => f.bench_rereadSlot e r.1 r.2 hfs hoff (hgain r hr)) d)
  clear_value merged
  refine Dev.bench_ite hmerged ((Dev.bench_classPassed _ _ _ hclass).trans ((Dev.bench_c3Decode _ _ _ hdecode).trans ?_))
  exact Dev.bench_ite hmerged ((Dev.bench_bump _ fun f hf => (ne_of_mem_of_not_mem (by decide) (hfs f hf)).symm).trans hmerged)

end Sys2Proof.Machine
end

section
/-!
SUPPORT. A re-read at step 4 of the ladder (R162), and what the last clause of `Obligations.LadderStepsTaken` comes to: that no re-read
lowers the count that ECC.LADDER allows to the one that it makes.
-/
namespace Sys2Proof.Machine

variable {d : Dev} {e : GroupEntry} {reads : List (Nat × List TrackSignal)} {fs : List Fld}

theorem Dev.bench_tpos {a b : Dev} (h : b.bench fs = a.bench fs) (hf : F.posTposTpos ∈ fs) : b.tpos = a.tpos := by
  rw [Dev.tpos, Dev.tpos, Dev.bench_get h hf]

/-- The tape runs from behind the group's span, as a re-read finds it (R162; log 23). -/
def Dev.atSpan (d : Dev) (e : GroupEntry) : Dev :=
  d.runAt (wrapReverse e.wrap) (d.clampSpeed (d.get F.plcStatusSpeedTgt))
    (readStart (wrapReverse e.wrap) (slotAfter (wrapReverse e.wrap) (d.spanEnd e) 1))

/-- A locate moves position and transport alone, and shows it in POS and in the count of targets. -/
theorem Dev.runAt_eq (d : Dev) (rev : Bool) (speed : Nat) (tpos : Int) :
    ∃ pos tce regs out, d.runAt rev speed tpos = { d with pos := pos, tce := tce, regs := regs, out := out } := by
  have hgate : ∀ e : Dev, ∃ regs out, e.closeGate = { e with regs := regs, out := out } := fun e => by
    unfold Dev.closeGate
    split
    · exact ⟨_, _, rfl⟩
    · exact ⟨_, _, rfl⟩
  unfold Dev.runAt
  extract_lets v _ moved closed located
  obtain ⟨regs, out, hclosed⟩ : ∃ regs out, closed = { moved with regs := regs, out := out } := hgate moved
  clear_value closed
  subst hclosed
  exact ⟨_, _, _, _, rfl⟩

theorem Dev.get_runAt (d : Dev) (rev : Bool) (speed : Nat) (tpos : Int) {f : Fld}
    (hf : f.addr ∉ [F.posStatusMode.addr, F.posTposTpos.addr, C.tcePgTarget]) : (d.runAt rev speed tpos).get f = d.get f := by
  have hother : ∀ x ∈ [F.posStatusMode.addr, F.posTposTpos.addr, C.tcePgTarget], f.addr ≠ x := fun x hx => (ne_of_mem_of_not_mem hx hf).symm
  have hgate : ∀ e : Dev, e.closeGate.get f = e.get f := fun e => by
    unfold Dev.closeGate
    split
    · exact e.get_set_addr F.posStatusWriteGate f 0 (hother F.posStatusMode.addr (by decide))
    · rfl
  unfold Dev.runAt Dev.goMode Dev.setTpos
  rw [Dev.get_bump _ (hother _ (by decide)), Dev.get_set_addr _ F.posTposTpos f _ (hother _ (by decide)),
    Dev.get_set_addr _ F.posStatusDir f _ (hother F.posStatusMode.addr (by decide)),
    Dev.get_set_addr _ F.posStatusUncertain f _ (hother F.posStatusMode.addr (by decide)),
    Dev.get_set_addr _ F.posStatusMode f _ (hother _ (by decide)), Dev.get_pos, Dev.get_pos, hgate, Dev.get_tce]

/-- The group has been read again. -/
def Dev.reread (d : Dev) (e : GroupEntry) (reads : List (Nat × List TrackSignal)) : Dev := (d.atSpan e).mergeReads e reads

/-- No slot writes TPOS. -/
theorem tpos_offChannels : offChannels [F.posTposTpos] := ⟨by decide, by decide⟩

theorem Dev.gainStands_tpos (d : Dev) (slot : Nat) (rev : Bool) (t : TrackSignal) : d.gainStands [F.posTposTpos] slot rev t := fun f _ =>
  f.bench_set _ (by simp [Fld.ix, F.posTposTpos, F.rchLiveVgaNow]; omega)

theorem Dev.bench_reread (d : Dev) (e : GroupEntry) (reads : List (Nat × List TrackSignal)) :
    (d.reread e reads).bench [F.posTposTpos] = (d.atSpan e).bench [F.posTposTpos] :=
  Dev.bench_mergeReads _ _ _ (by decide) tpos_offChannels fun _ _ t _ f => f.gainStands_tpos _ _ t

/-- A re-read counted (R162, R163). -/
def Dev.countReread (d : Dev) (e : GroupEntry) : Dev :=
  { d with ecc := { d.ecc with rereads := d.ecc.rereads + 1, held := some (e.wrap, e.group) } }

/-- The re-reads of a group are over (R162). -/
def Dev.forgetRereads (d : Dev) : Dev := { d with ecc := { d.ecc with rereads := 0 } }

theorem Dev.groupReread_step4 (hmove : d.mayMove = true) (hgroup : d.groupAt 3 = some e) (hon : d.stepOn 4 = true)
    (hallowed : d.get F.eccLadderRereads ≠ 0) (hfails : (d.reread e reads).unsettled e = true) :
    d.groupReread reads =
      if (d.reread e reads).get F.eccLadderRereads ≤ (d.reread e reads).ecc.rereads + 1 then
        ((((d.reread e reads).countReread e).forgetRereads).groupStep e 4).settleReads
      else ((d.reread e reads).countReread e).settleReads := by
  have hstill : ((d.reread e reads).countReread e).unsettled e = true := hfails
  unfold Dev.groupReread
  extract_lets forget done once
  rw [hmove, hgroup]
  simp only [Bool.not_true, Bool.false_eq_true, if_false, hon, hallowed, Bool.false_or, decide_false]
  have honce : once d e (d.clampSpeed (d.get F.plcStatusSpeedTgt)) = (d.reread e reads).countReread e := rfl
  rw [honce, hstill]
  rfl

/-- What a re-read keeps of the device as it stood. -/
theorem Dev.reread_keeps (d : Dev) (e : GroupEntry) (reads : List (Nat × List TrackSignal)) :
    (d.reread e reads).plc = d.plc ∧ (d.reread e reads).nor = d.nor ∧ (d.reread e reads).feram = d.feram
      ∧ (d.reread e reads).strm.reads = d.strm.reads ∧ (d.reread e reads).calm = d.calm ∧ (d.reread e reads).ecc.rereads = d.ecc.rereads := by
  have hbench := d.bench_reread e reads
  generalize d.reread e reads = f at *
  obtain ⟨pos, tce, regs, out, hthere⟩ := d.runAt_eq (wrapReverse e.wrap) (d.clampSpeed (d.get F.plcStatusSpeedTgt))
    (readStart (wrapReverse e.wrap) (slotAfter (wrapReverse e.wrap) (d.spanEnd e) 1))
  have hspan : d.atSpan e = { d with pos := pos, tce := tce, regs := regs, out := out } := hthere
  rw [hspan] at hbench
  exact ⟨(Dev.bench_plc hbench :), (Dev.bench_nor hbench :), (Dev.bench_feram hbench :), (Dev.bench_reads hbench :), (Dev.bench_calm hbench :),
    (Dev.bench_rereads hbench :)⟩

/-- What the last clause of `Obligations.LadderStepsTaken` supposes. -/
structure State.rereads (s : State) (e : GroupEntry) (reads : List (Nat × List TrackSignal)) : Prop where
  calm : s.dev.calm = true
  idle : s.dev.strm.reads = []
  moves : s.dev.mayMove = true
  group : s.dev.groupAt 3 = some e
  on : s.dev.stepOn 4 = true
  fails : (s.dev.reread e reads).unsettled e = true
  allowed : s.dev.ecc.rereads + 1 < s.dev.get F.eccLadderRereads

theorem State.rereads.groupReread {s : State} (h : s.rereads e reads) :
    s.dev.groupReread reads =
      if (s.dev.reread e reads).get F.eccLadderRereads ≤ s.dev.ecc.rereads + 1 then
        ((((s.dev.reread e reads).countReread e).forgetRereads).groupStep e 4).settleReads
      else ((s.dev.reread e reads).countReread e).settleReads := by
  obtain ⟨-, -, hmove, hgroup, hon, hfails, hallowed⟩ := h
  rw [Dev.groupReread_step4 hmove hgroup hon (by omega) hfails, (s.dev.reread_keeps e reads).2.2.2.2.2]

/-- A re-read that leaves its count allowed is counted, and the tape goes on from behind the span. -/
theorem State.rereads.counted {s : State} (h : s.rereads e reads) (hstands : s.dev.ecc.rereads + 1 < (s.dev.reread e reads).get F.eccLadderRereads) :
    Runs (.groupReread reads) s fun t => t.dev.ecc.rereads = s.dev.ecc.rereads + 1 ∧ t.dev.tpos = (s.dev.atSpan e).tpos
      ∧ t.dev.tce = (s.dev.atSpan e).tce ∧ t.dev.plc = s.dev.plc ∧ t.dev.nor = s.dev.nor ∧ t.dev.feram = s.dev.feram := by
  refine ⟨_, exec_groupReread reads s, ?_⟩
  rw [h.groupReread, if_neg (Nat.not_le.mpr hstands)]
  have hbench := s.dev.bench_reread e reads
  obtain ⟨hplc, hnor, hferam, hreads, hcalm, hcount⟩ := s.dev.reread_keeps e reads
  generalize s.dev.reread e reads = f at *
  have hsettled := Dev.bench_settled (d := f.countReread e) (fs := [F.posTposTpos]) (hreads.trans h.idle) (hcalm.trans h.calm) (by decide) (by decide)
  dsimp only
  generalize (f.countReread e).settleReads.hostSettle = t at *
  exact ⟨(Dev.bench_rereads hsettled).trans (congrArg (· + 1) hcount),
    (Dev.bench_tpos hsettled (List.mem_singleton_self _)).trans (Dev.bench_tpos hbench (List.mem_singleton_self _) :),
    (Dev.bench_tce hsettled).trans (Dev.bench_tce hbench :), (Dev.bench_plc hsettled).trans hplc, (Dev.bench_nor hsettled).trans hnor,
    (Dev.bench_feram hsettled).trans hferam⟩

/-- A step noted for a group leaves the count of its re-reads. -/
theorem Dev.rereads_groupStep (hreads : d.strm.reads = []) (hcalm : d.calm = true) (k : Nat) :
    (d.groupStep e k).settleReads.hostSettle.ecc.rereads = d.ecc.rereads := by
  have hstep := d.bench_groupStep (fs := []) e k (Fld.outside_nil _)
  have hsettled := Dev.bench_settled (fs := []) ((Dev.bench_reads hstep).trans hreads) ((Dev.bench_calm hstep).trans hcalm) (by simp) (by simp)
  exact Dev.bench_rereads (hsettled.trans hstep)

/-- A re-read that lowers what is allowed to its own count is the last, and none is counted any more. -/
theorem State.rereads.forgotten {s t : State} (h : s.rereads e reads) (hlast : (s.dev.reread e reads).get F.eccLadderRereads ≤ s.dev.ecc.rereads + 1)
    (hexec : exec (.groupReread reads) s = .next t) : t.dev.ecc.rereads = 0 := by
  have hnone : ∀ f : Dev, f.strm.reads = [] → f.calm = true →
      (((f.countReread e).forgetRereads.groupStep e 4).settleReads.hostSettle).ecc.rereads = 0 := fun f hreads hcalm =>
    Dev.rereads_groupStep (d := (f.countReread e).forgetRereads) hreads hcalm 4
  obtain ⟨-, -, -, hreads, hcalm, -⟩ := s.dev.reread_keeps e reads
  have hreread := h.groupReread.trans (if_pos hlast)
  obtain rfl := Host.Outcome.next.inj ((exec_groupReread reads s).symm.trans hexec)
  dsimp only
  rw [hreread]
  exact hnone _ (hreads.trans h.idle) (hcalm.trans h.calm)

/-- No re-read lowers the count that ECC.LADDER allows to its own. -/
def RereadsStayAllowed : Prop :=
  ∀ (s : State) (e : GroupEntry) (reads : List (Nat × List TrackSignal)), s.rereads e reads →
    s.dev.ecc.rereads + 1 < (s.dev.reread e reads).get F.eccLadderRereads

/-- The steps are taken as stated exactly where re-reads leave ECC.LADDER alone: the clauses on steps 1 and 3 hold. -/
theorem ladderStepsTaken_iff : Obligations.LadderStepsTaken ↔ RereadsStayAllowed := by
  unfold Obligations.LadderStepsTaken
  constructor
  · intro h s e reads hs
    by_contra hlast
    obtain ⟨-, -, hreread⟩ := h s (newDecode 0 0 0 false 0 []) ⟨0, [], []⟩ e reads hs.calm hs.idle
    obtain ⟨t, hexec, hcount, -⟩ := hreread hs.moves hs.group hs.on hs.fails hs.allowed
    have hnone := hs.forgotten (Nat.not_lt.mp hlast) hexec
    omega
  · intro h s x r e reads hcalm hreads
    refine ⟨fun hdecodes hfailing hstep hpin hreports hfew hon hnext hretained _ =>
        runs_reDecode_step1 hcalm hreads hdecodes hfailing hstep hpin hreports hfew hon hnext hretained,
      fun hgroup hon hparity => runs_c3ErasureDecode_step3 hcalm hreads hgroup hon hparity, ?_⟩
    intro rev there hmove hgroup hon hfails hallowed
    have hs : s.rereads e reads := ⟨hcalm, hreads, hmove, hgroup, hon, hfails, hallowed⟩
    exact hs.counted (h s e reads hs)

end Sys2Proof.Machine
end

section
/-!
SUPPORT. Where the count of re-reads that ECC.LADDER allows stands (R112, R130, R162): re-reads of the 256 channels that there are, and
re-reads of any channels through a front end that clips.
-/
namespace Sys2Proof.Machine

variable {d : Dev} {e : GroupEntry} {reads : List (Nat × List TrackSignal)}

/-- The number n for which RCH.LIVE[n] of R130, were the array that long, would lie at the address of ECC.LADDER. -/
def ladderChannel : Nat := 0xFE02

/-- The gain that such a channel would show there. Its lowest four bits are ECC.LADDER.REREADS. -/
def ladderGain : Fld := F.rchLiveVgaNow.ix ladderChannel

theorem Dev.rereads_eq_ladderGain (d : Dev) : d.get F.eccLadderRereads = d.get ladderGain % 16 := by
  have haddr : ladderGain.addr = F.eccLadderRereads.addr := by decide
  rw [Dev.get, Dev.get, haddr]
  exact (Nat.mod_mod_of_dvd _ (by decide : 2 ^ 4 ∣ 2 ^ 8)).symm

theorem ladderGain_offChannels : offChannels [ladderGain] := ⟨by decide, by decide⟩

/-- A re-read leaves the count allowed where no channel's gain moves it. -/
theorem Dev.rereads_reread (hgain : ∀ r ∈ reads, ∀ t ∈ r.2, ∀ d : Dev, d.gainStands [ladderGain] r.1 (wrapReverse e.wrap) t) :
    (d.reread e reads).get F.eccLadderRereads = d.get F.eccLadderRereads := by
  have hreread : (d.reread e reads).get ladderGain = (d.atSpan e).get ladderGain :=
    Dev.bench_get (Dev.bench_mergeReads _ e reads (by decide) ladderGain_offChannels hgain) (List.mem_singleton_self _)
  have hspan : (d.atSpan e).get F.eccLadderRereads = d.get F.eccLadderRereads := Dev.get_runAt _ _ _ _ (by decide)
  rw [Dev.rereads_eq_ladderGain, hreread, ← Dev.rereads_eq_ladderGain, hspan]

theorem Dev.gainStands_other (d : Dev) (slot : Nat) (rev : Bool) {t : TrackSignal} (h : t.channel ≠ ladderChannel) :
    d.gainStands [ladderGain] slot rev t := fun f _ => by
  refine f.bench_set _ fun g hg => ?_
  rw [List.mem_singleton.mp hg]
  simp only [ladderGain, Fld.ix]
  omega

/-- Step 4's clause for re-reads of the channels that there are. -/
theorem State.rereads.allowed_of_channels {s : State} (h : s.rereads e reads) (hchannels : ∀ r ∈ reads, ∀ t ∈ r.2, t.channel < 256) :
    s.dev.ecc.rereads + 1 < (s.dev.reread e reads).get F.eccLadderRereads := by
  rw [Dev.rereads_reread fun r hr t ht f => f.gainStands_other _ _ fun heq => by
    have := hchannels r hr t ht
    rw [heq, ladderChannel] at this
    omega]
  exact h.allowed

/-! ## A detector on clipped samples (R121) -/

variable {c : DefectCfg} {s : DefectScan}

theorem DefectScan.last_next (c : DefectCfg) (s : DefectScan) (x : Int × Nat × Bool) : (s.next c x).1.last = (x.2 :: s.last).take 16 := by
  unfold DefectScan.next
  extract_lets last low below clips bad
  cases s.opened with
  | some o => dsimp only; split <;> rfl
  | none => dsimp only; split <;> rfl

/-- A span is open, and for at most `n` bits it has met no defect. -/
def DefectScan.openFor (s : DefectScan) (n : Nat) : Prop := s.opened.isSome = true ∧ s.quiet ≤ n

/-- Enough clipped bits among the last 16 open a span, or keep it open. -/
theorem DefectScan.openFor_next_of_clips {x : Int × Nat × Bool} (h : c.clipCount ≤ ((s.next c x).1.last.filter Prod.snd).length) :
    (s.next c x).1.openFor 0 := by
  rw [DefectScan.last_next] at h
  unfold DefectScan.next DefectScan.openFor
  extract_lets last low below clips bad
  have hclips : clips = true := decide_eq_true h
  have hbad : bad = true := Bool.or_eq_true_iff.mpr (.inr hclips)
  clear_value bad
  subst hbad
  cases s.opened with
  | some o => exact ⟨rfl, Nat.le_refl 0⟩
  | none => exact ⟨rfl, Nat.le_refl 0⟩

/-- A span closes after 16 bits at the earliest. -/
theorem DefectScan.openFor_next {n : Nat} (h : s.openFor n) (hn : n < 15) (x : Int × Nat × Bool) : (s.next c x).1.openFor (n + 1) := by
  obtain ⟨hopen, hquiet⟩ := h
  obtain ⟨o, ho⟩ := Option.isSome_iff_exists.mp hopen
  unfold DefectScan.next DefectScan.openFor
  extract_lets last low below clips bad
  rw [ho]
  dsimp only
  have hnext : (if bad then 0 else s.quiet + 1) ≤ n + 1 := by split <;> omega
  rw [if_neg (by omega)]
  exact ⟨rfl, hnext⟩

theorem defectRun_append (c : DefectCfg) : ∀ (xs ys : List (Int × Nat × Bool)) (s : DefectScan),
    (defectRun c s (xs ++ ys)).2 = (defectRun c (defectRun c s xs).2 ys).2
  | [], _, _ => rfl
  | x :: xs, ys, s => defectRun_append c xs ys (s.next c x).1

/-- The last `n` bits were clipped. -/
def DefectScan.clippedFor (s : DefectScan) (n : Nat) : Prop := n ≤ s.last.length ∧ ∀ y ∈ s.last.take n, y.2 = true

theorem DefectScan.clippedFor_next {n : Nat} (h : s.clippedFor n) {x : Int × Nat × Bool} (hx : x.2.2 = true) :
    (s.next c x).1.clippedFor (min (n + 1) 16) := by
  obtain ⟨hlen, hlast⟩ := h
  rw [DefectScan.clippedFor, DefectScan.last_next]
  refine ⟨by simp; omega, fun y hy => ?_⟩
  have hmem : y ∈ (x.2 :: s.last).take (n + 1) := by
    rw [List.take_take, Nat.min_eq_left (Nat.min_le_right _ _)] at hy
    exact (List.take_sublist_take_left (Nat.min_le_left _ _)).subset hy
  rw [List.take_succ_cons] at hmem
  obtain rfl | hmem := List.mem_cons.mp hmem
  · exact hx
  · exact hlast y hmem

theorem DefectScan.le_clips {n : Nat} (h : s.clippedFor n) : n ≤ (s.last.filter Prod.snd).length := by
  obtain ⟨hlen, hlast⟩ := h
  calc n = (s.last.take n).length := (List.length_take_of_le hlen).symm
    _ = ((s.last.take n).filter Prod.snd).length := by rw [List.filter_eq_self.mpr hlast]
    _ ≤ (s.last.filter Prod.snd).length := ((List.take_sublist n s.last).filter _).length_le

/-- Fifteen clipped bits one after another open a span under any threshold that RCH.DEFECT can hold (R128). -/
theorem defectRun_of_clipped (hclip : c.clipCount ≤ 15) : ∀ (xs : List (Int × Nat × Bool)) (s : DefectScan) (n : Nat), xs ≠ [] →
    15 ≤ n + xs.length → (∀ x ∈ xs, x.2.2 = true) → s.clippedFor (min n 16) → (defectRun c s xs).2.openFor 0
  | [], _, _, hne, _, _, _ => absurd rfl hne
  | x :: xs, s, n, _, hlen, hxs, hs => by
    have hnext : (s.next c x).1.clippedFor (min (n + 1) 16) := by
      have h := DefectScan.clippedFor_next (c := c) hs (hxs x List.mem_cons_self)
      rwa [show min (min n 16 + 1) 16 = min (n + 1) 16 by omega] at h
    change (defectRun c (s.next c x).1 xs).2.openFor 0
    by_cases hlast : xs = []
    · subst hlast
      have hclips := DefectScan.le_clips hnext
      rw [List.length_singleton] at hlen
      exact DefectScan.openFor_next_of_clips (by omega)
    · rw [List.length_cons] at hlen
      exact defectRun_of_clipped hclip xs _ (n + 1) hlast (by omega) (fun y hy => hxs y (List.mem_cons_of_mem x hy)) hnext

theorem DefectScan.openFor_run : ∀ (xs : List (Int × Nat × Bool)) (s : DefectScan) (n : Nat), s.openFor n → n + xs.length ≤ 15 →
    (defectRun c s xs).2.openFor (n + xs.length)
  | [], _, _, h, _ => h
  | x :: xs, s, n, h, hn => by
    rw [List.length_cons] at hn ⊢
    have hrun := DefectScan.openFor_run xs _ (n + 1) (DefectScan.openFor_next (c := c) h (by omega) x) (by omega)
    rwa [show n + (xs.length + 1) = n + 1 + xs.length by omega]

/-! ## A front end that clips (R112) -/

/-- Every sample is clipped. -/
def frontEndClips : Prop := ∀ (z boost gain : Nat) (signal : List Int) (p : Int), 63 ≤ Config.frontEnd z boost gain signal p

/-- In a block of clipped samples a span is open at the end, whichever main tap the equaliser has (R116). -/
theorem defectRun_block (hclip : c.clipCount ≤ 15) (s : DefectScan) {xs : List (Int × Nat × Bool)} (hlen : xs.length = 32)
    (hxs : ∀ i (hi : i < xs.length), 9 ≤ i → i < 26 → xs[i].2.2 = true) : (defectRun c s xs).2.opened.isSome = true := by
  have hcut : xs = xs.take 9 ++ ((xs.drop 9).take 17 ++ xs.drop 26) := by
    rw [show xs.drop 26 = (xs.drop 9).drop 17 by rw [List.drop_drop], List.take_append_drop, List.take_append_drop]
  rw [hcut, defectRun_append, defectRun_append]
  have hmiddle : ∀ x ∈ (xs.drop 9).take 17, x.2.2 = true := fun x hx => by
    obtain ⟨i, hi, rfl⟩ := List.getElem_of_mem hx
    rw [List.getElem_take, List.getElem_drop]
    rw [List.length_take, List.length_drop] at hi
    exact hxs _ _ (by omega) (by omega)
  have hmid : ((xs.drop 9).take 17).length = 17 := by simp [hlen]
  have hopen := defectRun_of_clipped hclip _ (defectRun c s (xs.take 9)).2 0 (List.ne_nil_of_length_pos (by omega)) (by omega) hmiddle
    ⟨Nat.zero_le _, by simp⟩
  exact (DefectScan.openFor_run (c := c) (xs.drop 26) _ 0 hopen (by simp [hlen])).1

end Sys2Proof.Machine
end

section
/-!
SUPPORT. Through a front end that clips no channel's gain moves (R112 to R116), and the ladder's steps are taken as `Obligations.LadderStepsTaken` says.
-/
namespace Sys2Proof.Machine

variable {e : GroupEntry} {reads : List (Nat × List TrackSignal)}

theorem length_firRun (taps : List Int) : ∀ (n : Nat) (xs : List Int), (firRun taps n xs).length = n
  | 0, _ => rfl
  | n + 1, xs => congrArg (· + 1) (length_firRun taps n xs.tail)

/-- What a front end that clips keeps: its gain, with nothing summed of the eyelet. -/
def Front.idle (f : Front) (gain : Nat) : Prop := f.gain = gain ∧ f.mag = (0, 0) ∧ f.recent.length = 9

theorem Front.idle_block (hclips : frontEndClips) {c : FrontCfg} (hclip : c.defect.clipCount ≤ 15) (hmain : c.set.main ≤ 15) (signal : List Int)
    {f : Front} {gain : Nat} (h : f.idle gain) (p : Int) : (f.block c signal p).idle gain := by
  obtain ⟨hgain, hmag, hrecent⟩ := h
  unfold Front.block
  extract_lets xs all ys scan used use loop gone mag f'
  have hxs : ∀ i (hi : i < xs.length), xs[i] = 63 := fun i hi => by
    have hsample := hclips c.zero c.boost f.gain signal (64 * (p + (i : Nat)) + c.base + f.loop.1)
    simp only [xs, List.getElem_map, List.getElem_range, satInt]
    omega
  have hlen : xs.length = 32 := by simp [xs]
  have hscan : scan.opened.isSome = true := by
    refine defectRun_block hclip f.scan (by simp [ys, length_firRun]) fun i hi hlo hhi => ?_
    have hall : clipped (all.getD (i + c.set.main) 0) = true := by
      have hplace : i + c.set.main - f.recent.length < xs.length := by omega
      rw [List.getD_eq_getElem?_getD, List.getElem?_append_right (by omega), List.getElem?_eq_getElem hplace, hxs _ hplace]
      rfl
    simp only [ys, List.getElem_map, List.getElem_zipIdx, Nat.zero_add]
    exact hall
  have huse : use = [] := by simp [use, hscan]
  have hnone : mag = (0, 0) := by simp [mag, hmag, huse]
  have hf' : f'.idle gain := ⟨hgain, hnone, by simp [f', all, hlen, hrecent]⟩
  have hagc : agcStep f'.gain mag = gain := by
    rw [hnone, hf'.1]
    rfl
  clear_value f' mag gone loop use used scan ys all xs
  split
  · exact ⟨hagc, rfl, hf'.2.2⟩
  · exact hf'

theorem Front.idle_run (hclips : frontEndClips) {c : FrontCfg} (hclip : c.defect.clipCount ≤ 15) (hmain : c.set.main ≤ 15) (signal : List Int)
    {gain : Nat} : ∀ (n : Nat) (p : Int) (f : Front), f.idle gain → (frontRun c signal n p f).idle gain
  | 0, _, _, h => h
  | n + 1, p, _, h => Front.idle_run hclips hclip hmain signal n (p + 32) _ (Front.idle_block hclips hclip hmain signal h p)

/-- A channel's front end as a slot finds it. -/
def Dev.frontStart (d : Dev) (slot : Nat) (n : Nat) : Front :=
  ⟨d.get (F.rchLiveVgaNow.ix n), d.loopOf n, none, List.replicate 9 0, (0, 0), d.scanFor n slot, [], [], []⟩

theorem Dev.front_sampleSlot (d : Dev) (slot : Nat) (rev : Bool) (t : TrackSignal) :
    (d.sampleSlot slot rev t).2 = frontRun (d.frontCfg t.channel slot rev) t.signal 2404 (-64) (d.frontStart slot t.channel) := by
  obtain ⟨run, hrun⟩ : ∃ f, frontRun = f := ⟨_, rfl⟩
  unfold Dev.sampleSlot
  rw [hrun]
  rfl

theorem Dev.gain_of_clips (hclips : frontEndClips) (d : Dev) (slot : Nat) (rev : Bool) (t : TrackSignal) :
    (d.sampleSlot slot rev t).2.gain = d.get (F.rchLiveVgaNow.ix t.channel) := by
  have hclip : (d.frontCfg t.channel slot rev).defect.clipCount ≤ 15 := Nat.le_of_lt_succ (d.get_lt F.rchDefectClipCount)
  have hmain : (d.frontCfg t.channel slot rev).set.main ≤ 15 := Nat.le_of_lt_succ (d.get_lt F.rchCtrlEqMain)
  have hstart : (d.frontStart slot t.channel).idle (d.get (F.rchLiveVgaNow.ix t.channel)) := ⟨rfl, rfl, List.length_replicate⟩
  rw [Dev.front_sampleSlot]
  exact (Front.idle_run hclips hclip hmain t.signal 2404 (-64) _ hstart).1

theorem Dev.gainStands_of_clips (hclips : frontEndClips) (d : Dev) (slot : Nat) (rev : Bool) (t : TrackSignal) :
    d.gainStands [ladderGain] slot rev t := by
  by_cases h : t.channel = ladderChannel
  · intro f hf
    have hgain : (d.sampleSlot slot rev t).2.gain = f.get ladderGain := by
      rw [Dev.gain_of_clips hclips, h, Dev.bench_get hf (List.mem_singleton_self _)]
      rfl
    have hsame : (f.set ladderGain (f.get ladderGain)).get ladderGain = f.get ladderGain := by
      rw [Dev.get_set_same _ _ _ (by decide)]
      exact Nat.mod_eq_of_lt (f.get_lt ladderGain)
    rw [h, hgain]
    change (f.set ladderGain (f.get ladderGain)).bench [ladderGain] = f.bench [ladderGain]
    rw [Dev.bench, List.map_singleton, hsame]
    rfl
  · exact d.gainStands_other slot rev h

/-- Were every sample clipped, the steps would be taken as stated: without a value of `Config.frontEnd` they cannot be shown to fail. -/
theorem ladderStepsTaken_of_clips (hclips : frontEndClips) : Obligations.LadderStepsTaken :=
  ladderStepsTaken_iff.mpr fun s e reads h => by
    rw [Dev.rereads_reread fun _ _ t _ f => f.gainStands_of_clips hclips _ _ t]
    exact h.allowed

end Sys2Proof.Machine
end

section
/-!
SUPPORT. A front end that gives nothing (R112, R114): the AGC raises the gain of a channel by one step in every eyelet.
-/
namespace Sys2Proof.Machine

variable {c : DefectCfg} {s : DefectScan}

/-- Every sample is zero. -/
def frontEndSilent : Prop := ∀ (z boost gain : Nat) (signal : List Int) (p : Int), Config.frontEnd z boost gain signal p = 0

/-- The detector has met neither signal nor clipped samples. -/
def DefectScan.still (s : DefectScan) : Prop := s.opened = none ∧ s.ref = 0 ∧ s.sum = 0 ∧ ∀ y ∈ s.last, y.2 = false

theorem DefectScan.still_next (hclip : 0 < c.clipCount) (h : s.still) (p : Int) : (s.next c (p, 0, false)).1.still := by
  obtain ⟨hopened, href, hsum, hlast⟩ := h
  have hunclipped : ∀ y ∈ ((0, false) :: s.last).take 16, y.2 = false := fun y hy => by
    obtain rfl | hy := List.mem_cons.mp ((List.take_subset _ _) hy)
    · rfl
    · exact hlast y hy
  have hnone : (((0, false) :: s.last).take 16).filter Prod.snd = [] := List.filter_eq_nil_iff.mpr fun y hy => by simp [hunclipped y hy]
  unfold DefectScan.next
  extract_lets last low below clips bad quiet full sum s'
  have hclips : clips = false := by
    simp only [clips, last, hnone, List.length_nil, decide_eq_false_iff_not]
    omega
  have hlow : low = false := by simp [low, href]
  have hbad : bad = false := by simp [bad, hlow, hclips]
  clear_value bad
  subst hbad
  rw [hopened]
  exact ⟨hopened, by simp [s', sum, href, hsum], by simp [s', sum, hsum], hunclipped⟩

theorem DefectScan.still_run (hclip : 0 < c.clipCount) : ∀ (xs : List (Int × Nat × Bool)) (s : DefectScan), (∀ x ∈ xs, x.2 = (0, false)) →
    s.still → (defectRun c s xs).2.still
  | [], _, _, h => h
  | x :: xs, s, hxs, h => by
    obtain ⟨p, y⟩ := x
    obtain rfl : y = (0, false) := hxs (p, y) List.mem_cons_self
    exact DefectScan.still_run hclip xs _ (fun z hz => hxs z (List.mem_cons_of_mem _ hz)) (DefectScan.still_next hclip h p)

theorem dot_zeros : ∀ (as : List Int) (n : Nat), dot as (List.replicate n 0) = 0
  | [], _ => by cases ‹Nat› <;> rfl
  | _ :: _, 0 => rfl
  | a :: as, n + 1 => by
    rw [List.replicate_succ, dot, dot_zeros as n]
    simp

theorem firRun_zeros (taps : List Int) : ∀ (n m : Nat), firRun taps n (List.replicate m 0) = List.replicate n 0
  | 0, _ => rfl
  | n + 1, m => by
    rw [firRun, List.take_replicate, dot_zeros, List.tail_replicate, firRun_zeros taps n (m - 1), List.replicate_succ]

/-- Eyelets that have ended before a place. -/
def eyeletsBefore (p : Int) : Nat := (p / 512).toNat

/-- A front end without signal: its gain has risen from `gain` by a step in each of `n` eyelets. -/
structure Front.silent (f : Front) (gain n : Nat) : Prop where
  rise : f.gain = min 255 (gain + n)
  none_ : f.mag.1 = 0
  recent : f.recent = List.replicate 9 0
  scan : f.scan.still

/-- The last bit that an eyelet's last block takes lies behind the welts (R37). -/
theorem weltAt_eyeletEnd (slot : Nat) {p : Int} (hend : (p + 32) % 512 = 0) {main : Nat} (hmain : main ≤ 15) :
    weltAt slot false (p - 9 + ((31 + main : Nat) : Int)) = false := by
  have hplace : ¬ (384 ≤ (p - 9 + ((31 + main : Nat) : Int)).toNat % 512 ∧ (p - 9 + ((31 + main : Nat) : Int)).toNat % 512 < 480) := by omega
  generalize p - 9 + ((31 + main : Nat) : Int) = q at *
  have hwelt : inWelt slot q.toNat = false := by
    rw [inWelt, Bool.and_assoc, ← Bool.decide_and, decide_eq_false hplace, Bool.and_false]
  simp [weltAt, hwelt]

theorem getD_zeros (n i : Nat) : (List.replicate n (0 : Int)).getD i 0 = 0 := by
  rw [List.getD_eq_getElem?_getD, List.getElem?_replicate]
  split <;> rfl

theorem agcStep_of_silence (gain : Nat) {mag : Nat × Nat} (hnone : mag.1 = 0) (htaken : 0 < mag.2) : agcStep gain mag = min 255 (gain + 1) := by
  rw [agcStep, if_pos (by omega)]

theorem Front.silent_block (hsilent : frontEndSilent) {c : FrontCfg} (hclip : 0 < c.defect.clipCount) (hmain : c.set.main ≤ 15) (hrev : c.rev = false)
    (signal : List Int) {f : Front} {gain : Nat} {p : Int} (hp : p % 32 = 0) (h : f.silent gain (eyeletsBefore p)) :
    (f.block c signal p).silent gain (eyeletsBefore (p + 32)) := by
  obtain ⟨hrise, hnone, hrecent, hscan⟩ := h
  unfold Front.block
  extract_lets xs all ys scan used use loop gone mag f'
  have hxs : xs = List.replicate 32 0 := by
    simp only [xs, hsilent _ _ _ _ _]
    rfl
  have hall : all = List.replicate 41 0 := by simp [all, hrecent, hxs]
  have hys : ∀ y ∈ ys, y.2 = (0, false) := fun y hy => by
    obtain ⟨z, hz, rfl⟩ := List.mem_map.mp hy
    rw [hall, firRun_zeros] at hz
    have hzero : z.1 = 0 := List.eq_of_mem_replicate (List.fst_mem_of_mem_zipIdx hz)
    rw [hzero, hall, getD_zeros]
    rfl
  have hscan' : scan.still := DefectScan.still_run hclip _ _ (fun x hx => by
    obtain ⟨y, hy, rfl⟩ := List.mem_map.mp hx
    rw [hys y hy]
    rfl) hscan
  have huse : use = used := by simp [use, hscan'.1, hscan.1]
  have hzero : ∀ u ∈ used, u = 0 := fun u hu => by
    obtain ⟨y, hy, rfl⟩ := List.mem_map.mp hu
    rw [hys y (List.mem_filter.mp hy).1]
  have hmag : mag.1 = 0 := by
    have hsum : (use.map Int.natAbs).sum = 0 := List.sum_eq_zero fun n hn => by
      obtain ⟨u, hu, rfl⟩ := List.mem_map.mp hn
      rw [hzero u (huse ▸ hu)]
      rfl
    simp [mag, hnone, hsum]
  have htaken : (p + 32) % 512 = 0 → 0 < mag.2 := fun hend => by
    have hlast : (p - 9 + ((31 + c.set.main : Nat) : Int), 0, clipped (all.getD (31 + c.set.main) 0)) ∈ ys :=
      List.mem_map.mpr ⟨(0, 31), by rw [hall, firRun_zeros]; decide, rfl⟩
    have hkept : (0 : Int) ∈ used :=
      List.mem_map.mpr ⟨_, List.mem_filter.mpr ⟨hlast, by rw [hrev, weltAt_eyeletEnd c.slot hend hmain]; rfl⟩, rfl⟩
    have hlen : 0 < use.length := List.length_pos_of_mem (huse ▸ hkept)
    simp only [mag]
    omega
  have hf' : f'.silent gain (eyeletsBefore p) := ⟨hrise, hmag, by simp [f', hall], hscan'⟩
  clear_value f' mag gone loop use used scan ys all xs
  split
  next hend =>
    obtain ⟨hend, hpos⟩ : (p + 32) % 512 = 0 ∧ 0 < p := by simpa using hend
    refine ⟨?_, rfl, hf'.recent, hf'.scan⟩
    have hnext : eyeletsBefore (p + 32) = eyeletsBefore p + 1 := by
      simp only [eyeletsBefore]
      omega
    change agcStep f'.gain mag = _
    rw [agcStep_of_silence _ hmag (htaken hend), hf'.rise, hnext]
    omega
  next hend =>
    have hsame : eyeletsBefore (p + 32) = eyeletsBefore p := by
      simp only [eyeletsBefore]
      simp only [Bool.and_eq_true, decide_eq_true_eq, not_and] at hend
      omega
    rwa [hsame]

theorem Front.silent_run (hsilent : frontEndSilent) {c : FrontCfg} (hclip : 0 < c.defect.clipCount) (hmain : c.set.main ≤ 15) (hrev : c.rev = false)
    (signal : List Int) {gain : Nat} : ∀ (n : Nat) (p : Int) (f : Front), p % 32 = 0 → f.silent gain (eyeletsBefore p) →
      (frontRun c signal n p f).silent gain (eyeletsBefore (p + 32 * n))
  | 0, p, _, _, h => by simpa [frontRun] using h
  | n + 1, p, f, hp, h => by
    have hrun := Front.silent_run hsilent hclip hmain hrev signal n (p + 32) _ (by omega) (Front.silent_block hsilent hclip hmain hrev signal hp h)
    rwa [show p + 32 * ((n + 1 : Nat) : Int) = p + 32 + 32 * (n : Int) by push_cast; ring]

/-- Over a slot that it finds without a history of defects a silent channel's gain rises by 150 steps. -/
theorem Dev.gain_of_silence (hsilent : frontEndSilent) (d : Dev) (slot : Nat) (t : TrackSignal) (hclip : 0 < d.get F.rchDefectClipCount)
    (hscan : (d.scanFor t.channel slot).still) :
    (d.sampleSlot slot false t).2.gain = min 255 (d.get (F.rchLiveVgaNow.ix t.channel) + 150) := by
  have hmain : (d.frontCfg t.channel slot false).set.main ≤ 15 := Nat.le_of_lt_succ (d.get_lt F.rchCtrlEqMain)
  have hstart : (d.frontStart slot t.channel).silent (d.get (F.rchLiveVgaNow.ix t.channel)) (eyeletsBefore (-64)) :=
    ⟨(Nat.min_eq_right (Nat.le_of_lt_succ (d.get_lt (F.rchLiveVgaNow.ix t.channel)))).symm, rfl, rfl, hscan⟩
  rw [Dev.front_sampleSlot]
  exact (Front.silent_run hsilent (c := d.frontCfg t.channel slot false) hclip hmain rfl t.signal 2404 (-64) _ rfl hstart).rise

end Sys2Proof.Machine
end

section
/-!
SUPPORT. A slot read again under the name of a channel beyond 255 (R45, R156, R162): it has no header, and adds nothing to its group.
-/
namespace Sys2Proof.Machine

variable {d : Dev} {e : GroupEntry}

/-- A header names its track in one byte (R43, R45). -/
theorem Header.ofTrack_beyond (bs : List Byte) {track : Nat} (h : 256 ≤ track) : Header.ofTrack bs track = none := by
  have hfield : fieldAt bs 2 1 < 256 := by
    rw [fieldAt]
    cases bs.drop 2 with
    | nil => decide
    | cons b _ => exact (by simpa [ofLe] using b.isLt)
  have hne : (fieldAt bs 2 1 == track) = false := by
    simp only [beq_eq_false_iff_ne]
    omega
  simp [Header.ofTrack, hne]

theorem Decode.head_settle_of_beyond {x : Decode} (h : ∀ k ∈ x.headers, 256 ≤ k.1) : (x.settle none).head = none := by
  have hvalid : x.valid = [] := by
    rw [Decode.valid, List.filterMap_eq_nil_iff]
    exact fun k hk => by rw [Header.ofTrack_beyond _ (h k hk)]; rfl
  simp only [Decode.settle, hvalid]
  rfl

/-- The decodes are some, and one in a buffer that none of them has. -/
structure Dev.adds (d : Dev) (l : List Decode) (x : Decode) : Prop where
  decodes : d.ecc.decodes = l ++ [x]
  fresh : ∀ y ∈ l, y.handle ≠ x.handle

theorem Dev.adds_modDecode {l : List Decode} {x : Decode} {h : Nat} (hd : d.adds l x) (hx : x.handle = h) {f : Decode → Decode}
    (hf : (f x).handle = x.handle) : (d.modDecode h f).adds l (f x) := by
  obtain ⟨hdecodes, hfresh⟩ := hd
  subst hx
  have hold : l.map (fun y => if y.handle == x.handle then f y else y) = l :=
    (List.map_congr_left fun y hy => by rw [if_neg (by simp [hfresh y hy])]).trans l.map_id'
  refine ⟨?_, fun y hy => hf ▸ hfresh y hy⟩
  rw [Dev.modDecode, hdecodes, List.map_append, hold]
  simp

theorem Dev.decodeIn_adds {l : List Decode} {x : Decode} (hd : d.adds l x) : d.decodeIn x.handle = some x := by
  obtain ⟨hdecodes, hfresh⟩ := hd
  rw [Dev.decodeIn, hdecodes, List.find?_append, List.find?_eq_none.mpr fun y hy => by simp [hfresh y hy]]
  simp

theorem Dev.decodes_dropDecode_adds {l : List Decode} {x : Decode} (hd : d.adds l x) : (d.dropDecode x).ecc.decodes = l := by
  obtain ⟨hdecodes, hfresh⟩ := hd
  unfold Dev.dropDecode
  rw [Dev.release_pools, hdecodes, List.filter_append, List.filter_eq_self.mpr fun y hy => by simp [hfresh y hy]]
  simp

/-- A further read adds one decode, with the headers of its channels and nothing of C2. -/
theorem Dev.adds_readAgain {l : List Decode} {h : Nat} (wrap group g : Nat) (reads : List TrackSignal) (hdecodes : d.ecc.decodes = l)
    (hfresh : ∀ y ∈ l, y.handle ≠ h) : ∃ x : Decode, (d.readAgain wrap group g h reads).adds l x ∧ x.handle = h ∧ x.slot = g ∧ x.wrap = wrap
      ∧ x.group = group ∧ x.c2Bad = none ∧ ((∀ t ∈ reads, 256 ≤ t.channel) → x.head = none) := by
  have hecc : (d.slotPassed g (wrapReverse wrap) reads).2.ecc = d.ecc := (congrArg Dev.ecc (d.seesOnly_slotPassed g (wrapReverse wrap) reads) :)
  have hnames : ∀ v ∈ (d.slotPassed g (wrapReverse wrap) reads).1, ∃ t ∈ reads, v.read.channel = t.channel := fun v hv => by
    obtain ⟨t, ht, rfl⟩ := List.mem_map.mp hv
    exact ⟨t, (List.mem_filter.mp ht).1, d.channel_sampleSlot _ _ t⟩
  unfold Dev.readAgain
  generalize d.slotPassed g (wrapReverse wrap) reads = p at *
  obtain ⟨vs, passed⟩ := p
  dsimp -zeta only at hecc hnames ⊢
  extract_lets _ x cfg decoded
  have hadded : (passed.addDecode x).adds l x := ⟨by rw [Dev.addDecode, hecc, hdecodes], hfresh⟩
  have hdecoded : ∃ rs, decoded.adds l { x with reports := rs } := by
    refine List.foldlRecOn (motive := fun e : Dev => ∃ rs, e.adds l { x with reports := rs }) vs _ ⟨[], hadded⟩ fun e he v _ => ?_
    refine List.foldlRecOn (motive := fun e : Dev => ∃ rs, e.adds l { x with reports := rs }) _ _ he fun e he c _ => ?_
    obtain ⟨rs, he⟩ := he
    dsimp only
    refine ⟨rs ++ [_], Dev.adds_modDecode (x := { x with reports := rs }) ?_ rfl rfl⟩
    split
    · exact ⟨he.decodes, he.fresh⟩
    · exact he
  clear_value decoded
  obtain ⟨rs, hdecoded⟩ := hdecoded
  refine ⟨_, Dev.adds_modDecode hdecoded rfl rfl, rfl, rfl, rfl, rfl, rfl, fun hbeyond => Decode.head_settle_of_beyond fun k hk => ?_⟩
  obtain ⟨v, hv, hk⟩ := List.mem_filterMap.mp hk
  obtain ⟨b, -, rfl⟩ := Option.map_eq_some_iff.mp hk
  obtain ⟨t, ht, hname⟩ := hnames v hv
  exact hname ▸ hbeyond t ht

end Sys2Proof.Machine
end

section
/-!
SUPPORT. A state in which a silent re-read takes back what ECC.LADDER allows.
-/
namespace Sys2Proof.Machine

variable {d : Dev}

/-- A device whose ID is 0 has the track groups of member 0 (R34, R442). -/
theorem Dev.self_of_id (h : d.glb.straps.id = 0) : d.self = 0 := by
  rw [Dev.self, h]
  split <;> rfl

/-- A group of one data data set without parity, and that data set, which has failed up to step 3. -/
def risingGroup : GroupEntry := ⟨0, 1, 0, 0, 0, 3600, 3600, 1, 1, true, false, 0, [], [], []⟩
def risingDecode : Decode := { newDecode 3600 0 0 false 0 [] with c2Bad := some [0], step := 3 }

/-- 15 re-reads are allowed, of which 13 have been made; the enabled channel's gain would be the same bits. -/
def risingDev : Dev :=
  { ((Dev.reset.set ladderGain 15).set (F.wchChEnEn.ix (ladderChannel / 32)) 4) with
    pools := strayPools
    plc := { Plc.reset with index := { Plc.reset.index with groups := [risingGroup] } }
    ecc := { Ecc.reset with decodes := [risingDecode], rereads := 13 }
    chan := { Chan.reset with groupsOn := ladderChannel / 16 + 1 } }

/-- The slot behind the data set's is read again. -/
def risingReads : List (Nat × List TrackSignal) := [(3601, [⟨ladderChannel, []⟩])]

theorem risingDev_supposed : risingDev.calm = true ∧ risingDev.strm.reads = [] ∧ risingDev.mayMove = true ∧ risingDev.groupAt 3 = some risingGroup
    ∧ risingDev.stepOn 4 = true ∧ risingDev.ecc.rereads + 1 < risingDev.get F.eccLadderRereads := by decide

/-- The device as the slot reaches the read elements: in a buffer of pool P3. -/
def risingThere : Dev := ((risingDev.atSpan risingGroup).allocate 3 ownVerify ownVerify).2

theorem allocate_rising : ((risingDev.atSpan risingGroup).allocate 3 ownVerify ownVerify).1 = some 0x60000001 := by decide

theorem risingThere_supposed : risingThere.channelOn ladderChannel = true ∧ risingThere.get ladderGain = 15 ∧ 0 < risingThere.get F.rchDefectClipCount
    ∧ risingThere.scanFor ladderChannel 3601 = DefectScan.zero ∧ risingThere.ecc.decodes = [risingDecode] ∧ risingThere.plc.index.groups = [risingGroup]
    ∧ risingThere.glb.straps.id = 0 := by decide

/-! ## What the further read makes of the slot -/

/-- The device knows the group, and holds its data set as it failed. -/
structure Dev.rising (d : Dev) (l : List Decode) : Prop where
  decodes : d.ecc.decodes = l
  groups : d.plc.index.groups = [risingGroup]
  self : d.self = 0

theorem Dev.groupEntry_rising {l : List Decode} (h : d.rising l) : d.groupEntry? 0 0 = some risingGroup := by
  rw [Dev.groupEntry?, h.groups, h.self]
  rfl

/-- The slot behind the group's only data set is taken for parity, of which the group has none. -/
theorem Dev.readAs_rising {x : Decode} (h : d.rising [risingDecode, x]) (hslot : x.slot = 3601) (hwrap : x.wrap = 0) (hgroup : x.group = 0)
    (hc2 : x.c2Bad = none) (hhead : x.head = none) : d.readAs x = none := by
  have hdone : x.done = false := by simp [Decode.done, hc2]
  have hsets : d.groupDecodes 0 0 = [risingDecode] := by
    rw [Dev.groupDecodes, Dev.memberDecodes, h.decodes, h.self, List.filter_cons_of_pos (by decide), List.filter_cons_of_neg (by simp [hdone]),
      List.filter_nil]
  have hindex : d.expectedIndex x risingGroup = 60 := by
    simp only [Dev.expectedIndex, hwrap, hgroup, hsets, hslot]
    decide
  unfold Dev.readAs
  rw [hhead]
  dsimp only
  rw [hwrap, hgroup, Dev.groupEntry_rising h]
  dsimp only
  rw [hindex]
  decide

/-- The data set still fails once a slot that adds nothing has been read. -/
theorem Dev.settled_rising (h : d.rising [risingDecode]) : d.classPassed risingGroup 4 = d ∧ d.unsettled risingGroup = true := by
  have hsets : d.groupDecodes 0 0 = [risingDecode] := by
    rw [Dev.groupDecodes, Dev.memberDecodes, h.decodes, h.self]
    decide
  refine ⟨?_, ?_⟩
  · have hnone : (d.failingOf risingGroup).filter (fun x => x.c2Bad == some []) = [] := by
      rw [Dev.failingOf, show d.groupDecodes risingGroup.wrap risingGroup.group = [risingDecode] from hsets]
      decide
    rw [Dev.classPassed, hnone]
    rfl
  · rw [Dev.unsettled, show d.groupDecodes risingGroup.wrap risingGroup.group = [risingDecode] from hsets]
    decide

theorem Dev.front_channelSees (d : Dev) (slot : Nat) (rev : Bool) (t : TrackSignal) :
    (d.channelSees slot rev t).front = (d.sampleSlot slot rev t).2 := by
  obtain ⟨sample, hsample⟩ : ∃ f, Dev.sampleSlot = f := ⟨_, rfl⟩
  unfold Dev.channelSees
  rw [hsample]

/-- The gain shown at the place of ECC.LADDER. -/
theorem Dev.bench_set_ladderGain {f : Dev} (h : f.bench [ladderGain] = d.bench [ladderGain]) (gain : Nat) :
    (f.set ladderGain gain).bench [ladderGain] = (d.set ladderGain gain).bench [ladderGain] := by
  have hshown : ∀ g : Dev, (g.set ladderGain gain).bench [ladderGain] = { g.bench [ladderGain] with shown := [gain % 2 ^ ladderGain.width] } := fun g => by
    rw [Dev.bench, List.map_singleton, Dev.get_set_same _ _ _ (by decide)]
    rfl
  rw [hshown, hshown, h]

theorem Dev.ladderGain_shows (slot : Nat) (rev : Bool) {p : Passed} {gain : Nat} (hname : p.read.channel = ladderChannel) (hgain : p.front.gain = gain) :
    (d.shows slot rev [p]).get ladderGain = gain % 256 := by
  have hbench : (d.shows slot rev [p]).bench [ladderGain] = (d.set ladderGain gain).bench [ladderGain] := by
    refine (Dev.bench_set _ _ (by decide)).trans ((Dev.bench_chan _ _).trans ?_)
    refine Dev.bench_channelPassed _ _ _ _ _ _ _ ladderGain_offChannels fun f hf => ?_
    rw [hname, hgain]
    exact Dev.bench_set_ladderGain hf gain
  have hwidth : 2 ^ ladderGain.width = 256 := by decide
  rw [Dev.bench_get hbench (List.mem_singleton_self _), Dev.get_set_same _ _ _ (by decide), hwidth]

/-- The gain that a slot leaves under the channel that would lie at ECC.LADDER. -/
theorem Dev.ladderGain_slotPassed {slot gain : Nat} {rev : Bool} {t : TrackSignal} (hon : d.channelOn t.channel = true)
    (hname : t.channel = ladderChannel) (hgain : (d.sampleSlot slot rev t).2.gain = gain) :
    (d.slotPassed slot rev [t]).2.get ladderGain = gain % 256 := by
  have hread : (d.channelSees slot rev t).read.channel = ladderChannel := by
    rw [Dev.read_channelSees, Dev.channel_sampleSlot, hname]
  rw [← Dev.front_channelSees] at hgain
  rw [Dev.slotPassed_single hon]
  exact Dev.ladderGain_shows slot rev hread hgain

theorem Dev.plc_readAgain (d : Dev) (wrap group g h : Nat) (reads : List TrackSignal) : (d.readAgain wrap group g h reads).plc = d.plc :=
  (Dev.bench_plc (d.bench_readAgain (fs := []) wrap group g h reads)).trans (congrArg Dev.plc (d.seesOnly_slotPassed g (wrapReverse wrap) reads) :)

theorem Dev.glb_readAgain (d : Dev) (wrap group g h : Nat) (reads : List TrackSignal) : (d.readAgain wrap group g h reads).glb = d.glb :=
  congrArg Face.glb (d.face_readAgain wrap group g h reads)

/-- A slot that is read as none of the group's leaves nothing but what its channels show (R156). -/
theorem Dev.rereadSlot_unread {a b : Dev} {e : GroupEntry} {g h : Nat} {reads : List TrackSignal} {l : List Decode} {x : Decode}
    (halloc : a.allocate 3 ownVerify ownVerify = (some h, b)) (hadds : (b.readAgain e.wrap e.group g h reads).adds l x) (hhandle : x.handle = h)
    (hunread : (b.readAgain e.wrap e.group g h reads).readAs x = none) :
    a.rereadSlot e g reads = (b.readAgain e.wrap e.group g h reads).dropDecode x := by
  subst hhandle
  unfold Dev.rereadSlot
  rw [halloc]
  dsimp only
  rw [Dev.decodeIn_adds hadds]
  dsimp only
  rw [hunread]

/-- A re-read of one slot that settles nothing, of a group without parity. -/
theorem Dev.mergeReads_single {a b : Dev} {e : GroupEntry} {g : Nat} {reads : List TrackSignal} (hslot : a.rereadSlot e g reads = b)
    (hclassed : b.classPassed e 4 = b) (hparity : e.noC3 = true) : a.mergeReads e [(g, reads)] = b := by
  unfold Dev.mergeReads
  rw [List.foldl_cons, List.foldl_nil, hslot, hclassed]
  simp only [hparity, Bool.or_true, Bool.true_or, if_true]

/-! ## The re-read -/

/-- The device with the slot read again. -/
def risingAgain : Dev := risingThere.readAgain 0 0 3601 0x60000001 [⟨ladderChannel, []⟩]

theorem ladderGain_risingAgain (hsilent : frontEndSilent) : risingAgain.get ladderGain = 165 := by
  obtain ⟨hon, hstart, hclip, hscan, -⟩ := risingThere_supposed
  have hstill : (risingThere.scanFor ladderChannel 3601).still := by
    rw [hscan]
    exact ⟨rfl, rfl, rfl, fun y hy => absurd hy List.not_mem_nil⟩
  have hgain : (risingThere.sampleSlot 3601 false ⟨ladderChannel, []⟩).2.gain = 165 := by
    rw [Dev.gain_of_silence hsilent risingThere 3601 ⟨ladderChannel, []⟩ hclip hstill]
    change min 255 (risingThere.get ladderGain + 150) = 165
    rw [hstart]
    rfl
  have hshown := Dev.ladderGain_slotPassed (rev := false) (t := ⟨ladderChannel, []⟩) hon rfl hgain
  have hbench := risingThere.bench_readAgain (fs := [ladderGain]) 0 0 3601 0x60000001 [⟨ladderChannel, []⟩]
  exact (Dev.bench_get hbench (List.mem_singleton_self _)).trans hshown

theorem risingAgain_spec : ∃ x : Decode, risingAgain.adds [risingDecode] x ∧ x.handle = 0x60000001 ∧ risingAgain.readAs x = none
    ∧ risingAgain.plc.index.groups = [risingGroup] ∧ risingAgain.glb.straps.id = 0 := by
  obtain ⟨-, -, -, -, hdecodes, hgroups, hid⟩ := risingThere_supposed
  obtain ⟨x, hadds, hhandle, hslot, hwrap, hgroup, hc2, hhead⟩ :=
    risingThere.adds_readAgain 0 0 3601 [⟨ladderChannel, []⟩] hdecodes (h := 0x60000001) (by decide)
  have hplc : risingAgain.plc = risingThere.plc := risingThere.plc_readAgain 0 0 3601 0x60000001 [⟨ladderChannel, []⟩]
  have hglb : risingAgain.glb = risingThere.glb := risingThere.glb_readAgain 0 0 3601 0x60000001 [⟨ladderChannel, []⟩]
  rw [← hplc] at hgroups
  rw [← hglb] at hid
  exact ⟨x, hadds, hhandle, Dev.readAs_rising ⟨hadds.decodes, hgroups, Dev.self_of_id hid⟩ hslot hwrap hgroup hc2 (hhead (by decide)), hgroups, hid⟩

/-- A re-read whose slot is dropped leaves the group as it was. -/
theorem Dev.mergeReads_rising {a r : Dev} {g : Nat} {reads : List TrackSignal} {x : Decode} (hslot : a.rereadSlot risingGroup g reads = r.dropDecode x)
    (hadds : r.adds [risingDecode] x) (hgroups : r.plc.index.groups = [risingGroup]) (hid : r.glb.straps.id = 0) :
    (a.mergeReads risingGroup [(g, reads)]).unsettled risingGroup = true
      ∧ (a.mergeReads risingGroup [(g, reads)]).get ladderGain = r.get ladderGain := by
  have hkept := r.bench_dropDecode (fs := [ladderGain]) x
  have hglb : (r.dropDecode x).glb = r.glb := congrArg Face.glb (r.face_dropDecode x)
  have hplc : (r.dropDecode x).plc = r.plc := Dev.bench_plc hkept
  have hrising : (r.dropDecode x).rising [risingDecode] :=
    ⟨Dev.decodes_dropDecode_adds hadds, by rw [hplc, hgroups], Dev.self_of_id (by rw [hglb, hid])⟩
  obtain ⟨hclassed, hfails⟩ := Dev.settled_rising hrising
  rw [Dev.mergeReads_single hslot hclassed rfl]
  exact ⟨hfails, Dev.bench_get hkept (List.mem_singleton_self _)⟩

/-- The re-read leaves at ECC.LADDER the gain of the channel. -/
theorem reread_rising (hsilent : frontEndSilent) : (risingDev.reread risingGroup risingReads).unsettled risingGroup = true
    ∧ (risingDev.reread risingGroup risingReads).get F.eccLadderRereads = 5 := by
  obtain ⟨x, hadds, hhandle, hunread, hgroups, hid⟩ := risingAgain_spec
  have hslot : (risingDev.atSpan risingGroup).rereadSlot risingGroup 3601 [⟨ladderChannel, []⟩] = risingAgain.dropDecode x :=
    Dev.rereadSlot_unread (Prod.ext allocate_rising rfl) hadds hhandle hunread
  have hreads := Dev.mergeReads_rising (r := risingAgain) hslot hadds hgroups hid
  rw [ladderGain_risingAgain hsilent] at hreads
  obtain ⟨hfails, hgain⟩ := hreads
  refine ⟨hfails, ?_⟩
  rw [Dev.reread, Dev.rereads_eq_ladderGain, risingReads, hgain]

/-- Were every sample zero, the steps would not be taken as stated: without a value of `Config.frontEnd` they cannot be shown to hold. -/
theorem not_ladderStepsTaken_of_silence (hsilent : frontEndSilent) : ¬ Obligations.LadderStepsTaken := fun h => by
  obtain ⟨hcalm, hidle, hmove, hgroup, hon, hallowed⟩ := risingDev_supposed
  obtain ⟨hfails, hleft⟩ := reread_rising hsilent
  have hstays := ladderStepsTaken_iff.mp h ⟨[], risingDev⟩ risingGroup risingReads ⟨hcalm, hidle, hmove, hgroup, hon, hfails, hallowed⟩
  have hmade : risingDev.ecc.rereads = 13 := rfl
  dsimp only at hstays
  omega

end Sys2Proof.Machine
end
